-- ==== Sys2Proof/Word.lean ====
section
/-! DEFINITION. The word types of the block: bytes, bus words, register words and event words. -/

namespace Sys2Proof

/-- A byte of a memory, an image or a message. -/
abbrev Byte := BitVec 8
/-- A word of the 16-bit host bus (R292) and of a 16-bit register. -/
abbrev HWord := BitVec 16
/-- A 32-bit word: registers, event words, memory words, samples as stored. -/
abbrev Word := BitVec 32
/-- A 64-bit word: wide registers and instruction words of an engine. -/
abbrev DWord := BitVec 64
/-- The words of a record of the structure image, or the words of a 32-byte message. -/
abbrev Words := List Word

end Sys2Proof
end

