-- ==== Sys2Proof/Machine/Bits.lean ====
section
/-! DEFINITION. Bit fields, rounding, saturation, and the sparse stores that hold every sized array of the block. -/

namespace Sys2Proof.Machine

/-! ## Bit fields -/

/-- Bits [hi:lo] of a natural number. -/
def bits (x hi lo : Nat) : Nat := x / 2 ^ lo % 2 ^ (hi + 1 - lo)

/-- Bit i of a natural number. -/
def bitAt (x i : Nat) : Bool := x / 2 ^ i % 2 == 1

/-- A Boolean as a bit. -/
def b2n (b : Bool) : Nat := if b then 1 else 0

/-- A field value shifted to its place, cut to its width. -/
def place (v w lo : Nat) : Nat := v % 2 ^ w * 2 ^ lo

/-- Bits [hi:lo] of word i of a record (missing words are zero). -/
def Words.fld (r : Words) (i hi lo : Nat) : Nat := bits (r.getD i 0).toNat hi lo

/-- Word i of a record, unsigned. -/
def Words.u (r : Words) (i : Nat) : Nat := (r.getD i 0).toNat

/-- Word i of a record, signed. -/
def Words.s (r : Words) (i : Nat) : Int := (r.getD i 0).toInt

/-- Words i and i+1 as one 64-bit value, low word first (R38). -/
def Words.u64 (r : Words) (i : Nat) : Nat := Words.u r i + 2 ^ 32 * Words.u r (i + 1)

/-- Read a w-bit unsigned number as two's complement. -/
def signed (w x : Nat) : Int :=
  if x % 2 ^ w < 2 ^ (w - 1) then (x % 2 ^ w : Nat) else ((x % 2 ^ w : Nat) : Int) - 2 ^ w

/-- The w-bit two's-complement pattern of an integer. -/
def unsigned (w : Nat) (x : Int) : Nat := (x % 2 ^ w).toNat

/-- Two halves of a 32-bit register word. -/
def loHalf (x : Nat) : Nat := x % 2 ^ 16
def hiHalf (x : Nat) : Nat := x / 2 ^ 16 % 2 ^ 16

/-! ## Rounding and saturation -/

/-- R10, R136: add half of the target's least significant bit, then floor. -/
def rnd (x : Int) (n : Nat) : Int := (x + 2 ^ (n - 1)) / 2 ^ n

/-- Floor division by a power of two, for signed values (R113). -/
def asr (x : Int) (n : Nat) : Int := x / 2 ^ n

/-- R136: round a quotient, halves toward plus infinity (b positive). -/
def roundDiv (a b : Int) : Int := (2 * a + b) / (2 * b)

/-- Clamp to lo .. hi. -/
def clampI (lo hi x : Int) : Int := if x < lo then lo else if hi < x then hi else x

/-- R11: the nearest end of a signed n-bit range. -/
def satN (n : Nat) (x : Int) : Int := clampI (-(2 ^ (n - 1))) (2 ^ (n - 1) - 1) x

/-- R136: saturation to Q1.31. -/
def sat32 (x : Int) : Int := satN 32 x

/-- R136: saturation of a Q9.31 filter state. -/
def sat40 (x : Int) : Int := satN 40 x

/-- Whether a saturation to n bits changed the value (the sticky flag of R11). -/
def clipped (n : Nat) (x : Int) : Bool := satN n x != x

/-- The greatest Q1.31 value. -/
def q31max : Int := 2 ^ 31 - 1

/-- A counter that stops at its greatest value. -/
def satInc (top n : Nat) : Nat := if n < top then n + 1 else n

/-- A counter that adds k and stops at its greatest value. -/
def satAdd (top n k : Nat) : Nat := min top (n + k)

/-- Rotate a 32-bit word left. -/
def rotl (x k : Nat) : Nat := (x * 2 ^ (k % 32) + x / 2 ^ (32 - k % 32)) % 2 ^ 32

/-- The signed value of a 32-bit number. -/
def s32 (x : Nat) : Int := signed 32 x

/-- Round up a quotient. -/
def ceilDiv (a b : Nat) : Nat := (a + b - 1) / b

/-! ## Sparse stores

Every array of the block that is indexed by a number is a list of pairs, indices strictly rising, with no
entry equal to what an unlisted index reads as. Equal arrays are then equal data. -/

/-- A sparse array. -/
abbrev Store (α : Type) := List (Nat × α)

/-- Read index k; an unlisted index reads as d. -/
def Store.get {α : Type} (d : α) : Store α → Nat → α
  | [], _ => d
  | (i, v) :: t, k => if k = i then v else Store.get d t k

/-- List value v at index k, in its place. -/
def Store.put {α : Type} : Store α → Nat → α → Store α
  | [], k, v => [(k, v)]
  | (i, w) :: t, k, v =>
    if k < i then (k, v) :: (i, w) :: t else if k = i then (k, v) :: t else (i, w) :: Store.put t k v

/-- List no value at index k. -/
def Store.erase {α : Type} : Store α → Nat → Store α
  | [], _ => []
  | (i, w) :: t, k => if k = i then Store.erase t k else (i, w) :: Store.erase t k

/-- Write index k, keeping the canonical form: writing d removes the entry. -/
def Store.set {α : Type} [DecidableEq α] (d : α) (m : Store α) (k : Nat) (v : α) : Store α :=
  if v = d then Store.erase m k else Store.put m k v

/-- Apply a function to the value at index k. -/
def Store.upd {α : Type} [DecidableEq α] (d : α) (m : Store α) (k : Nat) (f : α → α) : Store α :=
  Store.set d m k (f (Store.get d m k))

/-- Write consecutive indices from k. -/
def Store.setRange {α : Type} [DecidableEq α] (d : α) (m : Store α) (k : Nat) : List α → Store α
  | [] => m
  | v :: vs => Store.setRange d (Store.set d m k v) (k + 1) vs

/-- Read n consecutive indices from k. -/
def Store.getRange {α : Type} (d : α) (m : Store α) (k : Nat) : Nat → List α
  | 0 => []
  | n + 1 => Store.get d m k :: Store.getRange d m (k + 1) n

/-- The indices listed, each once. -/
def Store.keys {α : Type} (m : Store α) : List Nat := (m.map fun kv => kv.1).eraseDups

/-- All indices of the list lie above the bound. -/
def Store.above {α : Type} (b : Nat) : Store α → Bool
  | [] => true
  | (i, _) :: _ => decide (b < i)

/-- The canonical form. -/
def Store.wf {α : Type} [DecidableEq α] (d : α) : Store α → Bool
  | [] => true
  | (i, v) :: t => decide (v ≠ d) && Store.above i t && Store.wf d t

/-- Replace element i of a list (nothing when i is past its end). -/
def setAt {α : Type} : List α → Nat → α → List α
  | [], _, _ => []
  | _ :: t, 0, v => v :: t
  | a :: t, n + 1, v => a :: setAt t n v

/-- Apply a function to element i of a list. -/
def updAt {α : Type} : List α → Nat → (α → α) → List α
  | [], _, _ => []
  | a :: t, 0, f => f a :: t
  | a :: t, n + 1, f => a :: updAt t n f

/-! ## Byte memories

DRAM, ring memory and the QSPI flash are byte memories: host cells in the canonical form. -/

/-- A byte memory: cells with addresses strictly rising, none equal to the fill byte. -/
abbrev Memory := List Host.Cell

/-- What an unlisted byte reads as: see notes/assumptions (DRAM and ring memory are undefined after a reset;
erased flash reads as ones). -/
abbrev Memory.wf (fill : Byte) (m : Memory) : Prop := Store.wf fill m = true

/-- Read one byte. -/
def Memory.read (fill : Byte) (m : Memory) (a : Nat) : Byte := Store.get fill m a

/-- Write one byte. -/
def Memory.write (fill : Byte) (m : Memory) (a : Nat) (v : Byte) : Memory := Store.set fill m a v

/-- Read n bytes from a. -/
def Memory.readN (fill : Byte) (m : Memory) (a n : Nat) : List Byte := Store.getRange fill m a n

/-- Write bytes from a upward. -/
def Memory.writeN (fill : Byte) (m : Memory) (a : Nat) (vs : List Byte) : Memory := Store.setRange fill m a vs

/-- A little-endian number from bytes (R38, R66). -/
def leNat : List Byte → Nat
  | [] => 0
  | b :: t => b.toNat + 256 * leNat t

/-- n bytes of a number, least significant first. -/
def leBytes (x : Nat) : Nat → List Byte
  | 0 => []
  | n + 1 => BitVec.ofNat 8 x :: leBytes (x / 256) n

/-- The little-endian bytes of a list of words. -/
def wordBytes : Words → List Byte
  | [] => []
  | w :: t => leBytes w.toNat 4 ++ wordBytes t

/-- A 32-bit word at a byte address. -/
def Memory.readW (fill : Byte) (m : Memory) (a : Nat) : Word := BitVec.ofNat 32 (leNat (Memory.readN fill m a 4))

/-- Store a 32-bit word at a byte address. -/
def Memory.writeW (fill : Byte) (m : Memory) (a : Nat) (w : Word) : Memory :=
  Memory.writeN fill m a (leBytes w.toNat 4)

/-- n words from a byte address. -/
def Memory.readWs (fill : Byte) (m : Memory) (a : Nat) : Nat → Words
  | 0 => []
  | n + 1 => Memory.readW fill m a :: Memory.readWs fill m (a + 4) n

/-- Store words from a byte address. -/
def Memory.writeWs (fill : Byte) (m : Memory) (a : Nat) : Words → Memory
  | [] => m
  | w :: t => Memory.writeWs fill (Memory.writeW fill m a w) (a + 4) t

end Sys2Proof.Machine
end

