-- ==== Sys2Proof/Machine/Base.lean ====
section
/-! DEFINITION. The names every unit shares: parts, frame rates, error codes, modes, event records and their sources. -/

namespace Sys2Proof.Machine

/-! ## Parts (R1) -/

/-- The four variants of the Derku. -/
inductive Part where
  | wvd880 | wvd860 | wvd840 | wvd820
  deriving DecidableEq, Repr, Inhabited

/-- R1: number of voice clusters present, 0 .. n-1. -/
def Part.clusters : Part → Nat
  | .wvd880 => 8 | .wvd860 => 8 | .wvd840 => 2 | .wvd820 => 4
/-- R1: number of fuller engines present. -/
def Part.engines : Part → Nat
  | .wvd880 => 16 | .wvd860 => 8 | .wvd840 => 16 | .wvd820 => 4
/-- R1: whether the twin link is present. -/
def Part.twin : Part → Bool
  | .wvd880 => true | .wvd860 => false | .wvd840 => true | .wvd820 => false
/-- R1: number of PDM data lines present. -/
def Part.pdmLines : Part → Nat
  | .wvd880 => 16 | .wvd860 => 4 | .wvd840 => 16 | .wvd820 => 4
/-- R1: number of AES3 receivers, and of transmitters. -/
def Part.aes : Part → Nat
  | .wvd880 => 4 | .wvd860 => 2 | .wvd840 => 4 | .wvd820 => 2
/-- R1: number of CV outputs. -/
def Part.cvs : Part → Nat
  | .wvd880 => 16 | .wvd860 => 8 | .wvd840 => 0 | .wvd820 => 0
/-- R67: the part's bit of the header's PARTS field. -/
def Part.bit : Part → Nat
  | .wvd880 => 0 | .wvd860 => 1 | .wvd840 => 2 | .wvd820 => 3
/-- R2: slots that the part's clusters span (0 .. n-1). -/
def Part.slots (p : Part) : Nat := 256 * p.clusters

/-! ## Frame rates (R26) -/

/-- The six nominal frame rates. -/
inductive Rate where
  | r44 | r48 | r88 | r96 | r176 | r192
  deriving DecidableEq, Repr, Inhabited

/-- R26: core cycles per frame, nominal: N of the clock rules. -/
def Rate.cycles : Rate → Nat
  | .r44 => 17832 | .r48 => 16384 | .r88 => 8916 | .r96 => 8192 | .r176 => 4458 | .r192 => 4096
/-- R26: core cycles of the shortest frame, at +2 %. -/
def Rate.shortest : Rate → Nat
  | .r44 => 17482 | .r48 => 16062 | .r88 => 8741 | .r96 => 8031 | .r176 => 4370 | .r192 => 4015
/-- R2, R26: voices per cluster. -/
def Rate.voices : Rate → Nat
  | .r44 => 256 | .r48 => 256 | .r88 => 128 | .r96 => 128 | .r176 => 64 | .r192 => 64
/-- R26, R47: events per frame. -/
def Rate.events (r : Rate) : Nat := r.voices
/-- R26: stream units per cluster per frame. -/
def Rate.units : Rate → Nat
  | .r44 => 5120 | .r48 => 5120 | .r88 => 2560 | .r96 => 2560 | .r176 => 1280 | .r192 => 1280
/-- R26: fuller sample partition limit in cycles. -/
def Rate.limit : Rate → Nat
  | .r44 => 17152 | .r48 => 15744 | .r88 => 8448 | .r96 => 7680 | .r176 => 3968 | .r192 => 3712
/-- The rate in hertz. -/
def Rate.hz : Rate → Nat
  | .r44 => 44100 | .r48 => 48000 | .r88 => 88200 | .r96 => 96000 | .r176 => 176400 | .r192 => 192000
/-- R26: slots per frame of one serial audio data line. -/
def Rate.lineSlots : Rate → Nat
  | .r176 => 8 | .r192 => 8 | _ => 16
/-- Position of the rate in the table. -/
def Rate.idx : Rate → Nat
  | .r44 => 0 | .r48 => 1 | .r88 => 2 | .r96 => 3 | .r176 => 4 | .r192 => 5

/-! ## Error codes (R14) -/

/-- The codes of *Error codes*; `ok` is code 0. -/
inductive Err where
  | ok | range | rsvd | mode | absent | busy | stale | late | noVoice | bandwidth | security | rollback
  | format | check | full | notFound | capacity | incompat
  deriving DecidableEq, Repr, Inhabited

/-- R14: the number of a code. -/
def Err.code : Err → Nat
  | .ok => 0 | .range => 1 | .rsvd => 2 | .mode => 3 | .absent => 4 | .busy => 5 | .stale => 6 | .late => 7
  | .noVoice => 8 | .bandwidth => 9 | .security => 10 | .rollback => 11 | .format => 12 | .check => 13
  | .full => 14 | .notFound => 15 | .capacity => 16 | .incompat => 17

/-- R15: the place of a refusal in the order of reporting (less is reported first). -/
def Err.rank : Err → Nat
  | .security => 1 | .absent => 2 | .mode => 3 | .rsvd => 4 | .range => 5 | .ok => 7 | _ => 6

/-- R15: of several refusal conditions, in the order in which their chapter lists them, the one to report. -/
def Err.first (cs : List (Bool × Err)) : Err :=
  (cs.foldl (fun b c => if c.1 && decide (c.2.rank < b.rank) then c.2 else b) Err.ok)

/-! ## Modes (R32) -/

/-- The twelve major modes. -/
inductive Mode where
  | reset | loader | load | ready | run | runLead | runShadow | handover | hold | safe | sleep | service
  deriving DecidableEq, Repr, Inhabited

/-- R33: the running modes in which frames are numbered. HANDOVER runs frames too (R32). -/
def Mode.running : Mode → Bool
  | .run => true | .runLead => true | .runShadow => true | .handover => true | _ => false

/-! ## Events (R38, R40) -/

/-- Where an event comes from (R40). -/
inductive Source where
  | ring (r : Nat)
  | spi
  | core (k : Nat)
  | timer (t : Nat)
  | twin
  deriving DecidableEq, Repr, Inhabited

/-- The operands of an event command: everything of the record but the opcode, which the row gives (R38). -/
structure EvArgs where
  flags : BitVec 8
  target : BitVec 16
  w1 : Word
  w2 : Word
  w3 : Word
  w4 : Word
  w5 : Word
  w6 : Word
  w7 : Word
  deriving DecidableEq, Repr, Inhabited

/-- An event record of eight words (R38). -/
abbrev EvRec := Words

/-- R38: the record of an opcode and its operands. -/
def EvArgs.toRec (e : EvArgs) (op : Nat) : EvRec :=
  [BitVec.ofNat 32 (place op 8 24 + place e.flags.toNat 8 16 + e.target.toNat), e.w1, e.w2, e.w3, e.w4, e.w5, e.w6, e.w7]

/-- R38: fields of the record. -/
def evOp (r : EvRec) : Nat := Words.fld r 0 31 24
def evFlags (r : EvRec) : Nat := Words.fld r 0 23 16
def evTarget (r : EvRec) : Nat := Words.fld r 0 15 0
def evCommit (r : EvRec) : Nat := Words.fld r 0 23 20
def evNow (r : EvRec) : Bool := Words.fld r 0 18 18 == 1
def evReply (r : EvRec) : Bool := Words.fld r 0 17 17 == 1
def evHandle (r : EvRec) : Bool := Words.fld r 0 16 16 == 1
def evUse (r : EvRec) : Nat := Words.fld r 1 31 24
def evTag (r : EvRec) : Nat := Words.fld r 1 23 0
def evSlot (r : EvRec) : Nat := Words.fld r 1 10 0
def evStamp (r : EvRec) : Nat := Words.u64 r 2
def evSpace (r : EvRec) : Nat := Words.fld r 4 31 28
def evIndex (r : EvRec) : Nat := Words.fld r 4 27 0

/-- R39: opcode numbers. -/
def opNoteStart : Nat := 1
def opNoteRelease : Nat := 2
def opNoteKill : Nat := 3
def opVoiceSet : Nat := 4
def opGroupSet : Nat := 5
def opPlaceSet : Nat := 6
def opTempo : Nat := 7
def opFulSet : Nat := 8
def opBankSwap : Nat := 9
def opXfStart : Nat := 10
def opXfFinish : Nat := 11
def opDelaySet : Nat := 12
def opCvSet : Nat := 13
def opRegionEnable : Nat := 14
def opCommit : Nat := 15
def opCommitDrop : Nat := 16
def opMark : Nat := 17

/-- R39: whether the opcode allows commit membership. -/
def opMember (op : Nat) : Bool := decide (4 ≤ op) && decide (op ≤ 13)
/-- R43: opcodes that name a note by handle. -/
def opHandle (op : Nat) : Bool := op == 2 || op == 3 || op == 4 || op == 6

end Sys2Proof.Machine
end

