-- ==== Sys2Proof/Machine/ControlTypes.lean ====
section
/-! DEFINITION. The plain data of the control side: host ports, windows, rings, mailboxes, scheduler, firmware update
(chapters 14 to 16). -/

namespace Sys2Proof.Machine

/-- The two ports that reach registers. -/
inductive Port where
  | host | spi
  deriving DecidableEq, Repr, Inhabited

/-- R302: a read latch: the register captured (page, base) and its value. -/
structure ReadLatch where
  page : Nat
  base : Nat
  value : Nat
  deriving DecidableEq, Repr, Inhabited

/-- R303: a write latch: the register and the lower words held, by word number. -/
structure WriteLatch where
  page : Nat
  base : Nat
  words : Store (Option HWord)
  deriving DecidableEq, Repr, Inhabited

/-- The latches of one port. -/
structure PortSt where
  rd : Option ReadLatch
  wr : Option WriteLatch
  deriving DecidableEq, Repr, Inhabited

/-- R306: a window. -/
structure Window where
  dir : Bool
  tgt : Nat
  eng : Nat
  doneie : Bool
  len : Nat
  addr : Nat
  busy : Bool
  done : Bool
  code : Nat
  /-- The command word of the transfer in progress. -/
  job : Nat
  buf : List Word
  deriving DecidableEq, Repr, Inhabited

/-- A window after reset. -/
def Window.empty : Window := ⟨false, 0, 0, false, 0, 0, false, false, 0, 0, List.replicate 16 0⟩

/-- The host side: HOST_ERR, HOST_CFG, HPAGE, interrupt registers, latches and windows. -/
structure HostSt where
  errCount : Nat
  errPort : Port
  errCode : Nat
  errPage : Nat
  errOff : Nat
  sintod : Bool
  intod : Bool
  sync : Bool
  hpage : Nat
  /-- Latched bits of INT_STAT. -/
  intLatched : Nat
  intEn0 : Nat
  intEn1 : Nat
  intSen : Nat
  hostPort : PortSt
  spiPort : PortSt
  /-- R313: a write in an earlier SPI transaction has been refused since the last status read. -/
  spiRefused : Bool
  /-- Words the last SPI read or bus read returned, oldest first. -/
  readOut : List HWord
  /-- The last SPI_STAT byte returned. -/
  spiStatOut : Byte
  wins : List Window
  deriving DecidableEq, Repr, Inhabited

/-- The host side after reset. -/
def HostSt.empty : HostSt :=
  { errCount := 0, errPort := .host, errCode := 0, errPage := 0, errOff := 0, sintod := false, intod := false, sync := false
    hpage := 0, intLatched := 0, intEn0 := 0, intEn1 := 0, intSen := 0, hostPort := ⟨none, none⟩, spiPort := ⟨none, none⟩
    spiRefused := false, readOut := [], spiStatOut := 0, wins := List.replicate 8 Window.empty }

/-! ## Rings and mailboxes -/

/-- Endpoint codes of RING_DESC. -/
inductive EndPt where
  | host | spi | cores | carder | scheduler | dram | uart
  deriving DecidableEq, Repr, Inhabited

/-- RING_DESC code of an endpoint. -/
def EndPt.code : EndPt → Nat
  | .host => 0 | .spi => 1 | .cores => 2 | .carder => 3 | .scheduler => 4 | .dram => 5 | .uart => 6

/-- A ring in the RINGS section (R320). -/
structure HRing where
  type : Nat
  prod : EndPt
  cons : EndPt
  uart : Nat
  size : Nat
  base : Nat
  deriving DecidableEq, Repr, Inhabited

/-- A ring's run-time state. -/
structure Ring where
  head : BitVec 16
  tail : BitVec 16
  ie : Bool
  level : Nat
  lost : Nat
  /-- HEAD as it stood before its last write and the time of that write: entries become visible within 16 cycles (R325). -/
  seen : BitVec 16
  at_ : Nat
  /-- A BULK ring: the DRAM controller has taken the oldest request, with this code (R328, R329). -/
  job : Option Nat
  deriving DecidableEq, Repr, Inhabited

/-- A ring after blocking. -/
def Ring.empty : Ring := ⟨0, 0, false, 1, 0, 0, 0, none⟩

/-- A mailbox channel (R331 to R335). -/
structure Mbx where
  inw : Words
  outw : Words
  infull : Bool
  outfull : Bool
  cross : Bool
  lost : Bool
  flshd : Bool
  oseq : Nat
  iseq : Nat
  errie : Bool
  ineie : Bool
  outie : Bool
  /-- Firmware's copies of CROSS and LOST (R334, R335). -/
  fwCross : Bool
  fwLost : Bool
  deriving DecidableEq, Repr, Inhabited

def Mbx.empty : Mbx :=
  ⟨List.replicate 8 0, List.replicate 8 0, false, false, false, false, false, 0, 0, false, false, false, false, false⟩

/-! ## Task scheduler -/

/-- Descriptor states (SCH_DESC.STATE). -/
inductive TaskState where
  | free | idle | ready | prefetched | running | delayed
  deriving DecidableEq, Repr, Inhabited

def TaskState.code : TaskState → Nat
  | .free => 0 | .idle => 1 | .ready => 2 | .prefetched => 3 | .running => 4 | .delayed => 5

/-- A task descriptor (R340). -/
structure Desc where
  state : TaskState
  prio : Nat
  tick : Bool
  rerun : Bool
  host : Bool
  ful : Bool
  eng : Nat
  cmask : Nat
  core : Nat
  remain : Nat
  entry : Nat
  /-- Readiness stamp and its cycle (R342, R347). -/
  stamp : Nat
  readyAt : Nat
  /-- Sequence number of its DELAY command (R346). -/
  delaySeq : Nat
  waitLast : Nat
  waitMax : Nat
  deriving DecidableEq, Repr, Inhabited

/-- A FREE descriptor. -/
def Desc.free : Desc := ⟨.free, 0, false, false, false, false, 0, 0, 0, 0, 0, 0, 0, 0, 0, 0⟩

/-- One of the twenty cores: prefetch slot, running task, and its load. -/
structure SchCore where
  slot : Option Nat
  run : Option Nat
  /-- Time at which the current busy stretch began, and busy cycles of the window so far. -/
  since : Option Nat
  busy : Nat
  load : Nat
  peak : Nat
  deriving DecidableEq, Repr, Inhabited

def SchCore.empty : SchCore := ⟨none, none, none, 0, 0, 0⟩

/-- The scheduler. -/
structure Sched where
  descs : Store Desc
  cores : List SchCore
  /-- Next command sequence number (R341). -/
  seq : Nat
  tfie : Bool
  lwin : Nat
  /-- LWIN in force for the window under way. -/
  lwinCur : Nat
  /-- Milliseconds counted in the load window. -/
  msCount : Nat
  tfault : Nat
  fltTask : Nat
  fltCore : Nat
  dsel : Nat
  deriving DecidableEq, Repr, Inhabited

def Sched.empty : Sched := ⟨[], List.replicate 20 SchCore.empty, 0, false, 100, 100, 0, 0, 0, 0, 0⟩

/-! ## Firmware update -/

/-- UPD_STAT.STAGE. -/
inductive UpdStage where
  | idle | download | verified | handover | trial | confirm
  deriving DecidableEq, Repr, Inhabited

def UpdStage.code : UpdStage → Nat
  | .idle => 0 | .download => 1 | .verified => 2 | .handover => 3 | .trial => 4 | .confirm => 5

/-- Where a handover stands (R356): boundaries since B, and what the new firmware has done. -/
structure Handover where
  count : Nat
  restarted : Bool
  ack : Bool
  deriving DecidableEq, Repr, Inhabited

/-- Control cores, firmware and update (R348 to R360). -/
structure Firmware where
  stage : UpdStage
  rom : Bool
  bank : Nat
  floorbad : Bool
  resumed : Bool
  done : Bool
  result : Nat
  chan : Nat
  ie : Bool
  /-- Code banks 0 and 1. -/
  bank0 : Memory
  bank1 : Memory
  /-- LENGTH given by BEGIN, and the 64-byte blocks loaded. -/
  length : Nat
  loaded : Store Bool
  /-- ACTIVATE waits for its boundary: frame Fa, or the next one. -/
  actAt : Option (Option Nat)
  handover : Option Handover
  /-- The trial image was started by the resident loader: there is no old bank (R359). -/
  loaderTrial : Bool
  /-- An ACTIVATE or CONFIRM that has been accepted and not yet answered. -/
  waiting : Option Words
  /-- Requests taken by firmware and not yet served, and replies that wait for OUTFULL to clear, by channel (R336, R338). -/
  reqs : Store (List Words)
  outs : Store (List Words)
  /-- Loader and boot outcome are pending since this time (R352). -/
  bootAt : Option Nat
  /-- The handover area of control SRAM. -/
  hoArea : Memory
  deriving DecidableEq, Repr, Inhabited

def Firmware.empty : Firmware :=
  { stage := .idle, rom := false, bank := 0, floorbad := false, resumed := false, done := false, result := 0, chan := 0, ie := false
    bank0 := [], bank1 := [], length := 0, loaded := []
    actAt := none, handover := none, loaderTrial := false, waiting := none, reqs := [], outs := [], bootAt := none, hoArea := [] }

end Sys2Proof.Machine
end

