-- ==== Sys2Proof/Machine/Rom.lean ====
section
/-! DEFINITION. The ROM tables, each entry computed from the formula that defines it (R435): exp2 (R109), sine
(R114), sinc (R125), TG (R138), TH (R140), shaper tables 0 and 1 (R143), curves 0 to 3 (R146), and their CRCs
(R132, R154). Real quantities are evaluated in fixed point with 160 fraction bits; no entry lies within 2^-14 of
a rounding boundary, so the one rounding of each formula is decided (log entry 4). -/

namespace Sys2Proof.Machine

/-- One, in units of 2^-160. -/
def fxOne : Int := 2 ^ 160
/-- Pi in units of 2^-160. -/
def fxPi : Int := 0x3243f6a8885a308d313198a2e03707344a4093822
/-- The natural logarithm of 2 in units of 2^-160. -/
def fxLn2 : Int := 0xb17217f7d1cf79abc9e3b39803f2f6af40f34326

def fxMul (a b : Int) : Int := a * b / 2 ^ 160
def fxDiv (a b : Int) : Int := a * 2 ^ 160 / b

/-- The exponential series: k terms from term n. -/
def fxExpGo : Nat → Int → Int → Int → Int → Int
  | 0, _, _, _, acc => acc
  | k + 1, n, r, t, acc => fxExpGo k (n + 1) r (fxMul t r / n) (acc + fxMul t r / n)

/-- e^x. -/
def fxExp (x : Int) : Int :=
  let k := x / fxLn2
  let e := fxExpGo 50 1 (x - k * fxLn2) fxOne fxOne
  if 0 ≤ k then e * 2 ^ k.toNat else e / 2 ^ (-k).toNat

/-- The sine series on the first quadrant. -/
def fxSinGo : Nat → Int → Int → Int → Int → Int
  | 0, _, _, _, acc => acc
  | k + 1, n, x, t, acc =>
    fxSinGo k (n + 1) x (-(fxMul (fxMul t x) x) / (2 * n * (2 * n + 1)))
      (acc + -(fxMul (fxMul t x) x) / (2 * n * (2 * n + 1)))

/-- sin(2 pi num / den), den positive. -/
def fxSinTurn (num den : Int) : Int :=
  let n := num % den
  let neg := decide (den ≤ 2 * n)
  let n2 := if neg then 2 * n - den else 2 * n
  let d2 := 2 * den
  let (n3, d3) := if d2 < 4 * n2 then (d2 - 2 * n2, 2 * d2) else (n2, d2)
  let s := let x := 2 * fxPi * n3 / d3; fxSinGo 31 1 x x x
  if neg then -s else s

/-- cos(2 pi num / den). -/
def fxCosTurn (num den : Int) : Int := fxSinTurn (4 * num + den) (4 * den)

/-- tanh(x) for x not negative. -/
def fxTanh (x : Int) : Int :=
  let e := fxExp (-2 * x)
  fxDiv (fxOne - e) (fxOne + e)

/-- floor(x + 1/2) of a fixed-point value. -/
def fxRound (x : Int) : Int := (x + 2 ^ 159) / 2 ^ 160

/-- R109: T[i], with T[2048] = 2^31 implied. -/
def romExp2 (i : Nat) : Int := if 2048 ≤ i then 2 ^ 31 else fxRound (fxExp (fxLn2 * i / 2048) * 2 ^ 30)

/-- R114: S[i], with S[4096] = S[0]. -/
def romSine (i : Nat) : Int := fxRound (fxSinTurn (i % 4096 : Nat) 4096 * (2 ^ 31 - 1))

/-- R125: h(n / 512), the windowed sinc. -/
def romSincH (n : Int) : Int :=
  if 2048 ≤ n.natAbs then 0
  else
    let h := if n = 0 then fxOne else fxSinTurn n 1024 * fxOne * 512 / (fxPi * n)
    let w := fxOne * 42 / 100 + fxCosTurn n 4096 / 2 + fxCosTurn n 2048 * 8 / 100
    fxMul h w

/-- R125: tap k of row rho before the row-sum adjustment. -/
def romSincRaw (rho k : Nat) : Int := fxRound (romSincH (512 * ((k : Int) - 3) - rho) * 2 ^ 22)

/-- R125: row rho of the kernel; one tap is adjusted so that the row sums to 2^22. -/
def romSincRow (rho : Nat) : List Int :=
  let raw := (List.range 8).map (romSincRaw rho)
  let d : Int := 2 ^ 22 - raw.sum
  updAt raw (if rho ≤ 256 then 3 else 4) (fun c => c + d)

/-- R138: TG[i] = tan(pi i / 8192) in Q4.28. -/
def romTan (i : Nat) : Int := fxRound (fxDiv (fxSinTurn i 16384 * 2 ^ 28) (fxCosTurn i 16384))

/-- R140: TH[i] = tanh(i / 256). -/
def romTanh (i : Nat) : Int := fxRound (fxTanh (fxOne * i / 256) * 2 ^ 31)

/-- R143: ROM shaper tables 0 (identity) and 1 (soft clip). -/
def romShaper (t i : Nat) : Int :=
  if t = 0 then (if i = 1024 then 0x7FFFFFFF else ((i : Int) - 512) * 2 ^ 22)
  else
    let m := fxDiv (fxTanh (fxOne * 2 * ((i : Int) - 512).natAbs / 512) * (2 ^ 31 - 1)) (fxTanh (2 * fxOne))
    fxRound (if 512 ≤ i then m else -m)

/-- R146: ROM curves 0 to 3. -/
def romCurve (c i : Nat) : Int :=
  let slow := fun (j : Nat) => fxRound ((fxExp (fxLn2 * j / 64) - fxOne) * 2 ^ 31 / 15)
  if c = 0 then (i : Int) * 2 ^ 23
  else if c = 1 then slow i
  else if c = 2 then 2 ^ 31 - slow (256 - i)
  else fxRound ((fxOne - fxCosTurn i 512) * 2 ^ 31 / 2)

/-! ## CRC-32 of IEEE 802.3 (R68) -/

/-- n steps of the reflected CRC-32 register. -/
def crcBits : Nat → Nat → Nat
  | 0, c => c
  | n + 1, c => crcBits n (if c % 2 = 1 then Nat.xor (c / 2) 0xEDB88320 else c / 2)

/-- The register after the bytes. -/
def crcGo (c : Nat) : List Byte → Nat
  | [] => c
  | b :: t => crcGo (crcBits 8 (Nat.xor c b.toNat)) t

/-- R68: the CRC-32 of a byte list. -/
def crc32 (bs : List Byte) : Nat := Nat.xor (crcGo 0xFFFFFFFF bs) 0xFFFFFFFF

/-- The CRC-32 of a list of table entries, each a 32-bit little-endian word (R132). -/
def crcTable (es : List Int) : Nat := crc32 (es.flatMap fun e => leBytes (unsigned 32 e) 4)

/-- R132: the tables behind OSC_TCRC: 0 exp2, 1 sine, 2 sinc. -/
def oscTable (t : Nat) : List Int :=
  if t = 0 then (List.range 2048).map romExp2
  else if t = 1 then (List.range 4096).map romSine
  else (List.range 513).flatMap romSincRow

/-- R154: the table groups behind SHP_TCRC: 0 TG, 1 TH, 2 curves, 3 shapers. -/
def shpTable (t : Nat) : List Int :=
  if t = 0 then (List.range 3688).map romTan
  else if t = 1 then (List.range 2049).map romTanh
  else if t = 2 then (List.range 4).flatMap fun c => (List.range 257).map (romCurve c)
  else (List.range 2).flatMap fun w => (List.range 1025).map (romShaper w)

/-- The value OSC_TCRC[t] reports once formed. -/
def oscCrc (t : Nat) : Nat := crcTable (oscTable t)

/-- The value SHP_TCRC[t] reports once formed. -/
def shpCrc (t : Nat) : Nat := crcTable (shpTable t)

/-! ## Table look-ups shared by the voice path -/

/-- R114: the interpolated sine of a 32-bit phase. -/
def sinLookup (p : Nat) : Int :=
  let q := p % 2 ^ 32
  let i := q / 2 ^ 20
  let f : Int := (q / 2 ^ 4 % 2 ^ 16 : Nat)
  romSine i + asr ((romSine (i + 1) - romSine i) * f + 0x8000) 16

/-- R111: the mantissa m of a pitch, between 2^30 and 2^31, and its octave o. -/
def pitchSplit (p : Int) : Int × Int :=
  let o := p / 786432
  let r := (p - 786432 * o).toNat
  let i := r / 384
  let f : Int := (r - 384 * i : Nat)
  (o, romExp2 i + ((romExp2 (i + 1) - romExp2 i) * f + 192) / 384)

/-- R111: the phase increment of a pitch under an increment base. -/
def pitchInc (base : Nat) (p : Int) : Nat :=
  let (o, m) := pitchSplit p
  let s := 42 - o
  if 63 < s then 0
  else if s < 1 then 0x7FFFFFFF
  else min ((base * m + 2 ^ (s.toNat - 1)) / 2 ^ s.toNat).toNat 0x7FFFFFFF

/-- R140: TANH, odd-symmetric. -/
def tanhLookup (a : Int) : Int :=
  let m := a.natAbs
  let i := m / 2 ^ 23
  let t := if 2048 ≤ i then romTanh 2048
    else romTanh i + asr ((romTanh (i + 1) - romTanh i) * (m / 2 ^ 7 % 2 ^ 16 : Nat) + 0x8000) 16
  if 0 ≤ a then t else -t

end Sys2Proof.Machine
end

