-- ==== Sys2Proof/Machine/CvUnit.lean ====
section
/-! DEFINITION. One control-voltage channel: spans, codes, the sine generator, the deglitcher and monitoring
(R384 to R398). Times are core cycles. -/

namespace Sys2Proof.Machine

/-- A channel's entry in the CVIO section (R384). -/
structure HCv where
  span : Nat
  mode : Bool
  bsrc : Bool
  bus : Nat
  code : Nat
  inc : Nat
  amp : Nat
  center : Nat
  tol : Nat
  cnt : Nat
  deriving DecidableEq, Repr, Inhabited

/-- A CV channel. -/
structure Cv where
  /-- Items that CV_SET can set (R388). -/
  span : Nat
  mode : Bool
  bsrc : Bool
  bus : Nat
  code : Nat
  inc : Nat
  amp : Nat
  center : Nat
  /-- Code most recently loaded. -/
  dac : Nat
  /-- Phase of the sine generator, and whether it loads. -/
  ph : Nat
  gen : Bool
  /-- The span changed in the window of the current frame (R391). -/
  spanNew : Bool
  /-- The clamp is closed for a span change until this time. -/
  spanUntil : Option Nat
  /-- A load has been made since the last entry into READY (R387). -/
  loaded : Bool
  fault : Bool
  /-- A cleared fault whose clamp opens at the next load (R395). -/
  faultClamp : Bool
  /-- Compared readings in a row that violate. -/
  run : Nat
  /-- Time of the last load that changed the code. -/
  changedAt : Option Nat
  /-- Deglitch hold: its end, and the code the output keeps meanwhile (R393). -/
  holdUntil : Option Nat
  held : Nat
  /-- The code of the last frame computed (R389), to be loaded when the next window closes. -/
  frameCode : Nat
  deriving DecidableEq, Repr, Inhabited

/-- What an output carries: high impedance, or a voltage in units of 0.25 V / 2^16. -/
inductive CvLevel where
  | highZ | volts (n : Nat)
  deriving DecidableEq, Repr

/-- R385: VLO and VSPAN of a span, in units of 0.25 V. -/
def cvLo (span : Nat) : Nat := if span = 2 then 1 else 0
def cvSpan (span : Nat) : Nat := if span = 0 ∨ span = 2 then 10 else 12

/-- R385: V = VLO + VSPAN × C / 65 536. -/
def cvVolts (span code : Nat) : Nat := cvLo span * 2 ^ 16 + cvSpan span * code

/-- R385, R386: the zero scale of a polarity: 0 V, or VMID, which is 1.50 V. -/
def zeroVolts (bipolar : Bool) : Nat := if bipolar then 6 * 2 ^ 16 else 0

/-- R79, R384: a channel as its CVIO entry sets it up. -/
def Cv.init (h : HCv) : Cv :=
  { span := h.span, mode := h.mode, bsrc := h.bsrc, bus := h.bus, code := h.code, inc := h.inc, amp := h.amp, center := h.center
    dac := 0, ph := 0, gen := false, spanNew := false, spanUntil := none, loaded := false, fault := false, faultClamp := false
    run := 0, changedAt := none, holdUntil := none, held := 0, frameCode := 0 }

/-- R390: the bus conversion. -/
def cvConvert (bipolar : Bool) (v : Int) : Nat :=
  (clampI 0 0xFFFF (if bipolar then 0x8000 + (v + 2 ^ 15) / 2 ^ 16 else (v + 2 ^ 14) / 2 ^ 15)).toNat

/-- R389: the code of the frame in frame-locked mode. -/
def cvFrameCode (bipolar : Bool) (bus : Store Int) (c : Cv) : Nat :=
  if c.bsrc then cvConvert bipolar (Store.get 0 bus c.bus) else c.code

/-- 400 ns, 20 us and 4 us in core cycles (R22, R393, R391, R395), rounded up. -/
def cvHoldCycles : Nat := 315
def cvSpanCycles : Nat := 15729
def cvQuietCycles : Nat := 3146

/-- R393, R395, R420: a code is loaded into the DAC at time t. `keep`: the clamp of a VMID fault stays closed. -/
def cvLoad (keep : Bool) (t code : Nat) (c : Cv) : Cv :=
  let holding : Bool := match c.holdUntil with | some u => decide (t < u) | none => false
  let glitch : Bool := bits c.dac 15 12 != bits code 15 12
  { c with
    dac := code, loaded := true, faultClamp := c.fault || (c.faultClamp && keep)
    changedAt := if c.dac = code then c.changedAt else some t
    holdUntil := if holding || glitch then some (t + cvHoldCycles) else none
    held := if holding then c.held else c.dac }

/-- R389, R391, R392: what the close of the next window does at time t with the channel's code of the frame. -/
def cvClose (keep : Bool) (t : Nat) (c : Cv) : Cv :=
  let c := if c.mode then { c with gen := true } else cvLoad keep t c.frameCode { c with gen := false }
  if c.spanNew then { c with spanNew := false, spanUntil := some (t + cvSpanCycles) } else c

/-- R392: the sine generator's update: the code it loads. -/
def cvSineCode (c : Cv) : Nat :=
  (clampI 0 0xFFFF ((c.center : Int) + ((c.amp : Int) * sinLookup c.ph + 2 ^ 30) / 2 ^ 31)).toNat

/-- R392: one update edge. -/
def cvUpdate (keep : Bool) (t : Nat) (c : Cv) : Cv := { cvLoad keep t (cvSineCode c) c with ph := (c.ph + c.inc) % 2 ^ 32 }

/-- R388: an item of a CV_SET takes effect. -/
def cvItem (index v : Nat) (c : Cv) : Cv :=
  if index = 0 then { c with code := v % 2 ^ 16 }
  else if index = 1 then (if bits v 1 0 = c.span then c else { c with span := bits v 1 0, spanNew := true })
  else if index = 2 then
    let c := { c with mode := bitAt v 31, bsrc := bitAt v 30, bus := bits v 8 0 }
    if bitAt v 31 then { c with ph := 0, gen := false } else c
  else if index = 3 then { c with inc := v }
  else { c with amp := bits v 31 16, center := bits v 15 0 }

/-- R385: VLO_m and SPAN_m of a span. -/
def monLo (span : Nat) : Nat := if span = 2 then 310 else 0
def monSpan (span : Nat) : Nat := if span = 0 ∨ span = 2 then 3103 else 3724

/-- R395: the expected reading. -/
def monExpect (span code : Nat) : Nat := monLo span + (code * monSpan span + 2 ^ 15) / 2 ^ 16

/-- R395: whether a reading violates. -/
def monViolates (tol span code reading : Nat) : Bool := decide (tol < ((reading : Int) - monExpect span code).natAbs)

/-- R395: whether a reading at time t is compared, the clamp being open. -/
def monCompared (t : Nat) (c : Cv) : Bool :=
  (match c.holdUntil with | some u => decide (u ≤ t) | none => true) &&
  (match c.changedAt with | some u => decide (u + cvQuietCycles ≤ t) | none => true)

/-- R395, R396: a compared reading. `holder`: this chip drives the output. -/
def monCompare (h : HCv) (holder : Bool) (reading : Nat) (c : Cv) : Cv :=
  if monViolates h.tol c.span c.dac reading then
    let c := { c with run := min h.cnt (c.run + 1) }
    if h.cnt ≤ c.run then { c with fault := true, faultClamp := c.faultClamp || holder, run := 0 } else c
  else { c with run := 0 }

/-- CV_CFG as read, for an enabled channel. -/
def Cv.cfg (c : Cv) : Nat :=
  place 1 1 31 + place (b2n c.mode) 1 30 + place (b2n c.bsrc) 1 29 + place c.span 2 27 + place c.bus 9 16 + place c.code 16 0

/-- CV_SINE as read. -/
def Cv.sineReg (c : Cv) : Nat := place c.amp 16 48 + place c.center 16 32 + place c.inc 32 0

end Sys2Proof.Machine
end

