-- ==== Sys2Proof/Config.lean ====
section
/-! DEFINITION. The values the spec leaves open. Each is a constant without a body: nothing in Lean can evaluate it,
so a claim that holds here holds whatever the value is. notes/assumptions names each. -/

namespace Sys2Proof.Config

/-- R22: the core cycle, counted from the tick, in which step 5 of a frame completes. R22 bounds it only; the
argument is the frame number. -/
opaque stepFiveCycle : Nat → Nat

/-- R256 to R258: the sample that the ASRC delivers on an input channel, by use, from the channel number and the samples of the
interface's last frame; and the one that an output interface sends, from those that the ASRC took from its buses. The
converter's arithmetic is not stated. -/
opaque asrcIn : Nat → Nat → List Int → Word
opaque asrcOut : Nat → Nat → List Int → Word

/-- R257: the measured rate ratio of an asynchronous domain, by use. How it is measured is not stated. -/
opaque asrcRatio : Nat → Word

/-- R265: the internal state of a PDM decimation chain after the data of one output sample. Its arithmetic is left
unspecified: arguments are the ratio R, the state before and the R data bits. -/
opaque pdmStep : Nat → Nat → List Bool → Nat

/-- R265: the chain's output, before saturation, for R, the group delay G, a state and the coefficients of the active bank,
those of taps i and T − 1 − i. -/
opaque pdmOut : Nat → Nat → Nat → List Word → Int

/-- R268: the ROM coefficients of a preset, words 0 to T/2 − 1. -/
opaque pdmRom : Nat → List Word

/-- R72: the four release public keys in ROM, 64 bytes each. -/
opaque toolKey : Nat → List Byte

/-- R349: the firmware release public keys in ROM, 64 bytes each. -/
opaque firmwareKey : Nat → List Byte

/-- R424 and chapter 19: what trimming makes of a temperature conversion, by use. -/
opaque temperature : Nat → Int

/-- R351: the signature that the Derku's device key makes over the first 64 bytes of a floor record. -/
opaque deviceSign : List Byte → List Byte

/-- R351: the public key of the Derku's device key, 64 bytes. -/
opaque deviceKey : List Byte

/-- R339: VERSION of the resident loader. -/
opaque loaderVersion : Word

/-- R340: the control-core tasks that firmware of a version allocates: CMASK, PRIO, TICK and HOST of each. -/
opaque firmwareTasks : Word → List (Nat × Nat × Bool × Bool)

/-- A value that an operation leaves open, by use: the counter is a field of State. -/
opaque freeWord : Nat → Word

/-- An order or a choice that the spec leaves open, by use. -/
opaque freeNat : Nat → Nat

end Sys2Proof.Config
end

