-- ==== Sys2Proof/Machine/Ports.lean ====
section
/-! DEFINITION. Audio interfaces: clock domains, frame numbering and FIFOs, serial ports, AES3, ASRC and PDM
(chapters 11 and 12). Times are core cycles. -/

namespace Sys2Proof.Machine

/-! ## Tick thresholds (R249, R251) -/

/-- R249: a tick earlier than half a nominal frame is a glitch. -/
def glitchTime (n : Nat) : Nat := n / 2
/-- R249: limits of a consistent interval. -/
def consLo (n : Nat) : Nat := n * 100 / 102
def consHi (n : Nat) : Nat := ceilDiv (n * 100) 98
/-- R249: whether an interval is consistent. -/
def consistent (n i : Nat) : Bool := decide (consLo n ≤ i) && decide (i ≤ consHi n)
/-- R251: watchdog expiry, ceil(1.2 N). -/
def expiryTime (n : Nat) : Nat := ceilDiv (n * 12) 10
/-- R277: cycle at which the guard of a lead begins. -/
def guardTime (n : Nat) : Nat := consLo n - 320

/-! ## What the hood fixes -/

/-- The CLOCKS section (R238, R239). -/
structure HClocks where
  rate : Rate
  master : Nat
  backup : Option Nat
  /-- Domain d is the master or synchronous to it. -/
  sync : List Bool
  /-- Nominal rate of each domain. -/
  domRate : List Rate
  /-- Source kind (0 ball, 1 port, 2 AES3 receiver) and index of each domain. -/
  kind : List Nat
  index : List Nat
  deriving DecidableEq, Repr, Inhabited

/-- One mapped slot of a port: line 0 or 1, slot, bus. -/
structure SlotMap where
  line : Nat
  slot : Nat
  bus : Nat
  deriving DecidableEq, Repr, Inhabited

/-- A serial audio port in the PORTS section (R240). -/
structure HPort where
  domain : Nat
  format : Nat
  slotw : Nat
  wlen : Nat
  fsdly : Nat
  bclkinv : Bool
  group : Option Nat
  lines : Nat
  ins : List SlotMap
  outs : List SlotMap
  deriving DecidableEq, Repr, Inhabited

/-- An AES3 receiver or transmitter: domain and the bus of each of its two channels. -/
structure HAes where
  domain : Nat
  busA : Option Nat
  busB : Option Nat
  /-- Transmitter: initial CRCGEN and channel-status words (R262). -/
  crcgen : Bool
  cs : Words
  deriving DecidableEq, Repr, Inhabited

/-- A PDM clock group (R263): domain, ratio, preset, DCK, lines, the bus of each assigned microphone, and both banks; an empty
bank is one that the PORTS section does not give (R268). -/
structure HPdm where
  domain : Nat
  ratio : Nat
  preset : Nat
  dck : Nat
  lines : Nat
  /-- Microphone number and bus. -/
  mics : List (Nat × Nat)
  bank0 : Words
  bank1 : Words
  deriving DecidableEq, Repr, Inhabited

/-- R264: microphone m lies on a line in use, which carries both microphones 2n and 2n+1. -/
def micOnLine (lines m : Nat) : Bool := bitAt lines (m / 2)

/-- R264: the microphones of a group: both of each of its lines. -/
def HPdm.carried (p : HPdm) : List Nat := (List.range 32).filter fun m => micOnLine p.lines m

/-- The PORTS section. -/
structure HPorts where
  saps : Store (Option HPort)
  rx : Store (Option HAes)
  tx : Store (Option HAes)
  pdm : Store (Option HPdm)
  /-- MODE of alignment groups 0-3 (R247). -/
  grpMode : List Nat
  /-- ASRC channels in use (R256). -/
  asrc : Nat
  deriving DecidableEq, Repr, Inhabited

/-! ## Numbering and FIFOs (R244 to R246) -/

/-- An interface that numbers its frames. -/
structure Iface where
  /-- Times of the last frame start and of the one before. -/
  s0 : Option Nat
  s1 : Option Nat
  /-- Number of the frame under way, and the number the next start takes. -/
  num : Option Nat
  next : Option Nat
  /-- A fixing at F, t_F that waits for its frame start, with the number the next start would have taken. -/
  fix : Option (Nat × Nat × Option Nat)
  /-- Numbering is to be fixed at the next tick (R243, R267). -/
  atTick : Bool
  inF : List (Nat × List Int)
  outF : List (Nat × List Int)
  /-- Last contributed sample of each input channel (R245). -/
  lastIn : List Int
  /-- Samples now shifted out, and whether they are repeated or zero fill (R246, R262). -/
  shifted : List Int
  fill : Bool
  under : Nat
  ovr : Nat
  discard : Nat
  refix : Nat
  last : Int
  stopped : Bool
  /-- Consecutive frames of correct length while stopped (R243). -/
  good : Nat
  /-- In an asynchronous domain: the samples last given to the ASRC (R256). -/
  asrc : List Int
  deriving DecidableEq, Repr, Inhabited

/-- An interface with nothing numbered. -/
def Iface.empty : Iface :=
  ⟨none, none, none, none, none, false, [], [], [], [], false, 0, 0, 0, 0, 0, false, 0, []⟩

/-- R244: the fixing window: −N ≤ 4(s − t) < 3N. -/
def inFixWindow (n s t : Nat) : Bool := decide (t ≤ s + n / 4) && decide (4 * s < 3 * n + 4 * t) && decide (4 * t ≤ 4 * s + n)

/-- R244: the check window: −2N ≤ 4(s − t) < 5N. -/
def inCheckWindow (n s t : Nat) : Bool := decide (4 * t ≤ 4 * s + 2 * n) && decide (4 * s < 5 * n + 4 * t)

/-- R244, R245: numbering moved: the next start takes number m, where it would have taken `old`. -/
def Iface.moved (i : Iface) (old : Option Nat) (m : Nat) : Iface :=
  match old with
  | none => { i with next := some m, fix := none }
  | some o =>
    let back := decide (m < o)
    let gone := if back then (i.inF.filter fun e => decide (m ≤ e.1)).length else 0
    { i with
      next := some m, fix := none, refix := satInc 255 i.refix, last := clampI (-128) 127 ((m : Int) - o)
      inF := if back then i.inF.filter fun e => decide (e.1 < m) else i.inF
      discard := satAdd 0xFFFF i.discard gone }

/-- R244: fix numbering at frame F whose tick was at t; `old`: the number that the next start would have taken. The frame under
way takes F when its start lies in the window; where a check has failed (and no restart, relock or reset) it keeps its number
and the new ones apply from the next start. -/
def Iface.fixAt (n f t : Nat) (old : Option Nat) (i : Iface) : Iface :=
  match i.s0 with
  | some s =>
    if inFixWindow n s t then
      let j := i.moved old (f + 1)
      { j with atTick := false, num := if i.atTick || i.num.isNone then some f else j.num }
    else { i with fix := some (f, t, old), next := none, atTick := false }
  | none => { i with fix := some (f, t, old), next := none, atTick := false }

/-- R244: the check at the tick of frame F. -/
def Iface.tick (n f t : Nat) (i : Iface) : Iface :=
  if i.stopped then i
  else if i.atTick then i.fixAt n f t i.next
  else
  match i.fix with
  | some (_, t0, old) =>
    -- the start that the earlier fixing waits for may still come in its window
    if 4 * t < 3 * n + 4 * t0 then i else i.fixAt n f t old
  | none =>
    match i.next with
    | none => i
    | some m =>
      -- the start of the frame numbered F has come already: its early bound
      if m = f + 1 then (match i.s0 with | some s => if inCheckWindow n s t then i else i.fixAt n f t i.next | none => i)
      else if m = f + 2 then (match i.s1 with | some s => if inCheckWindow n s t then i else i.fixAt n f t i.next | none => i)
      else if f + 2 < m then i.fixAt n f t i.next
      else i

/-- R244: a frame start at s; the last two ticks, each with frame and time. -/
def Iface.start (n s : Nat) (tick prev : Option (Nat × Nat)) (i : Iface) : Iface :=
  let i := { i with s1 := i.s0, s0 := some s }
  if i.atTick then { i with num := none }
  else match i.fix with
  | some (f, t, old) =>
    if inFixWindow n s t then
      let j := i.moved old f
      { j with num := some f, next := some (f + 1) }
    else { i with num := none }
  | none =>
    match i.next with
    | none => { i with num := none }
    | some m =>
      match tick with
      | some (f, t) =>
        -- the late bound of the frame numbered F
        let late := if m = f then !inCheckWindow n s t else match prev with | some p => p.1 != m || !inCheckWindow n s p.2 | none => true
        if m ≤ f && late then
          let k := if inFixWindow n s t then f else f + 1
          let j := i.moved (some m) k
          { j with num := some k, next := some (k + 1) }
        else { i with num := some m, next := some (m + 1) }
      | none => { i with num := some m, next := some (m + 1) }

/-- R245: store the samples of numbered frame k; a full FIFO discards the new frame. -/
def Iface.capture (k : Nat) (xs : List Int) (i : Iface) : Iface :=
  if 8 ≤ i.inF.length then { i with ovr := satInc 255 i.ovr } else { i with inF := i.inF ++ [(k, xs)] }

/-- R245: step 5 of engine frame F contributes the entry numbered F−2, or repeats; the result is the samples. -/
def Iface.contribute (f : Nat) (i : Iface) : Iface × List Int :=
  let k := f - 2
  let live := if 2 ≤ f then i.inF.filter fun e => decide (k ≤ e.1) else i.inF
  let gone := i.inF.length - live.length
  let i := { i with inF := live, discard := satAdd 0xFFFF i.discard gone }
  match (if 2 ≤ f then live.find? fun e => e.1 == k else none) with
  | some e => ({ i with inF := live.filter fun e => e.1 != k, lastIn := e.2 }, e.2)
  | none => ({ i with under := satInc 255 i.under }, i.lastIn)

/-- R246: the output of engine frame k enters the FIFO numbered k+2. -/
def Iface.load (k : Nat) (xs : List Int) (i : Iface) : Iface :=
  if 8 ≤ i.outF.length then { i with ovr := satInc 255 i.ovr } else { i with outF := i.outF ++ [(k + 2, xs)] }

/-- R246: at the start of its frame m the interface shifts entry m out, or repeats. -/
def Iface.shift (m : Nat) (i : Iface) : Iface :=
  let live := i.outF.filter fun e => decide (m ≤ e.1)
  let gone := i.outF.length - live.length
  let i := { i with discard := satAdd 0xFFFF i.discard gone }
  match live.find? fun e => e.1 == m with
  | some e => { i with outF := live.filter fun e => e.1 != m, shifted := e.2, fill := false }
  | none => { i with outF := live, under := satInc 255 i.under, fill := true }

/-- R254, R262: on entry into HOLD the FIFOs are emptied and the last contributed samples become zero; what is sent
from now on is repeated. -/
def Iface.hold (i : Iface) : Iface := { i with inF := [], outF := [], lastIn := i.lastIn.map fun _ => 0, fill := true }

/-- R37: FIFOs are emptied; numbering is fixed afresh in the next running period. The samples shifted now end with their
frame. -/
def Iface.leave (i : Iface) : Iface :=
  { i with inF := [], outF := [], num := none, next := none, fix := none, atTick := false
           lastIn := i.lastIn.map fun _ => 0 }

/-! ## Sample formats (R242, R259) -/

/-- R242: the Q1.31 sample of slot data whose first bit is bit 31: the first WLEN bits, the rest zero. -/
def slotIn (wlen : Nat) (w : Word) : Int := signed 32 (w.toNat / 2 ^ (32 - wlen) * 2 ^ (32 - wlen))

/-- R242: the slot data of an output sample: narrowed to WLEN bits, first bit in bit 31; and whether it clamped. -/
def slotOut (wlen : Nat) (x : Int) : Word × Bool :=
  if wlen = 32 then (BitVec.ofInt 32 x, false)
  else
    let t := rnd x (32 - wlen)
    (BitVec.ofNat 32 (unsigned wlen (satN wlen t) * 2 ^ (32 - wlen)), clipped wlen t)

/-- R240: slots per line of a format. -/
def formatSlots (f : Nat) : Nat := if f ≤ 1 then 2 else if f = 2 then 8 else 16
/-- Bits of a SLOTW or WLEN code. -/
def widthOf (c : Nat) : Nat := if c = 0 then 16 else if c = 1 then 24 else 32
/-- R241: BCLK cycles of a port's frame. -/
def frameLength (p : HPort) : Nat := formatSlots p.format * widthOf p.slotw

/-! ## Bits of a frame (R240, R242) -/

/-- The pins of a port in a BCLK cycle: FSYNC, DIN0 and DIN1 at the rising edge in bits 0 to 2, at the falling edge in bits 3
to 5. -/
abbrev PinCycle := BitVec 6

/-- The cycles of a frame from the pins at its rising and at its falling edges. -/
def pinCycles (rise fall : List (BitVec 3)) : List PinCycle := rise.zipWith (fun r f => f ++ r) fall

/-- R240: an input as the port samples it: on the rising edge, or with BCLKINV on the falling edge. -/
def sampledPin (h : HPort) (i : Nat) (c : PinCycle) : Bool := c.getLsbD (if h.bclkinv then i + 3 else i)

/-- R240: FSYNC sampled low after high in I²S, high after low in the other formats, begins a frame. -/
def frameStarts (h : HPort) (before now : PinCycle) : Bool :=
  if h.format = 0 then sampledPin h 0 before && !sampledPin h 0 now else !sampledPin h 0 before && sampledPin h 0 now

/-- R240: delay of slot 0 in BCLK cycles. -/
def slotDelay (h : HPort) : Nat := if h.format = 0 then 1 else if h.format = 1 then 0 else h.fsdly

/-- The cycles from one frame start (cycle 0) to the next, which is the last of them, with no other start between: the frame's
length. -/
def frameCycles (h : HPort) (cyc : List PinCycle) : Option Nat :=
  let n := cyc.length - 1
  let starts := (List.range n).filter fun k => frameStarts h (cyc.getD k 0) (cyc.getD (k + 1) 0)
  if starts = [n - 1] then some n else none

/-- Bits, first in bit 31. -/
def msbFirst (bs : List Bool) : Word := BitVec.ofNat 32 ((List.range 32).foldl (fun a i => 2 * a + b2n (bs.getD i false)) 0)

/-- R240, R242: the bits of a slot of a data line, most significant first, in bits 31 downward. -/
def slotWord (h : HPort) (cyc : List PinCycle) (line slot : Nat) : Word :=
  let w := widthOf h.slotw
  let first := slot * w + slotDelay h
  msbFirst (((cyc.drop first).take w).map (sampledPin h (line + 1)))

/-- R242: the slot words of both output lines for the samples of the mapped outputs: an unassigned slot and an unused line
carry zero. -/
def sentWords (h : HPort) (xs : List Int) : List Words :=
  (List.range 2).map fun l =>
    (List.range (formatSlots h.format)).map fun k =>
      match (h.outs.zip xs).find? fun m => m.1.line == l && m.1.slot == k with
      | some m => if bitAt h.lines (l + 2) then (slotOut (widthOf h.wlen) m.2).1 else 0
      | none => 0

/-- R240: what an output line carries in BCLK cycle c of a frame: slot s begins in cycle s × SLOTW + delay, and with a delay the
first cycle carries the last bit of the frame before. -/
def sentBit (h : HPort) (before now : List Words) (line c : Nat) : Bool :=
  let w := widthOf h.slotw
  let at_ := fun (ws : List Words) (k : Nat) => ((ws.getD line []).getD (k / w) 0).getMsbD (k % w)
  if c < slotDelay h then at_ before (frameLength h + c - slotDelay h) else at_ now (c - slotDelay h)

/-! ## Clock domains (R238, R249 to R257) -/

/-- One audio domain. -/
structure Domain where
  last : Option Nat
  period : Nat
  /-- Consecutive consistent intervals. -/
  run : Nat
  /-- Consecutive consistent intervals since entry into HOLD (R255). -/
  relock : Nat
  /-- ASRC lock and ratio (R257). -/
  lock : Bool
  ratio : Word
  deriving DecidableEq, Repr, Inhabited

/-- A domain whose tick was never seen. -/
def Domain.empty : Domain := ⟨none, 0, 0, 0, false, 0⟩

/-- R238, R249: a tick of a domain of nominal period n at time t: its interval is measured. -/
def Domain.tick (n t : Nat) (d : Domain) : Domain :=
  match d.last with
  | none => { d with last := some t }
  | some l =>
    let i := t - l
    let c := consistent n i
    { d with last := some t, period := min i 0xFFFF, run := if c then d.run + 1 else 0, relock := if c then min 256 (d.relock + 1) else 0 }

/-- The clock state. -/
structure Clocks where
  /-- Domain whose ticks start frames. -/
  src : Nat
  onBackup : Bool
  /-- A switch has occurred in the running period (R251). -/
  switched : Bool
  rateF : Bool
  lossF : Bool
  glitch : Nat
  held : Nat
  loss : Nat
  rateN : Nat
  /-- Time of the last accepted tick, and consecutive inconsistent accepted intervals (R250). -/
  acc : Option Nat
  bad : Nat
  /-- Time of a held tick (R23). -/
  heldAt : Option Nat
  /-- Time of entry into HOLD, and whether the outputs have been muted (R254). -/
  holdAt : Nat
  muted : Bool
  /-- Frame and time of the last tick and of the one before it, for numbering (R244). -/
  tick : Option (Nat × Nat)
  prev : Option (Nat × Nat)
  /-- Time of the tick that ended HOLD (R255). -/
  relockAt : Option Nat
  dom : List Domain
  deriving DecidableEq, Repr, Inhabited

/-- Clocks with nothing seen. -/
def Clocks.empty : Clocks :=
  ⟨0, false, false, false, false, 0, 0, 0, 0, none, 0, none, 0, false, none, none, none, List.replicate 4 Domain.empty⟩

/-! ## AES3 receivers (R259 to R261) -/

/-- An AES3 receiver. -/
structure AesRx where
  iface : Iface
  lock : Bool
  good : Nat
  bad : Nat
  pro : Bool
  nonaud : Bool
  va : Bool
  vb : Bool
  crcerr : Bool
  quiet : Nat
  parerr : Nat
  biphase : Nat
  unlock : Nat
  /-- Previous good sample of each channel. -/
  prevA : Int
  prevB : Int
  /-- Bit 1 of channel status, most recent, of each channel. -/
  naA : Bool
  naB : Bool
  /-- Bits of the block under way since the Z preamble: status A, B, user A, B; absent before a Z preamble. -/
  blk : Option (List Bool × List Bool × List Bool × List Bool)
  /-- A complete block waits to be checked (R260). -/
  done : Bool
  csA : List Byte
  csB : List Byte
  ubA : List Byte
  ubB : List Byte
  /-- Latched copies (R260), 12 words each. -/
  csL : Words
  ubL : Words
  /-- Samples of the last frame (R257: an unlocked receiver carries zero). -/
  cur : List Int
  deriving DecidableEq, Repr, Inhabited

/-- A receiver that has seen nothing. -/
def AesRx.empty : AesRx :=
  { iface := Iface.empty, lock := false, good := 0, bad := 0, pro := false, nonaud := false, va := false, vb := false
    crcerr := false, quiet := 0, parerr := 0, biphase := 0, unlock := 0, prevA := 0, prevB := 0, naA := false, naB := false
    blk := none, done := false, csA := [], csB := [], ubA := [], ubB := []
    csL := List.replicate 12 0, ubL := List.replicate 12 0, cur := [0, 0] }

/-- R259: slots 4-31 of a subframe: audio word in bits 23-0, then V, U, C and P in bits 24 to 27. -/
abbrev Subframe := BitVec 28

def subAudio (s : Subframe) : Int := signed 24 s.toNat * 2 ^ 8
def subV (s : Subframe) : Bool := s.getLsbD 24
def subU (s : Subframe) : Bool := s.getLsbD 25
def subC (s : Subframe) : Bool := s.getLsbD 26

/-- R259: even parity over slots 4-31. -/
def subEven (s : Subframe) : Bool := ((List.range 28).filter fun i => s.getLsbD i).length % 2 == 0

/-- Bytes of a list of bits, first bit lowest (R260). -/
def packBits : Nat → List Bool → List Byte
  | 0, _ => []
  | n + 1, bs => BitVec.ofNat 8 ((List.range 8).foldl (fun a i => a + b2n (bs.getD i false) * 2 ^ i) 0) :: packBits n (bs.drop 8)

/-- R260: the CRCC of AES3 over bytes, in the reflected form in which the published standard sends it. -/
def aesCrc (bs : List Byte) : Byte :=
  BitVec.ofNat 8 (bs.foldl (fun c b =>
    (List.range 8).foldl (fun c _ => if c % 2 = 1 then Nat.xor (c / 2) 0xB8 else c / 2) (Nat.xor c b.toNat)) 0xFF)

/-- R259: unlocking: no ticks, nothing captured, last samples zero. What the FIFO still holds is contributed. -/
def aesUnlock (r : AesRx) : AesRx :=
  { r with lock := false, good := 0, unlock := satInc 255 r.unlock, blk := none
           iface := { r.iface with lastIn := [0, 0] }, cur := [0, 0] }

/-- R259: lock after 8 valid frames, unlock after 2 bad ones, where due. -/
def aesDue (r : AesRx) : AesRx :=
  if !r.lock && decide (8 ≤ r.good) then { r with lock := true, bad := 0 }
  else if r.lock && decide (2 ≤ r.bad) then aesUnlock r else r

/-- R260: a complete block is checked and stored. -/
def aesBlock (r : AesRx) : AesRx :=
  match r.done, r.blk with
  | true, some (ca, cb, ua, ub) =>
    let a := packBits 24 (ca.take 192)
    let pro := (a.getD 0 0).getLsbD 0
    { r with
      csA := a, csB := packBits 24 (cb.take 192), ubA := packBits 24 (ua.take 192), ubB := packBits 24 (ub.take 192)
      pro := pro
      crcerr := r.crcerr || (pro && a.getD 23 0 != aesCrc (a.take 23))
      blk := some (ca.drop 192, cb.drop 192, ua.drop 192, ub.drop 192), done := false }
  | _, _ => { r with done := false }

/-- R261: whether the mute may be released. -/
def aesQuiet (r : AesRx) : Bool := r.nonaud && decide (4096 ≤ r.quiet) && !r.naA && !r.naB

/-- R259 to R261: one received frame. `z`: it begins with a Z preamble; `viol`: a biphase-mark violation;
`pre`: an expected preamble is missing. The samples captured are in `cur`. -/
def aesFrame (sa sb : Subframe) (z viol pre : Bool) (r : AesRx) : AesRx :=
  let r := aesDue r
  let r := aesBlock r
  let r := if aesQuiet r then { r with nonaud := false, quiet := 0 } else r
  if viol || pre then
    let r := { r with biphase := if viol then satInc 255 r.biphase else r.biphase, bad := r.bad + 1, good := 0 }
    { r with cur := if r.lock && !r.nonaud then [r.prevA, r.prevB] else [0, 0] }
  else
    let r := { r with bad := 0, good := r.good + 1 }
    if !r.lock then { r with cur := [0, 0] }
    else
      let okA := subEven sa
      let okB := subEven sb
      let xa := if okA then subAudio sa else r.prevA
      let xb := if okB then subAudio sb else r.prevB
      let blk := if z then some ([], [], [], []) else r.blk
      let blk := blk.map fun b => (b.1 ++ [subC sa], b.2.1 ++ [subC sb], b.2.2.1 ++ [subU sa], b.2.2.2 ++ [subU sb])
      let len : Nat := match blk with | some b => b.1.length | none => 0
      -- bit 1 of channel status is the second frame of a block
      let naA := if len = 2 then subC sa else r.naA
      let naB := if len = 2 then subC sb else r.naB
      let pair := unsigned 32 xa / 2 ^ 16 == 0xF872 && unsigned 32 xb / 2 ^ 16 == 0x4E1F
      let mute := r.nonaud || pair || naA || naB
      { r with
        parerr := satAdd 255 r.parerr (b2n (!okA) + b2n (!okB))
        prevA := xa, prevB := xb
        va := r.va || subV sa, vb := r.vb || subV sb
        blk := blk, done := decide (192 ≤ len)
        naA := naA, naB := naB
        nonaud := mute
        quiet := if !mute then 0 else if pair || naA || naB then 0 else min 4096 (r.quiet + 1)
        cur := if mute then [0, 0] else [xa, xb] }

/-! ## AES3 transmitters (R262) -/

/-- An AES3 transmitter. -/
structure AesTx where
  iface : Iface
  crcgen : Bool
  pll : Bool
  /-- AES_TXCS words and the copy being sent. -/
  cs : Words
  copy : Words
  /-- Frames since lock, for a block start in an asynchronous domain. -/
  count : Nat
  /-- A block start is due. -/
  due : Bool
  /-- Position of the frame under way in its block. -/
  pos : Nat
  deriving DecidableEq, Repr, Inhabited

def AesTx.empty : AesTx := ⟨Iface.empty, false, false, List.replicate 6 0, List.replicate 6 0, 0, false, 0⟩

/-- R262: the subframe of channel c in the frame under way: the sample narrowed to 24 bits, validity, user bit 0, the bit of the
channel-status copy, and even parity. -/
def AesTx.subframe (x : AesTx) (c : Nat) : Subframe :=
  let audio := unsigned 24 (satN 24 (rnd (x.iface.shifted.getD c 0) 8))
  let status := (x.copy.getD (x.pos / 32) 0).getLsbD (x.pos % 32)
  let body : Subframe := BitVec.ofNat 28 (audio + b2n x.iface.fill * 2 ^ 24 + b2n status * 2 ^ 26)
  if subEven body then body else body ||| BitVec.ofNat 28 (2 ^ 27)

/-- Words of a byte list, little-endian. -/
def bytesWords : Nat → List Byte → Words
  | 0, _ => []
  | n + 1, bs => BitVec.ofNat 32 (leNat (bs.take 4)) :: bytesWords n (bs.drop 4)

/-- R262: the copy at a block start, with byte 23 generated when CRCGEN = 1. -/
def aesTxBlock (x : AesTx) : AesTx :=
  let bs := wordBytes x.cs
  let bs := if x.crcgen then setAt bs 23 (aesCrc (bs.take 23)) else bs
  { x with copy := bytesWords 6 bs, due := false }

/-! ## PDM groups (R263 to R272) -/

/-- A microphone's decimation chain: its state, whose arithmetic is unspecified, and the pattern that its data repeat every R/4
edges, with the number of whole output samples in a row that do (R265). -/
structure PdmMic where
  st : Nat
  pattern : List Bool
  run : Nat
  deriving DecidableEq, Repr, Inhabited

/-- A chain that has been cleared. -/
def PdmMic.empty : PdmMic := ⟨0, [], 0⟩

/-- A PDM clock group. -/
structure Pdm where
  iface : Iface
  valid : Bool
  stopped : Bool
  actBank : Nat
  bankReq : Nat
  swPend : Bool
  osat : Bool
  settle : Nat
  /-- A synchronising reset is requested (R270). -/
  srst : Bool
  stops : Nat
  resets : Nat
  bank0 : Store Word
  bank1 : Store Word
  /-- Chains of the group's microphones (R265), by microphone. -/
  chain : Store PdmMic
  /-- DC estimates, Q1.39 (R269). -/
  dc : Store Int
  /-- PDM_DCFRZ bits in force, by microphone. -/
  frz : Nat
  /-- The samples of the assigned microphones in the frame under way. -/
  cur : List Int
  deriving DecidableEq, Repr, Inhabited

def Pdm.empty : Pdm :=
  { iface := Iface.empty, valid := false, stopped := false, actBank := 0, bankReq := 0, swPend := false, osat := false
    settle := 0, srst := false, stops := 0, resets := 0, bank0 := [], bank1 := [], chain := [], dc := [], frz := 0, cur := [] }

/-- R266: taps T and settle length S of a preset. -/
def presetTaps (p : Nat) : Nat := if p = 0 then 24 else if p = 1 then 48 else 96
def presetSettle (p : Nat) : Nat := if p = 0 then 16 else if p = 1 then 32 else 64
/-- R266: group delay G. -/
def presetDelay (p : Nat) : Nat := if p = 0 then 8 else if p = 1 then 16 else 32

/-- R263: decimation ratio of a RATIO code. -/
def pdmRatio (c : Nat) : Nat := 32 * 2 ^ c

/-- R268: a bank after blocking: as PORTS gives it, or the ROM coefficients of the preset. -/
def pdmBank (h : HPdm) (ws : Words) : Store Word :=
  Store.setRange 0 [] 0 (if ws.isEmpty then (Config.pdmRom h.preset).take (presetTaps h.preset / 2) else ws)

/-- R269: the DC blocker for one sample: output, new estimate, and whether the output clamped. -/
def dcBlock (dck : Nat) (frozen : Bool) (x s : Int) : Int × Int × Bool :=
  if dck = 0 then (x, s, false)
  else
    let y := x - asr (s + 2 ^ 7) 8
    (sat32 y, if frozen then s else s + asr (x * 2 ^ 8 - s + 2 ^ (dck - 1)) dck, clipped 32 y)

/-- R270: a synchronising reset. -/
def pdmReset (h : HPdm) (g : Pdm) : Pdm :=
  { g with
    srst := false, valid := false, settle := 0, chain := [], resets := satInc 255 g.resets
    dc := h.carried.foldl (fun d m => if bitAt g.frz m then d else Store.set 0 d m 0) g.dc
    iface := { g.iface with num := none, atTick := true } }

/-- R268: a pending swap applies at an output-sample boundary. -/
def pdmSwap (g : Pdm) : Pdm := if g.swPend then { g with actBank := g.bankReq, swPend := false } else g

/-- R264: the bits of microphone m = 2n + e, from the levels of the data lines at the rising and the falling edges. -/
def micBits (rise fall : List (BitVec 16)) (m : Nat) : List Bool :=
  (if m % 2 = 0 then rise else fall).map fun x => x.getLsbD (m / 2)

/-- R265: the data of one output sample repeat a pattern of R/4 bits. -/
def repeats (r : Nat) (p bs : List Bool) : Bool := bs == (List.replicate 4 p).flatten && decide (p.length = r / 4)

/-- R265: a chain after the R bits of an output sample. -/
def micStep (r : Nat) (bs : List Bool) (c : PdmMic) : PdmMic :=
  let p := bs.take (r / 4)
  { st := Config.pdmStep r c.st bs, pattern := p, run := if repeats r p bs then (if p = c.pattern then c.run + 1 else 1) else 0 }

/-- R265: the chain's output before the DC blocker, unsaturated. Data that repeat every R/4 edges are a steady pulse density ρ,
which the CIC filter makes constant; once nothing else is in the chain (R271: after S more samples), with the ROM
coefficients, the output is exactly 2ρ − 1 of full scale. Every other value is free. -/
def micOut (h : HPdm) (coefs : List Word) (c : PdmMic) : Int :=
  let q := pdmRatio h.ratio / 4
  if presetSettle h.preset < c.run ∧ coefs = (Config.pdmRom h.preset).take (presetTaps h.preset / 2) then
    (2 * ((c.pattern.filter id).length : Int) - q) * 2 ^ 31 / q
  else Config.pdmOut (pdmRatio h.ratio) (presetDelay h.preset) c.st coefs

/-- R265, R269, R271: one output sample of every microphone that the group's lines carry, from their levels at the R rising and
the R falling edges; the samples of the assigned ones, in the order of the map. -/
def pdmSample (h : HPdm) (g : Pdm) (rise fall : List (BitVec 16)) : Pdm × List Int :=
  let zero := decide (g.settle < presetSettle h.preset)
  let coefs := (List.range (presetTaps h.preset / 2)).map fun i => Store.get 0 (if g.actBank = 0 then g.bank0 else g.bank1) i
  let one := fun (a : Pdm × Store Int) (m : Nat) =>
    let g := a.1
    let c := micStep (pdmRatio h.ratio) (micBits rise fall m) (Store.get PdmMic.empty g.chain m)
    let raw := micOut h coefs c
    let (y, s, clip) := dcBlock h.dck (bitAt g.frz m) (sat32 raw) (Store.get 0 g.dc m)
    ({ g with chain := Store.set PdmMic.empty g.chain m c, dc := Store.set 0 g.dc m s, osat := g.osat || clipped 32 raw || clip },
      Store.set 0 a.2 m (if zero then 0 else y))
  let r := h.carried.foldl one (g, [])
  (r.1, h.mics.map fun mb => Store.get 0 r.2 mb.1)

end Sys2Proof.Machine
end

