-- ==== Sys2Proof/Machine/VoiceTypes.lean ====
section
/-! DEFINITION. The plain data of the voice path: templates and groups of the hood, and a voice's state. -/

namespace Sys2Proof.Machine

/-! ## What the hood fixes -/

/-- A zone of a template's zone map: for each oscillator, its sample record of eight words (R122), or no words
where the oscillator is no sample oscillator. -/
abbrev Zone := List Words

/-- A voice template: the records of the VTEMPL section, as their tables lay them out. -/
structure Template where
  /-- Oscillator records, 4 of 12 words (R106). -/
  osc : List Words
  /-- Chain record, 6 words (R133). -/
  chain : Words
  /-- Filter records, 2 of 4 words (R137). -/
  filt : List Words
  /-- Shaper record, 2 words (R143). -/
  shaper : Words
  /-- Envelope records, 4 of 8 words (R145). -/
  env : List Words
  /-- LFO records, 3 of 4 words (R148). -/
  lfo : List Words
  /-- Route records, 24 of 2 words (R155). -/
  routes : List Words
  /-- Placement record, 16 words (R164). -/
  place : Words
  /-- Send record, 7 words (R164). -/
  send : Words
  /-- Zone map (R95). -/
  zones : List Zone
  deriving DecidableEq, Repr, Inhabited

/-- The items of one group LFO that GROUP_SET can set (R152). -/
structure GLfoItem where
  rate : Int
  shape : Nat
  sync : Bool
  uni : Bool
  div : Nat
  /-- PHASE in 2^-30 cycle. -/
  phase : Nat
  deriving DecidableEq, Repr, Inhabited

/-- A group's entry in the GROUPS section: template, seed, bounds and the initial value of every setting. -/
structure HGroup where
  template : Nat
  gseed : Nat
  limit : Nat
  limitMax : Nat
  priority : Nat
  mask : Nat
  maskMax : Nat
  policy : Nat
  fade : Nat
  keys : Nat
  bi : Nat
  gctl : List Int
  lfo : List GLfoItem
  deriving DecidableEq, Repr, Inhabited

/-- The head of a PLACE section, bytes 0-2059, as copied into the clusters (R165). -/
structure PlaceSet where
  setbase : Nat
  /-- DRAM byte address of the section's copy (R437). -/
  base : Nat
  da : List Int
  aa : List Int
  deriving DecidableEq, Repr, Inhabited

/-! ## Oscillators and their line buffers -/

/-- What a line buffer holds (R126, R130, R131). -/
inductive LineStat where
  /-- No line. -/
  | none
  /-- Fetch issued; arrives by its deadline unless a STREAM_LINE_LATE comes first (R127). -/
  | inflight
  /-- Held. -/
  | held
  /-- Missed its deadline; reads as zero until it arrives (R130). -/
  | late
  /-- Uncorrectable ECC error; reads as zero (R131). -/
  | ecc
  deriving DecidableEq, Repr, Inhabited

/-- A 64-byte line buffer: the line's number (byte address / 64), its state and its bytes. -/
structure Line where
  line : Nat
  stat : LineStat
  data : List Byte
  deriving DecidableEq, Repr, Inhabited

/-- One oscillator of a voice. -/
structure OscSt where
  /-- phase(F) of the next frame to compute (R112). -/
  phase : Nat
  /-- phase of the frame before, for sample-and-hold (R117). -/
  prevPhase : Nat
  /-- Read position of a sample oscillator, frame in [63:32] (R124). -/
  pos : Nat
  /-- A one-shot has passed its end (R124). -/
  past : Bool
  /-- Mip level and pair of the block (R119). -/
  mip : Nat
  pair : Nat
  /-- Increment of R111 before the limit of R120, and WTPOS, of the last frame. -/
  inc : Nat
  wtpos : Nat
  /-- The operator's outputs of the two frames before (R116). -/
  y1 : Int
  y2 : Int
  /-- Held sample-and-hold value (R117). -/
  hold : Int
  /-- Left and right output of the last frame. -/
  outL : Int
  outR : Int
  /-- Read planes, one or two, of two line buffers each (R126). -/
  planes : List (List Line)
  deriving DecidableEq, Repr, Inhabited

/-! ## Filters, envelopes, LFOs -/

/-- A filter's state (R139, R141, R142). -/
structure FiltSt where
  ic1 : Int
  ic2 : Int
  s : List Int
  up : Int
  buf : Store Int
  wp : Nat
  lp : Int
  out : Int
  deriving DecidableEq, Repr, Inhabited

/-- The segments of an envelope; `done` after its last release segment. -/
inductive Seg where
  | delay | attack | hold | decay | sustain | release | done
  deriving DecidableEq, Repr, Inhabited

/-- An envelope (R146). -/
structure EnvSt where
  seg : Seg
  p : Nat
  e0 : Int
  e : Int
  /-- The segment to enter in the next frame, when the current one is complete. -/
  next : Option Seg
  /-- The last release segment completed in the last frame computed. -/
  complete : Bool
  deriving DecidableEq, Repr, Inhabited

/-- An LFO's phase, the phase before it, its held value and its output (R149). -/
structure LfoSt where
  phase : Nat
  prev : Nat
  hold : Int
  out : Int
  deriving DecidableEq, Repr, Inhabited

/-! ## Placement -/

/-- A send entry (R168). -/
structure SendEntry where
  bus : Nat
  cellGain : Nat
  start : Int
  target : Int
  n : Nat
  ramp : Nat
  gain : Int
  deriving DecidableEq, Repr, Inhabited

/-- A gain-field cell: its coordinates and eight pairs (R165). -/
structure Cell where
  a : Nat
  e : Nat
  pairs : Words
  deriving DecidableEq, Repr, Inhabited

/-- The cell fetch of a voice (R169). -/
structure CellFetch where
  cell : Cell
  late : Bool
  ecc : Bool
  deriving DecidableEq, Repr, Inhabited

/-! ## A voice and its slot -/

/-- A voice, or a pending note before its first frame. -/
structure Voice where
  group : Nat
  tag : Nat
  use : Nat
  /-- The tag maps to this voice (R89). -/
  mapped : Bool
  /-- A later NOTE_START took the tag (R93). -/
  detached : Bool
  pitch : Int
  vel : Nat
  rvel : Nat
  zone : Nat
  prCap : Nat
  /-- Cost in stream units (R100). -/
  cost : Nat
  /-- First frame. -/
  first : Nat
  /-- Voice seed and noise register (R115, R117). -/
  seed : Nat
  noise : Nat
  /-- Released or detached; and the release is to be entered in the next voice-sample. -/
  released : Bool
  relNow : Bool
  /-- Values that VOICE_SET and PLACE_SET put in place of defaults, by destination code (R158, R172). -/
  defs : Store (Option Int)
  /-- Route amounts replaced by VOICE_SET (R161). -/
  amounts : Store (Option Int)
  /-- RAMP code replaced by PLACE_SET (R172). -/
  ramp : Option Nat
  ctl : List Int
  osc : List OscSt
  filt : List FiltSt
  env : List EnvSt
  lfo : List LfoSt
  /-- Amplifier gain and output of the last frame (R144). -/
  ga : Int
  amp : Int
  /-- Air-absorption state (R167). -/
  air : Int
  entries : List SendEntry
  cell : Option Cell
  fetch : Option CellFetch
  deriving DecidableEq, Repr, Inhabited

/-- A running fade: first fading frame, N frames, and whether it is a steal (else a soft kill). -/
structure Fade where
  from_ : Nat
  n : Nat
  steal : Bool
  deriving DecidableEq, Repr, Inhabited

/-- A voice slot (R84). -/
structure Slot where
  gen : Nat
  cur : Option Voice
  fade : Option Fade
  pend : Option Voice
  /-- Killed at once in the current frame (R98). -/
  killed : Bool
  deriving DecidableEq, Repr, Inhabited

/-- A FREE slot of generation 0 (R79). -/
def Slot.free : Slot := ⟨0, none, none, none, false⟩

/-- The four states of R84. -/
inductive SlotState where
  | free | pending | sounding | fading
  deriving DecidableEq, Repr, Inhabited

/-- R84: a slot in steal fade with a pending note is PENDING. -/
def Slot.state (s : Slot) : SlotState :=
  match s.pend, s.cur, s.fade with
  | some _, _, _ => .pending
  | none, none, _ => .free
  | none, some _, some _ => .fading
  | none, some _, none => .sounding

/-! ## A group's run-time state -/

/-- One group LFO: settings and phase (R150). -/
structure GLfo where
  item : GLfoItem
  st : LfoSt
  /-- A new sample-and-hold value is due (R152). -/
  draw : Bool
  deriving DecidableEq, Repr, Inhabited

/-- A voice group's settings, controllers, LFOs, tempo and counters. -/
structure Group where
  limit : Nat
  priority : Nat
  mask : Nat
  policy : Nat
  fade : Nat
  keys : Nat
  gctl : List Int
  lfo : List GLfo
  bi : Nat
  bp : Nat
  gs : Nat
  steals : Nat
  novoice : Nat
  bandwidth : Nat
  stale : Nat
  deriving DecidableEq, Repr, Inhabited

/-- A cluster's sticky flags and counters (VC_PEAK, VC_STRM, VC_SHSAT, PLC_STAT), and whether it is stopped. -/
structure Cluster where
  peak : Nat
  late : Nat
  eccue : Nat
  osat : Bool
  msat : Bool
  wsat : Bool
  fsat : Bool
  cellLate : Nat
  cellEcc : Nat
  evict : Nat
  stopped : Bool
  deriving DecidableEq, Repr, Inhabited

/-- The four saturation flags one voice-sample can set. -/
structure SatFlags where
  osat : Bool
  fsat : Bool
  wsat : Bool
  msat : Bool
  deriving DecidableEq, Repr, Inhabited

end Sys2Proof.Machine
end

