-- ==== Sys2Proof/Machine/HoodTypes.lean ====
section
/-! DEFINITION. A structure image (hood) as data: its header and what its sections say. The byte encoding of most
section bodies is not defined (R436); what binds is the meaning of every field, which is what these types hold. -/

namespace Sys2Proof.Machine

/-- The header fields that outlive blocking (R67). -/
structure HHeader where
  ver : Nat
  level : Nat
  parts : Nat
  ownsig : Bool
  twin : Bool
  det : Bool
  fwMin : Nat
  /-- In MB. -/
  dramMin : Nat
  deriving DecidableEq, Repr, Inhabited

/-- The UNITS section: one mask for each kind of unit. -/
structure HUnits where
  clusters : Nat
  engines : Nat
  saps : Nat
  rx : Nat
  tx : Nat
  pdm : Nat
  twin : Bool
  deriving DecidableEq, Repr, Inhabited

/-- A DRAM region (R437). -/
structure HRegion where
  base : Nat
  size : Nat
  deferred : Bool
  deriving DecidableEq, Repr, Inhabited

/-- A declared delay line: owner and LMAX, with its initial length (R232, R235). -/
structure HLine where
  owner : Nat
  lmax : Nat
  len : Nat
  deriving DecidableEq, Repr, Inhabited

/-- A declared tap. -/
structure HTap where
  owner : Nat
  line : Nat
  d : Nat
  deriving DecidableEq, Repr, Inhabited

/-- The DRAMMAP section. -/
structure HDram where
  regions : Store (Option HRegion)
  streamer : Nat
  lines : Store (Option HLine)
  taps : Store (Option HTap)
  deriving DecidableEq, Repr, Inhabited

/-- The RINGS section: rings and the REPLY ring of each source (R54, R320). -/
structure HRings where
  rings : Store (Option HRing)
  reply : List (Source × Nat)
  deriving DecidableEq, Repr, Inhabited

/-- The BUSES section (R173): what the checks and the commands consult. -/
structure HBuses where
  /-- Buses that voices may write, and read. -/
  voiceOut : List Nat
  voiceIn : List Nat
  /-- Bus and engine of each engine writer and reader. -/
  engOut : List (Nat × Nat)
  engIn : List (Nat × Nat)
  /-- Buses that input port channels write, and that output port channels read. -/
  portIn : List Nat
  portOut : List Nat
  /-- CV channel and bus. -/
  cv : List (Nat × Nat)
  /-- Placement set and a bus that it is given. -/
  sets : List (Nat × Nat)
  deriving DecidableEq, Repr, Inhabited

/-- Where a data byte of a message goes in an event: message byte, word, lowest bit, width. -/
structure MapField where
  byte_ : Nat
  word : Nat
  lo : Nat
  width : Nat
  deriving DecidableEq, Repr, Inhabited

/-- An entry of the MIDI map: the status byte, an optional first data byte, and the event it becomes. -/
structure MidiMap where
  status : Nat
  data1 : Option Nat
  rec_ : EvRec
  fields : List MapField
  lead : Nat
  deriving DecidableEq, Repr, Inhabited

/-- An entry of the DMX map: a slot and the event its value becomes. -/
structure DmxMap where
  slot : Nat
  rec_ : EvRec
  fields : List MapField
  lead : Nat
  deriving DecidableEq, Repr, Inhabited

/-- What a UART is claimed for (R361). -/
inductive Claim where
  | midi (map : List MidiMap)
  | dmx (map : List DmxMap)
  deriving DecidableEq, Repr, Inhabited

/-- A parameter word of an atomic group (R51): opcode, TARGET and word 4 of the events that write it. -/
structure AtomWord where
  op : Nat
  target : Nat
  w4 : Nat
  deriving DecidableEq, Repr, Inhabited

/-- The EVMAP section. -/
structure HEvmap where
  /-- Timers claimed by firmware, as a mask, and event templates (R369). -/
  timers : Nat
  templates : Store (Option EvRec)
  uarts : Store (Option Claim)
  atoms : List (List AtomWord)
  deriving DecidableEq, Repr, Inhabited

/-- A background task of a FULCODE section (R340). -/
structure HTask where
  entry : Nat
  prio : Nat
  tick : Bool
  host : Bool
  deriving DecidableEq, Repr, Inhabited

/-- A FULCODE and its FULDATA (R179, R195, R340). -/
structure HEngine where
  tasks : List HTask
  bgen : Bool
  imem : Store DWord
  slen : Nat
  x : Store Word
  xb : Nat
  ya : Store Word
  yb : Store Word
  deriving DecidableEq, Repr, Inhabited

/-- A PLACE section: its set, its tables, and its bytes (R165). -/
structure HPlace where
  set : PlaceSet
  data : List Byte
  deriving DecidableEq, Repr, Inhabited

/-- R436: the entries of PLACE that an image's bytes give: SETBASE, the two tables and the bytes. -/
def placeOf (base : Nat) (bs : List Byte) : HPlace :=
  let tab := fun (o : Nat) => (List.range 257).map fun i => (BitVec.ofNat 32 (leNat ((bs.drop (o + 4 * i)).take 4))).toInt
  { set := { setbase := leNat (bs.take 4) % 512, base := base, da := tab 4, aa := tab 1032 }, data := bs }

/-- A path of the PATHS section (R55, R339). -/
structure HPath where
  input : Word
  output : Word
  min : Nat
  max : Nat
  deriving DecidableEq, Repr, Inhabited

/-- A structure image. -/
structure Hood where
  hdr : HHeader
  units : HUnits
  clocks : HClocks
  dram : HDram
  rings : HRings
  ports : HPorts
  buses : HBuses
  templates : List Template
  groups : List HGroup
  evmap : HEvmap
  curves : Store (List Int)
  shapers : Store (List Int)
  engines : Store (Option HEngine)
  cv : Store (Option HCv)
  paths : List HPath
  place : Store (Option HPlace)
  /-- PAYLOAD sections: region and bytes. -/
  payload : List (Nat × List Byte)
  deriving DecidableEq, Repr, Inhabited

/-- The nominal frame rate of a hood. -/
def Hood.rate (h : Hood) : Rate := h.clocks.rate

/-- The smallest hood: nothing enabled. -/
def Hood.empty : Hood :=
  { hdr := ⟨0, 1, 15, false, false, true, 0, 0⟩
    units := ⟨0, 0, 0, 0, 0, 0, false⟩
    clocks := ⟨.r96, 0, none, [true, false, false, false], [.r96, .r96, .r96, .r96], [0, 0, 0, 0], [0, 1, 2, 3]⟩
    dram := ⟨[], 0, [], []⟩
    rings := ⟨[], []⟩
    ports := ⟨[], [], [], [], [0, 0, 0, 0], 0⟩
    buses := ⟨[], [], [], [], [], [], [], []⟩
    templates := [], groups := [], evmap := ⟨0, [], [], []⟩, curves := [], shapers := [], engines := [], cv := []
    paths := [], place := [], payload := [] }

end Sys2Proof.Machine
end

