-- ==== Sys2Proof/Syntax.lean ====
section
/-! DEFINITION. The commands the block takes, one constructor per row of the opcode table, and their operands. -/

namespace Sys2Proof

open Sys2Proof.Machine

/-- A line buffer: oscillator, read plane, and buffer (R126, R128). -/
structure LineAt where
  osc : BitVec 2
  plane : BitVec 1
  line : BitVec 1
  deriving DecidableEq, Repr

/-- Whose line buffer it is: the voice's that a slot computes, that of its pending note, or a start buffer, by the carder
sequence number of its event (R126, R128). -/
inductive LineOwner where
  | cur (slot : BitVec 11)
  | pend (slot : BitVec 11)
  | start (seq : Nat)
  deriving DecidableEq, Repr

/-- An error or repair seen in the frame under way (R414, R417): a parity error in a cluster or in the carder, one met
by engine e's sample partition at its n-th cycle (with the FUL_FLT code of R201), or a corrected single error. -/
inductive FrameErr where
  | cluster (c : BitVec 3)
  | carder
  | engine (e : BitVec 4) (cyc : Nat) (code : Nat)
  | dramSingle
  | sramSingle
  /-- A line that the voice of a slot reads in the frame that begins has not arrived (R130). -/
  | line (slot : BitVec 11) (l : LineAt)
  deriving DecidableEq, Repr

/-- The engine that issues an instruction, and the FUL_FLT code of a parity error met at the issue (0 = none). -/
structure EngAt where
  e : BitVec 4
  perr : Nat
  deriving DecidableEq, Repr

/-- Operands of a product operation: accumulator, the two data registers, and the X and Y move fields (R208, R212). -/
structure ParArgs where
  ad : BitVec 2
  s1 : BitVec 4
  s2 : BitVec 4
  x : BitVec 23
  y : BitVec 23
  deriving DecidableEq, Repr

/-- Operands of the other accumulator operations: accumulator and move fields. -/
structure AccArgs where
  ad : BitVec 2
  x : BitVec 23
  y : BitVec 23
  deriving DecidableEq, Repr

/-- The addressing part of a move field and the side it stands on (R188, R212). -/
structure MoveArgs where
  isY : Bool
  ptr : BitVec 2
  mod : BitVec 2
  msel : BitVec 2
  deriving DecidableEq, Repr

/-- The rest of the word around one move: the arithmetic operation and the other move field (R208). -/
structure Around where
  aop : BitVec 6
  ad : BitVec 2
  s1 : BitVec 4
  s2 : BitVec 4
  other : BitVec 23
  deriving DecidableEq, Repr

/-- A wide transfer: the two address parts and the arithmetic operation beside it (R213). -/
structure WideArgs where
  xptr : BitVec 2
  xmod : BitVec 2
  xmsel : BitVec 2
  yptr : BitVec 2
  ymod : BitVec 2
  ymsel : BitVec 2
  aop : BitVec 6
  ad : BitVec 2
  s1 : BitVec 4
  s2 : BitVec 4
  deriving DecidableEq, Repr

/-- How a DRAM read went (R417). -/
inductive EccKind where
  | clean | corrected | uncorrectable
  deriving DecidableEq, Repr

/-- An interface whose frames start with PORT_FRAME: a serial audio port or an AES3 transmitter. -/
inductive IfaceId where
  | sap (p : BitVec 3)
  | tx (x : BitVec 2)
  deriving DecidableEq, Repr

/-- What a receiver sees of a frame besides its subframes (R259, R260). -/
structure AesMarks where
  z : Bool
  violation : Bool
  missing : Bool
  deriving DecidableEq, Repr

/-- The identity record of a partner (R275), and whether FAULT_N is high. -/
structure PartnerId where
  part : BitVec 16
  level : Byte
  lead : Bool
  hasRun : Bool
  start : DWord
  digest : List Byte
  faultHigh : Bool
  deriving DecidableEq, Repr

/-- A mark as received (R281). -/
structure MarkMsg where
  frame : Word
  digest : Word
  seq : Word
  ecrc : Word
  flags : Word
  /-- An 8b/10b code violation was seen. -/
  violation : Bool
  deriving DecidableEq, Repr

/-- Who makes a mode request (R405). -/
inductive ReqVia where
  | port (p : Port)
  | chan (c : BitVec 4)
  deriving DecidableEq, Repr

/-- Wake sources (R407). -/
inductive WakeSource where
  /-- `high`: AON has sampled the line high since the detector last fired (R380). -/
  | host | wake | spi | uart (u : BitVec 2) (high : Bool)
  deriving DecidableEq, Repr

/-- What reaches the test access port (R432): the level of TRST_N, five clocks of TMS high, a scan of the instruction
register, and a scan of the selected data register with the levels of the scanned balls and the bits on TDI. -/
inductive TapOp where
  | trst (low : Bool) | reset | ir (code : BitVec 4) | dr (balls tdi : List Bool)
  deriving DecidableEq, Repr

/-- A register address: page and word offset. -/
structure RegAddr where
  page : Byte
  off : HWord
  deriving DecidableEq, Repr

/-- Who writes a ring pointer (R322). -/
inductive Agent where
  | port (p : Port)
  | firmware
  deriving DecidableEq, Repr

/-- A task command: its words (R341) and the mailbox or ring side that gave it. -/
structure TaskCmd where
  w : Words
  who : Agent
  deriving DecidableEq, Repr

/-- The commands. -/
inductive Instr where
  /-- MASTER_TICK (R249). -/
  | masterTick (t : Nat) (errs : List FrameErr)
  /-- HELD_TICK_START (R23). -/
  | heldTickStart (t : Nat)
  /-- PREEMPTION (R197). -/
  | preemption (e : BitVec 4)
  /-- SAMPLE_PARTITION_START (R195). -/
  | samplePartitionStart (e : BitVec 4)
  /-- BACKGROUND_RESUME (R197). -/
  | backgroundResume (e : BitVec 4)
  /-- ENGINE_OVERRUN (R196). -/
  | engineOverrun (e : BitVec 4) (early : Bool)
  /-- RESERVED_INSTRUCTION (R206). -/
  | reservedInstruction (g : EngAt) (w : DWord)
  /-- NOP (R203). -/
  | nop (g : EngAt) (x : BitVec 23) (y : BitVec 23)
  /-- MPY (R209). -/
  | mpy (g : EngAt) (p : ParArgs)
  /-- MAC (R191). -/
  | mac (g : EngAt) (p : ParArgs)
  /-- MSU (R191). -/
  | msu (g : EngAt) (p : ParArgs)
  /-- CLR (R209). -/
  | clr (g : EngAt) (p : AccArgs)
  /-- ADDA (R209). -/
  | adda (g : EngAt) (m : BitVec 2) (p : AccArgs)
  /-- SUBA (R209). -/
  | suba (g : EngAt) (m : BitVec 2) (p : AccArgs)
  /-- NEGA (R209). -/
  | nega (g : EngAt) (p : AccArgs)
  /-- ABSA (R209). -/
  | absa (g : EngAt) (p : AccArgs)
  /-- SHLA (R209). -/
  | shla (g : EngAt) (k : BitVec 4) (p : AccArgs)
  /-- SHRA (R209). -/
  | shra (g : EngAt) (k : BitVec 4) (p : AccArgs)
  /-- RNDA (R209). -/
  | rnda (g : EngAt) (p : AccArgs)
  /-- ADDD (R209). -/
  | addd (g : EngAt) (src : BitVec 4) (p : AccArgs)
  /-- SUBD (R209). -/
  | subd (g : EngAt) (src : BitVec 4) (p : AccArgs)
  /-- LDD (R209). -/
  | ldd (g : EngAt) (src : BitVec 4) (p : AccArgs)
  /-- CMPA (R209). -/
  | cmpa (g : EngAt) (m : BitVec 2) (p : AccArgs)
  /-- TSTA (R209). -/
  | tsta (g : EngAt) (p : AccArgs)
  /-- MAXA (R209). -/
  | maxa (g : EngAt) (m : BitVec 2) (p : AccArgs)
  /-- MINA (R209). -/
  | mina (g : EngAt) (m : BitVec 2) (p : AccArgs)
  /-- SELA (R209). -/
  | sela (g : EngAt) (m : BitVec 2) (c : BitVec 4) (p : AccArgs)
  /-- LD (R212). -/
  | ld (g : EngAt) (m : MoveArgs) (reg : BitVec 4) (o : Around)
  /-- ST (R212). -/
  | st (g : EngAt) (m : MoveArgs) (reg : BitVec 4) (o : Around)
  /-- STA (R212). -/
  | sta (g : EngAt) (m : MoveArgs) (acc : BitVec 2) (sh : BitVec 3) (o : Around)
  /-- LDA (R212). -/
  | lda (g : EngAt) (m : MoveArgs) (acc : BitVec 2) (o : Around)
  /-- LDP (R212). -/
  | ldp (g : EngAt) (m : MoveArgs) (ptr : BitVec 3) (o : Around)
  /-- WIDE_STORE (R213). -/
  | wideStore (g : EngAt) (acc : BitVec 2) (a : WideArgs)
  /-- WIDE_LOAD (R213). -/
  | wideLoad (g : EngAt) (acc : BitVec 2) (a : WideArgs)
  /-- BRD (R214). -/
  | brd (g : EngAt) (bus : BitVec 9) (reg : BitVec 4) (x : BitVec 23) (y : BitVec 23)
  /-- BWR (R214). -/
  | bwr (g : EngAt) (bus : BitVec 9) (reg : BitVec 4) (x : BitVec 23) (y : BitVec 23)
  /-- BWRA (R214). -/
  | bwra (g : EngAt) (bus : BitVec 9) (acc : BitVec 2) (sh : BitVec 2) (x : BitVec 23) (y : BitVec 23)
  /-- TRD (R234). -/
  | trd (g : EngAt) (tap : BitVec 9) (reg : BitVec 4) (x : BitVec 23) (y : BitVec 23)
  /-- TWR (R233). -/
  | twr (g : EngAt) (line : BitVec 9) (reg : BitVec 4) (x : BitVec 23) (y : BitVec 23)
  /-- MOV (R216). -/
  | mov (g : EngAt) (dst : BitVec 8) (src : BitVec 8)
  /-- MOVI (R216). -/
  | movi (g : EngAt) (dst : BitVec 8) (imm : Word)
  /-- MODP (R216). -/
  | modp (g : EngAt) (p : BitVec 3) (imm : BitVec 16)
  /-- ADD (R216). -/
  | add (g : EngAt) (d : BitVec 4) (src : BitVec 4)
  /-- SUB (R216). -/
  | sub (g : EngAt) (d : BitVec 4) (src : BitVec 4)
  /-- ADDI (R216). -/
  | addi (g : EngAt) (d : BitVec 4) (imm : Word)
  /-- ANDI (R216). -/
  | andi (g : EngAt) (d : BitVec 4) (imm : Word)
  /-- ORI (R216). -/
  | ori (g : EngAt) (d : BitVec 4) (imm : Word)
  /-- XORI (R216). -/
  | xori (g : EngAt) (d : BitVec 4) (imm : Word)
  /-- SHL (R216). -/
  | shl (g : EngAt) (d : BitVec 4) (n : BitVec 5)
  /-- SHR (R216). -/
  | shr (g : EngAt) (d : BitVec 4) (n : BitVec 5)
  /-- ASR (R216). -/
  | asr (g : EngAt) (d : BitVec 4) (n : BitVec 5)
  /-- CMPD (R216). -/
  | cmpd (g : EngAt) (d : BitVec 4) (src : BitVec 4)
  /-- CMPDI (R216). -/
  | cmpdi (g : EngAt) (d : BitVec 4) (imm : Word)
  /-- REP (R218). -/
  | rep (g : EngAt) (n : BitVec 16)
  /-- REPR (R218). -/
  | repr (g : EngAt) (d : BitVec 4)
  /-- LOOP (R219). -/
  | loop (g : EngAt) (addr : BitVec 13) (n : BitVec 16)
  /-- LOOPR (R219). -/
  | loopr (g : EngAt) (d : BitVec 4) (addr : BitVec 13)
  /-- LSAVE (R198). -/
  | lsave (g : EngAt)
  /-- LREST (R198). -/
  | lrest (g : EngAt)
  /-- END (R196). -/
  | end_ (g : EngAt)
  /-- TEND (R197). -/
  | tend (g : EngAt)
  /-- BR (R220). -/
  | br (g : EngAt) (cond : BitVec 4) (addr : BitVec 13)
  /-- NOTE_START (R102). -/
  | noteStart (src : Source) (a : EvArgs)
  /-- NOTE_RELEASE (R97). -/
  | noteRelease (src : Source) (a : EvArgs)
  /-- NOTE_KILL (R98). -/
  | noteKill (src : Source) (a : EvArgs)
  /-- VOICE_SET (R161). -/
  | voiceSet (src : Source) (a : EvArgs)
  /-- GROUP_SET (R86). -/
  | groupSet (src : Source) (a : EvArgs)
  /-- PLACE_SET (R172). -/
  | placeSet (src : Source) (a : EvArgs)
  /-- TEMPO (R153). -/
  | tempo (src : Source) (a : EvArgs)
  /-- FUL_SET (R223). -/
  | fulSet (src : Source) (a : EvArgs)
  /-- BANK_SWAP (R222). -/
  | bankSwap (src : Source) (a : EvArgs)
  /-- XF_START (R226). -/
  | xfStart (src : Source) (a : EvArgs)
  /-- XF_FINISH (R230). -/
  | xfFinish (src : Source) (a : EvArgs)
  /-- DELAY_SET (R235). -/
  | delaySet (src : Source) (a : EvArgs)
  /-- CV_SET (R388). -/
  | cvSet (src : Source) (a : EvArgs)
  /-- REGION_ENABLE (R63). -/
  | regionEnable (src : Source) (a : EvArgs)
  /-- COMMIT (R49). -/
  | commit (src : Source) (a : EvArgs)
  /-- COMMIT_DROP (R49). -/
  | commitDrop (src : Source) (a : EvArgs)
  /-- MARK (R438). -/
  | mark (src : Source) (a : EvArgs)
  /-- RESERVED_OPCODE (R43). -/
  | reservedOpcode (src : Source) (op : BitVec 8) (a : EvArgs)
  /-- STEAL_FADE_END (R85). -/
  | stealFadeEnd (slot : BitVec 11)
  /-- CROSSFADE_END (R228). -/
  | crossfadeEnd (e : BitVec 4)
  /-- STREAM_LINE_ARRIVAL (R126). -/
  | streamLineArrival (o : LineOwner) (l : LineAt) (ecc : EccKind)
  /-- STREAM_LINE_LATE (R130). -/
  | streamLineLate (o : LineOwner) (l : LineAt)
  /-- CELL_ARRIVAL (R169). -/
  | cellArrival (slot : BitVec 11) (ecc : EccKind)
  /-- CELL_LATE (R169). -/
  | cellLate (slot : BitVec 11)
  /-- DELAY_FETCH_LATE (R237). -/
  | delayFetchLate (tap : BitVec 8)
  /-- METER_WINDOW_END (R177). -/
  | meterWindowEnd (m : BitVec 4)
  /-- WATCHDOG_EXPIRY (R251). -/
  | watchdogExpiry (t : Nat)
  /-- HOLD_OUTPUT_MUTE (R254). -/
  | holdOutputMute (t : Nat)
  /-- RELOCK (R255). -/
  | relock (d : BitVec 2) (t : Nat)
  /-- PORT_FRAME (R243). -/
  | portFrame (i : IfaceId) (t : Nat) (rise fall : List (BitVec 3))
  /-- PORT_STOP (R243). -/
  | portStop (p : BitVec 3) (t : Nat)
  /-- PORT_RESTART (R243). -/
  | portRestart (p : BitVec 3) (t : Nat)
  /-- SYNC_START_TRIGGER (R248). -/
  | syncStartTrigger (t : Nat)
  /-- GROUP_GO (R248). -/
  | groupGo (port : Port) (g : BitVec 2) (v : Word)
  /-- GROUP_START (R248). -/
  | groupStart (g : BitVec 2)
  /-- ASRC_LOCK (R257). -/
  | asrcLock (d : BitVec 2)
  /-- ASRC_UNLOCK (R257). -/
  | asrcUnlock (d : BitVec 2) (t : Nat)
  /-- AES_FRAME_RECEIVE (R259). -/
  | aesFrameReceive (r : BitVec 2) (t : Nat) (a : BitVec 28) (b : BitVec 28) (f : AesMarks)
  /-- AES_LOCK (R259). -/
  | aesLock (r : BitVec 2)
  /-- AES_UNLOCK (R259). -/
  | aesUnlock (r : BitVec 2)
  /-- AES_BLOCK_COMPLETE (R260). -/
  | aesBlockComplete (r : BitVec 2)
  /-- NONAUDIO_RELEASE (R261). -/
  | nonaudioRelease (r : BitVec 2)
  /-- AES_TX_BLOCK_START (R262). -/
  | aesTxBlockStart (x : BitVec 2)
  /-- AES_TX_PLL_LOCK (R262). -/
  | aesTxPllLock (x : BitVec 2)
  /-- PDM_OUTPUT_SAMPLE (R267). -/
  | pdmOutputSample (k : BitVec 2) (t : Nat) (rise : List (BitVec 16)) (fall : List (BitVec 16) := [])
  /-- PDM_SETTLED (R271). -/
  | pdmSettled (k : BitVec 2)
  /-- SRST (R270). -/
  | srst (port : Port) (k : BitVec 2) (v : Word)
  /-- SYNCHRONISING_RESET (R270). -/
  | synchronisingReset (k : BitVec 2)
  /-- PDM_STOP (R272). -/
  | pdmStop (k : BitVec 2) (t : Nat)
  /-- PDM_RESTART (R272). -/
  | pdmRestart (k : BitVec 2) (edges : Nat)
  /-- PDM_BANK_REQUEST (R268). -/
  | pdmBankRequest (port : Port) (k : BitVec 2) (v : Word)
  /-- PDM_CDATA_ACCESS (R268). -/
  | pdmCdataAccess (port : Port) (write : Bool) (v : Word)
  /-- PAIR (R275). -/
  | pair (port : Port) (v : Word)
  /-- PAIRING_CHECKS (R275). -/
  | pairingChecks (p : PartnerId)
  /-- LINK_ENTRY (R279). -/
  | linkEntry (r : Words)
  /-- MARK_RECEIVE (R282). -/
  | markReceive (t : Nat) (m : MarkMsg)
  /-- MARK_LOSS (R285). -/
  | markLoss (t : Nat)
  /-- TAKEOVER (R287). -/
  | takeover (t : Nat)
  /-- FAULT_N_SEEN (R285). -/
  | faultNSeen (t : Nat)
  /-- LEAD_YIELD (R286). -/
  | leadYield
  /-- LEAD_RETIRE (R288). -/
  | leadRetire
  /-- SWAP (R291). -/
  | swap (port : Port) (v : Word)
  /-- SWAP_ROLE_EXCHANGE (R291). -/
  | swapRoleExchange
  /-- LINKUP_CHANGE (R273). -/
  | linkupChange (up : Bool)
  /-- SINE_GENERATOR_UPDATE (R392). -/
  | sineGeneratorUpdate (t : Nat)
  /-- SPAN_CHANGE_END (R391). -/
  | spanChangeEnd (c : BitVec 4) (t : Nat)
  /-- DEGLITCH_END (R393). -/
  | deglitchEnd (c : BitVec 4) (t : Nat)
  /-- MONITOR_SLOT (R394). -/
  | monitorSlot (i : Nat) (reading : BitVec 12) (t : Nat)
  /-- CV_POL (R386). -/
  | cvPol (port : Port) (v : Word)
  /-- BLOCKING_START (R74). -/
  | blockingStart (port : Port) (v : Word)
  /-- HOOD_FIFO (R75). -/
  | hoodFifo (port : Port) (w : Word)
  /-- HOOD_FIFO_STARVATION (R75). -/
  | hoodFifoStarvation (t : Nat)
  /-- PASS_1 (R76). -/
  | pass1 (body : Hood) (bad : Option (Nat × Err))
  /-- PASS_2 (R78). -/
  | pass2 (dramMb : Nat) (trained : Bool)
  /-- RESTORE_COMPLETE (R184). -/
  | restoreComplete
  /-- RUN_REQUEST (R405). -/
  | runRequest (via : ReqVia)
  /-- RUN_ENTRY (R405). -/
  | runEntry (t : Nat)
  /-- STOP_REQUEST (R405). -/
  | stopRequest (via : ReqVia)
  /-- LEAVE_RUNNING_MODE (R37). -/
  | leaveRunningMode (t : Nat)
  /-- SLEEP_REQUEST (R408). -/
  | sleepRequest (via : ReqVia)
  /-- SERVICE_REQUEST (R405). -/
  | serviceRequest (via : ReqVia)
  /-- READY_REQUEST (R404). -/
  | readyRequest (via : ReqVia)
  /-- MODE_STATUS (R405). -/
  | modeStatus (c : BitVec 4)
  /-- WAKE_EVENT (R407). -/
  | wakeEvent (src : WakeSource) (t : Nat)
  /-- WAKE_END (R409), with how the reads of the two copies went (R417). -/
  | wakeEnd (t : Nat) (hood code : EccKind)
  /-- POWER_ON_RESET (R400). -/
  | powerOnReset (strap : Bool)
  /-- PIN_RESET (R401). -/
  | pinReset (lowNs : Nat) (strap : Bool)
  /-- FULL (R401). -/
  | full (port : Port) (v : Word) (strap : Bool)
  /-- CORE (R413). -/
  | core (port : Port) (v : Word)
  /-- FIRST_WATCHDOG_EXPIRY (R412). -/
  | firstWatchdogExpiry
  /-- SECOND_WATCHDOG_EXPIRY (R412). -/
  | secondWatchdogExpiry (strap : Bool)
  /-- DOMAIN_POWER_FAULT (R402). -/
  | domainPowerFault (d : BitVec 4)
  /-- CONTROL_SRAM_UNCORRECTABLE (R414): in a word of the front entry of a ring, or elsewhere. -/
  | controlSramUncorrectable (ring : Option (BitVec 6) := none)
  /-- DOMAIN_RESTART_ENGINE (R416). -/
  | domainRestartEngine (port : Port) (v : Word)
  /-- DOMAIN_RESTART_CLUSTER (R416). -/
  | domainRestartCluster (port : Port) (v : Word)
  /-- DOMAIN_RESTART_COMPLETE (R416). -/
  | domainRestartComplete
  /-- REGISTER_WRITE (R304). -/
  | registerWrite (who : Agent) (a : RegAddr) (v : DWord)
  /-- LOWER_WORD_WRITE (R303). -/
  | lowerWordWrite (port : Port) (a : RegAddr) (w : HWord) (be : BitVec 2)
  /-- BASE_WORD_READ (R302). -/
  | baseWordRead (port : Port) (a : RegAddr)
  /-- READ_CLEAR (R13). -/
  | readClear (port : Port) (a : RegAddr)
  /-- FLT_LOG_READ (R418). -/
  | fltLogRead (port : Port)
  /-- SYNC (R293). -/
  | sync (port : Port) (v : Word)
  /-- PRST (R297). -/
  | prst (v : Word)
  /-- SRST_SPI (R297). -/
  | srstSpi (v : Word)
  /-- SPI_WRITE (R313). -/
  | spiWrite (a : RegAddr) (ws : List HWord)
  /-- SPI_READ (R313). -/
  | spiRead (a : RegAddr) (n : Nat)
  /-- SPI_STATUS (R313). -/
  | spiStatus
  /-- SPI_INVALID_COMMAND (R313). -/
  | spiInvalidCommand (code : Byte)
  /-- WINDOW_READ (R307). -/
  | windowRead (port : Port) (w : BitVec 3) (v : Word)
  /-- WINDOW_WRITE (R307). -/
  | windowWrite (port : Port) (w : BitVec 3) (v : Word)
  /-- WINDOW_TRANSFER_COMPLETE (R308). -/
  | windowTransferComplete (w : BitVec 3) (ecc : EccKind)
  /-- RING_HEAD (R322). -/
  | ringHead (who : Agent) (r : BitVec 6) (v : HWord)
  /-- RING_TAIL (R322). -/
  | ringTail (who : Agent) (r : BitVec 6) (v : HWord)
  /-- TASK_READY (R342). -/
  | taskReady (c : TaskCmd)
  /-- TASK_CANCEL (R342). -/
  | taskCancel (c : TaskCmd)
  /-- TASK_DELAY (R342). -/
  | taskDelay (c : TaskCmd)
  /-- PREFETCH_SLOT_FILL (R344). -/
  | prefetchSlotFill (k : Nat)
  /-- TASK_DISPATCH (R344). -/
  | taskDispatch (k : Nat) (t : Nat)
  /-- TASK_END (R345). -/
  | taskEnd (k : Nat) (fault : Bool) (t : Nat)
  /-- MILLISECOND_TICK (R346), with the errors corrected in control SRAM since the last (R417). -/
  | millisecondTick (t : Nat) (fixes : Nat := 0)
  /-- LOAD_WINDOW_END (R347). -/
  | loadWindowEnd (t : Nat)
  /-- BULK_TO_DRAM (R328). -/
  | bulkToDram (r : BitVec 6)
  /-- BULK_FROM_DRAM (R328). -/
  | bulkFromDram (r : BitVec 6)
  /-- BULK_COMPLETE (R329). -/
  | bulkComplete (r : BitVec 6) (ecc : EccKind)
  /-- MAILBOX_SEND (R332). -/
  | mailboxSend (port : Port) (c : BitVec 4) (v : Word)
  /-- MAILBOX_TAKE (R332). -/
  | mailboxTake (c : BitVec 4)
  /-- OUTBOUND_SEND (R332); or, for a notice, the LOG ring it goes to (R337). -/
  | outboundSend (c : BitVec 4) (m : Words) (log : Option (BitVec 6) := none)
  /-- MBX_OUT_READ (R332). -/
  | mbxOutRead (port : Port) (c : BitVec 4)
  /-- FLUSH (R333). -/
  | flush (port : Port) (c : BitVec 4) (v : Word)
  /-- OUTBOUND_FLUSH (R333). -/
  | outboundFlush (c : BitVec 4)
  /-- INFO (R339). -/
  | info (c : BitVec 4)
  /-- LATENCY_COUNT (R339). -/
  | latencyCount (c : BitVec 4)
  /-- LATENCY_PATH (R339). -/
  | latencyPath (c : BitVec 4)
  /-- OWNER_LOCK (R73). -/
  | ownerLock (c : BitVec 4) (digest : List Byte)
  /-- BEGIN (R354). -/
  | begin_ (c : BitVec 4)
  /-- LOAD (R354). -/
  | load (c : BitVec 4)
  /-- VERIFY (R355). -/
  | verify (c : BitVec 4)
  /-- ACTIVATE (R356). -/
  | activate (c : BitVec 4)
  /-- CONFIRM (R359). -/
  | confirm (c : BitVec 4)
  /-- ABORT (R354). -/
  | abort (c : BitVec 4)
  /-- STATUS (R354). -/
  | status (c : BitVec 4)
  /-- HANDOVER_START (R356). -/
  | handoverStart
  /-- HANDOVER_RESTART (R356). -/
  | handoverRestart
  /-- HANDOVER_ACK (R356). -/
  | handoverAck
  /-- HANDOVER_FALLBACK (R356). -/
  | handoverFallback
  /-- LOADER_ACTIVATE (R358). -/
  | loaderActivate
  /-- TIMER_START (R365). -/
  | timerStart (who : Agent) (v : Word)
  /-- TIMER_STOP (R365). -/
  | timerStop (who : Agent) (n : BitVec 3) (v : Word)
  /-- TIMER_WRAP (R364). -/
  | timerWrap (n : BitVec 3)
  /-- COMPARE_MATCH (R366). -/
  | compareMatch (n : BitVec 3)
  /-- CAPTURE (R368). -/
  | capture (n : BitVec 3) (rising : Bool)
  /-- TMR_CAP_READ (R368). -/
  | tmrCapRead (who : Agent) (n : BitVec 3)
  /-- RECEIVE_CHARACTER (R372). -/
  | receiveCharacter (u : BitVec 2) (samples : List (BitVec 3))
  /-- BREAK (R374). -/
  | break_ (u : BitVec 2)
  /-- DEAD_LINE (R374). -/
  | deadLine (u : BitVec 2)
  /-- RX_ENTRY_IDLE_CLOSE (R376). -/
  | rxEntryIdleClose (u : BitVec 2)
  /-- DMX_BREAK (R378). -/
  | dmxBreak (u : BitVec 2) (lowUs : Nat) (highUs : Option Nat)
  /-- DMX_PACKET_TIMEOUT (R378). -/
  | dmxPacketTimeout (u : BitVec 2)
  /-- TRANSMIT_CHARACTER (R371). -/
  | transmitCharacter (u : BitVec 2)
  /-- UART_TXD (R376). -/
  | uartTxd (who : Agent) (u : BitVec 2) (v : HWord)
  /-- UART_RXD (R376). -/
  | uartRxd (who : Agent) (u : BitVec 2)
  /-- UART_DISABLE (R375). -/
  | uartDisable (who : Agent) (u : BitVec 2) (v : Word)
  /-- MIDI_STATS (R381). -/
  | midiStats (c : BitVec 4)
  /-- MIDI_SEND (R381). -/
  | midiSend (c : BitVec 4)
  /-- DMX_STATUS (R382). -/
  | dmxStatus (c : BitVec 4)
  /-- DOMAIN_TICK (R238). -/
  | domainTick (d : BitVec 2) (t : Nat)
  /-- TIMER_SOURCE_EDGE (R363). -/
  | timerSourceEdge (n : BitVec 3)
  /-- UART_RX_REARM (R374). -/
  | uartRxRearm (u : BitVec 2)
  /-- DOMAIN_POWER_RECOVERY (R402). -/
  | domainPowerRecovery (d : BitVec 4)
  /-- PAIRING_TIMEOUT (R275), with the time of the partner's write of PAIR, if it has made one. -/
  | pairingTimeout (t : Nat) (partner : Option Nat := none)
  /-- DELAY_FETCH_ARRIVAL (R237). -/
  | delayFetchArrival (tap : BitVec 8) (ecc : EccKind) (t : Nat := 0)
  /-- CONFIRM_END (R359). -/
  | confirmEnd (ok : Bool)
  /-- FIRMWARE_START (R352). -/
  | firmwareStart (t : Nat)
  /-- TAP_INSTRUCTION (R432). -/
  | tapInstruction (op : TapOp)
  deriving DecidableEq, Repr

end Sys2Proof
end

