-- ==== Sys2Proof/Machine/EngineTypes.lean ====
section
/-! DEFINITION. The plain data of a fuller engine and of the delay streamer. -/

namespace Sys2Proof.Machine

/-- One bank of an engine's registers (R181). -/
structure RegBank where
  d : List Word
  a : List (BitVec 72)
  p : List (BitVec 15)
  m : List (BitVec 16)
  l : List (BitVec 16)
  b : List (BitVec 15)
  deriving DecidableEq, Repr, Inhabited

/-- R183: a bank of zeros. -/
def RegBank.zero : RegBank :=
  ⟨List.replicate 16 0, List.replicate 4 0, List.replicate 8 0, List.replicate 8 0, List.replicate 8 0, List.replicate 8 0⟩

/-- A register whose write by a move is seen from the second instruction on (R185). -/
inductive SlowReg where
  | p (n : Nat) | m (n : Nat) | l (n : Nat) | b (n : Nat) | lc | ls | le | la
  deriving DecidableEq, Repr, Inhabited

/-- A write still on its way: a register value, or a memory word (R185, R204). -/
inductive Late where
  | reg (r : SlowReg) (v : Nat)
  | x (a : Nat) (v : Word)
  /-- An engine Y address, under the roles of its issue. -/
  | y (bankB : Bool) (a : Nat) (v : Word)
  deriving DecidableEq, Repr, Inhabited

/-- What an engine is doing. -/
inductive EngPhase where
  /-- No task and no partition. -/
  | idle
  /-- A background task runs. -/
  | background
  /-- Preemption is complete or no task ran; the sample partition of this frame has not issued yet (R195). -/
  | ready
  /-- The sample partition runs. -/
  | sample
  /-- END has completed and the background context is not resumed yet (R197). -/
  | ended
  /-- Stopped by an engine fault (R201). -/
  | stopped
  deriving DecidableEq, Repr, Inhabited

/-- A coefficient crossfade (R227): word range, length 2^LOGN and the k of the frame. -/
structure Xf where
  first : Nat
  count : Nat
  logn : Nat
  k : Nat
  deriving DecidableEq, Repr, Inhabited

/-- A fuller engine. -/
structure Engine where
  /-- The hood enables the engine and its domain is powered. -/
  on : Bool
  imem : Store DWord
  x : Store Word
  ya : Store Word
  yb : Store Word
  smp : RegBank
  bg : RegBank
  lc : BitVec 16
  ls : BitVec 13
  le : BitVec 13
  rc : BitVec 9
  st : BitVec 16
  pc : BitVec 13
  /-- The loop save register (R198): LC, LS, LE. -/
  saveLc : BitVec 16
  saveLs : BitVec 13
  saveLe : BitVec 13
  /-- Accumulators and ST as they stood before the last instruction (R185). -/
  aOld : List (BitVec 72)
  stOld : BitVec 16
  late : List Late
  /-- Where execution goes after a branch's delay slot (R220). -/
  br : Option (BitVec 13)
  phase : EngPhase
  /-- Preemption is requested for this frame (R195). -/
  preReq : Bool
  /-- The sample partition of this frame is still to run. -/
  due : Bool
  /-- Cycles since the partition's first issue. -/
  cyc : Nat
  /-- The context save slot (R197): a preempted task's PC, ST and RC. -/
  saved : Bool
  savPc : BitVec 13
  savSt : BitVec 16
  savRc : BitVec 9
  /-- Where a branch goes whose delay slot the preempted task has still to issue (R220). -/
  savBr : Option (BitVec 13)
  /-- The task of the background context. -/
  task : Option Nat
  bgen : Bool
  fltie : Bool
  satie : Bool
  slen : Nat
  xb : Nat
  fltCode : Nat
  fltFrame : Nat
  fltPc : BitVec 13
  tfault : Nat
  wfault : Nat
  bsv : Bool
  bav : Bool
  ssv : Bool
  sav : Bool
  /-- w of the frame, and LAST and MAX of FUL_PRE. -/
  w : Nat
  preLast : Nat
  preMax : Nat
  /-- 1 = bank B is active (R221). -/
  act : Bool
  xf : Option Xf
  /-- LOGN, FIRST and COUNT of the running or last crossfade. -/
  xfLogn : Nat
  xfFirst : Nat
  xfCount : Nat
  /-- Held for a domain restart (R416). -/
  held : Bool
  deriving DecidableEq, Repr, Inhabited

/-- A DRAM delay line (R232, R235): owner, LMAX, LEN as set, and LEN in force for TRD in this frame. -/
structure DlyLine where
  owner : Nat
  lmax : Nat
  len : Nat
  cur : Nat
  deriving DecidableEq, Repr, Inhabited

/-- A tap: owner, line, delay as set, and delay in force in this frame. -/
structure DlyTap where
  owner : Nat
  line : Nat
  d : Nat
  cur : Nat
  deriving DecidableEq, Repr, Inhabited

/-- The delay streamer. -/
structure Delay where
  lines : Store (Option DlyLine)
  taps : Store (Option DlyTap)
  /-- What the fetch for the current frame has read, by tap (R237). -/
  pre : Store Word
  /-- TWR values of the current frame, by line. -/
  wr : Store (Option Word)
  /-- Taps whose fetch of this frame missed its deadline (R237). -/
  lateTaps : List Nat
  /-- Taps and 16-sample blocks with an uncorrectable ECC error (R237). -/
  eccTaps : List (Nat × Nat)
  late : Nat
  eccue : Nat
  wfault : Nat
  deriving DecidableEq, Repr, Inhabited

end Sys2Proof.Machine
end

