-- ==== Sys2Proof/Machine/Engine.lean ====
section
/-! DEFINITION. One instruction of a fuller engine: decoding its 64-bit word, addressing, arithmetic, moves, loops,
branches, and the rules of visibility (chapters 8 to 10). -/

namespace Sys2Proof.Machine

/-! ## The instruction word (R203, R208, R212, R214, R215, R217) -/

/-- A move field (R212). -/
structure MoveF where
  op : Nat
  ptr : Nat
  mod : Nat
  msel : Nat
  reg : Nat
  sh : Nat
  deriving DecidableEq, Repr, Inhabited

/-- An instruction, its fields as the formats give them. -/
inductive EIns where
  | par (aop ad s1 s2 : Nat) (x y : MoveF)
  | reg (rop dst src imm : Nat)
  | ctl (cop reg cond addr imm : Nat)
  | bus (bop num reg : Nat) (x y : MoveF)
  deriving DecidableEq, Repr, Inhabited

/-- R212: a 23-bit move field. -/
def moveOf (f : Nat) : MoveF := ⟨bits f 22 20, bits f 19 18, bits f 17 16, bits f 15 14, bits f 13 10, bits f 9 7⟩

/-- R203: the fields of an instruction word. -/
def insOf (w : Nat) : EIns :=
  let xf := moveOf (bits w 45 23)
  let yf := moveOf (bits w 22 0)
  let c := bits w 63 62
  if c = 0 then .par (bits w 61 56) (bits w 55 54) (bits w 53 50) (bits w 49 46) xf yf
  else if c = 1 then .reg (bits w 61 56) (bits w 55 48) (bits w 47 40) (bits w 31 0)
  else if c = 2 then .ctl (bits w 61 56) (bits w 55 52) (bits w 51 48) (bits w 44 32) (bits w 15 0)
  else .bus (bits w 61 59) (bits w 58 50) (bits w 49 46) xf yf

/-- The words of the four formats, from their fields (R208, R214, R215, R217). -/
def wordPar (aop ad s1 s2 xf yf : Nat) : Nat :=
  place aop 6 56 + place ad 2 54 + place s1 4 50 + place s2 4 46 + place xf 23 23 + place yf 23 0
def wordReg (rop dst src imm : Nat) : Nat := place 1 2 62 + place rop 6 56 + place dst 8 48 + place src 8 40 + place imm 32 0
def wordCtl (cop reg cond addr imm : Nat) : Nat :=
  place 2 2 62 + place cop 6 56 + place reg 4 52 + place cond 4 48 + place addr 13 32 + place imm 16 0
def wordBus (bop num reg xf yf : Nat) : Nat :=
  place 3 2 62 + place bop 3 59 + place num 9 50 + place reg 4 46 + place xf 23 23 + place yf 23 0
/-- A move field from its parts (R212). -/
def wordMove (op ptr mod msel reg sh : Nat) : Nat :=
  place op 3 20 + place ptr 2 18 + place mod 2 16 + place msel 2 14 + place reg 4 10 + place sh 3 7

/-! ## Reserved encodings (R206, R207) -/

/-- R212: whether a 23-bit move field is listed, its unused fields zero. -/
def moveOk (f : Nat) : Bool :=
  let m := moveOf f
  bits f 6 0 == 0 && (m.mod == 3 || m.msel == 0) && (m.op == 3 || m.sh == 0) &&
    (if m.op = 0 then m.ptr == 0 && m.mod == 0 && m.reg == 0
     else if m.op = 1 ∨ m.op = 2 then true
     else if m.op = 3 ∨ m.op = 4 then decide (m.reg < 4)
     else if m.op = 5 then decide (m.reg < 8)
     else if m.op = 6 then m.reg / 4 % 2 == 0
     else false)

/-- R211: listed conditions. -/
def condOk (c : Nat) : Bool := decide (c ≤ 8)

/-- R215: listed register codes. -/
def codeOk (c : Nat) : Bool := decide (c ≤ 0x13) || (decide (0x18 ≤ c) && decide (c ≤ 0x3A)) || c == 0x3C

/-- R209: an arithmetic operation is listed and its unused fields are zero. -/
def aopOk (aop ad s1 s2 : Nat) : Bool :=
  if aop = 0 then ad == 0 && s1 == 0 && s2 == 0
  else if aop ≤ 3 then true
  else if aop = 4 ∨ aop = 7 ∨ aop = 8 ∨ aop = 0x0B ∨ aop = 0x10 then s1 == 0 && s2 == 0
  else if aop = 5 ∨ aop = 6 ∨ aop = 0x0F ∨ aop = 0x11 ∨ aop = 0x12 then decide (s1 < 4) && s2 == 0
  else if aop = 9 ∨ aop = 0x0A then s1 != 0 && s2 == 0
  else if aop = 0x0C ∨ aop = 0x0D ∨ aop = 0x0E then s2 == 0
  else if aop = 0x13 then decide (s1 < 4) && condOk s2
  else false

/-- R209: whether an arithmetic operation writes its accumulator. -/
def aopWrites (aop : Nat) : Bool := aop != 0 && aop != 0x0F && aop != 0x10

/-- R207: the registers a move field writes: D as n, A as 16+n, P as 32+n. -/
def moveDests (m : MoveF) : List Nat :=
  if m.op = 1 then [m.reg] else if m.op = 4 then [16 + m.reg % 4] else if m.op = 5 then [32 + m.reg % 8] else []

/-- R213: the accumulator a wide load writes. -/
def wideDests (x y : MoveF) : List Nat := if x.op = 6 ∧ y.op = 6 ∧ 8 ≤ x.reg then [16 + x.reg % 4] else []

/-- R213: WIDE stands in both fields with one REG, or in neither. -/
def wideOk (x y : MoveF) : Bool := if x.op = 6 ∨ y.op = 6 then x.op == 6 && y.op == 6 && x.reg == y.reg else true

/-- No register occurs twice. -/
def distinct : List Nat → Bool
  | [] => true
  | a :: t => !t.contains a && distinct t

/-- R206, R207: whether a word is reserved for every context. -/
def reservedWord (w : Nat) : Bool :=
  !(match insOf w with
    | .par aop ad s1 s2 x y =>
      aopOk aop ad s1 s2 && moveOk (bits w 45 23) && moveOk (bits w 22 0) && wideOk x y &&
        distinct ((if aopWrites aop then [16 + ad] else []) ++ moveDests x ++ moveDests y ++ wideDests x y)
    | .bus bop num reg x y =>
      (if bop = 0 ∨ bop = 1 ∨ bop = 2 then true else if bop = 3 then decide (num < 256)
        else if bop = 4 then decide (num < 128) else false) &&
        moveOk (bits w 45 23) && moveOk (bits w 22 0) && wideOk x y &&
        distinct ((if bop = 0 ∨ bop = 3 then [reg] else []) ++ moveDests x ++ moveDests y ++ wideDests x y)
    | .reg rop dst src imm =>
      bits w 39 32 == 0 &&
        (if rop = 0 then codeOk dst && codeOk src && imm == 0
         else if rop = 1 then codeOk dst && src == 0
         else if rop = 2 then decide (0x18 ≤ dst) && decide (dst ≤ 0x1F) && src == 0 && decide (imm < 2 ^ 16)
         else if rop = 3 ∨ rop = 4 ∨ rop = 0x0C then decide (dst < 16) && decide (src < 16) && imm == 0
         else if rop = 5 ∨ rop = 6 ∨ rop = 7 ∨ rop = 8 ∨ rop = 0x0D then decide (dst < 16) && src == 0
         else if rop = 9 ∨ rop = 0x0A ∨ rop = 0x0B then decide (dst < 16) && src == 0 && decide (imm < 32)
         else false)
    | .ctl cop reg cond addr imm =>
      bits w 47 45 == 0 && bits w 31 16 == 0 &&
        (if cop = 0 then reg == 0 && cond == 0 && addr == 0 && imm != 0 && decide (imm ≤ 256)
         else if cop = 1 then cond == 0 && addr == 0 && imm == 0
         else if cop = 2 then reg == 0 && cond == 0 && imm != 0
         else if cop = 3 then cond == 0 && imm == 0
         else if cop = 4 ∨ cop = 5 ∨ cop = 6 ∨ cop = 7 then reg == 0 && cond == 0 && addr == 0 && imm == 0
         else if cop = 8 then reg == 0 && imm == 0 && condOk cond
         else false))

/-- R199, R214, R217: sample-only instructions. -/
def sampleOnly : EIns → Bool
  | .bus bop _ _ _ _ => bop != 0
  | .ctl cop _ _ _ _ => cop == 4 || cop == 5 || cop == 6
  | _ => false

/-- R217: background-only instructions. -/
def backgroundOnly : EIns → Bool
  | .ctl cop _ _ _ _ => cop == 1 || cop == 3 || cop == 7 || cop == 8
  | _ => false

/-! ## ST fields (R182) -/

def stLA : Nat := 14
def stSV : Nat := 9
def stAV : Nat := 8
def stN : Nat := 3
def stZ : Nat := 2
def stPART : Nat := 0
def stPin (n : Nat) : Nat := 10 + n

/-- A bit of ST. -/
def stBit (st : BitVec 16) (i : Nat) : Bool := st.getLsbD i
/-- ST with a bit set or cleared. -/
def stSet (st : BitVec 16) (i : Nat) (v : Bool) : BitVec 16 :=
  if v then st ||| BitVec.ofNat 16 (2 ^ i) else st &&& ~~~(BitVec.ofNat 16 (2 ^ i))

/-- R211: a condition on ST. -/
def condHolds (st : BitVec 16) (c : Nat) : Bool :=
  let z := stBit st stZ
  let n := stBit st stN
  if c = 0 then true else if c = 1 then z else if c = 2 then !z else if c = 3 then n else if c = 4 then !n
  else if c = 5 then n || z else if c = 6 then !n && !z else if c = 7 then stBit st stAV else stBit st stSV

/-! ## Arithmetic (R190 to R193, R209, R210, R212) -/

/-- R191: SAT72, and whether it saturated. -/
def sat72 (v : Int) : Int × Bool := (satN 72 v, clipped 72 v)

/-- R193, R212: narrow(A, SH), and whether it saturated. -/
def narrow (a : Int) (sh : Nat) : Word × Bool :=
  let t := (a * 2 ^ sh + 2 ^ 30) / 2 ^ 31
  (BitVec.ofInt 32 (satN 32 t), clipped 32 t)

/-- What an arithmetic operation gives: a new accumulator and pin, whether it saturated, and flags N, Z. -/
structure ArithRes where
  /-- New accumulator, and its pin where the operation writes it; none where nothing is written. -/
  acc : Option (Int × Option Bool)
  av : Bool
  /-- New N and Z. -/
  nz : Option (Bool × Bool)
  deriving DecidableEq, Repr, Inhabited

/-- The result of an operation that saturates: SAT72 sets the pin on saturation and leaves it otherwise (R191). -/
def arithSat (v : Int) : ArithRes := ⟨some ((sat72 v).1, if (sat72 v).2 then some true else none), (sat72 v).2, none⟩

/-- R209, R210: an arithmetic operation. `a` is the accumulator as the operation sees it, `pin` its pin likewise,
`am` the other accumulator, `dx`, `dy` the data operands, `k` the shift, `cond` the evaluated condition. -/
def arith (aop : Nat) (a : Int) (pin : Bool) (am dx dy : Int) (k : Nat) (cond : Bool) : ArithRes :=
  let keep : ArithRes := ⟨none, false, none⟩
  if aop = 0x01 then ⟨some (dx * dy, some false), false, none⟩
  else if aop = 0x02 then (if pin then keep else arithSat (a + dx * dy))
  else if aop = 0x03 then (if pin then keep else arithSat (a - dx * dy))
  else if aop = 0x04 then ⟨some (0, some false), false, none⟩
  else if aop = 0x05 then (if pin then keep else arithSat (a + am))
  else if aop = 0x06 then (if pin then keep else arithSat (a - am))
  else if aop = 0x07 then (if pin then keep else arithSat (-a))
  else if aop = 0x08 then (if pin then keep else arithSat (a.natAbs : Int))
  else if aop = 0x09 then (if pin then keep else arithSat (a * 2 ^ k))
  else if aop = 0x0A then (if pin then keep else ⟨some (a / 2 ^ k, none), false, none⟩)
  else if aop = 0x0B then (if pin then keep else arithSat ((a + 2 ^ 30) / 2 ^ 31 * 2 ^ 31))
  else if aop = 0x0C then (if pin then keep else arithSat (a + dx * 2 ^ 31))
  else if aop = 0x0D then (if pin then keep else arithSat (a - dx * 2 ^ 31))
  else if aop = 0x0E then ⟨some (dx * 2 ^ 31, some false), false, none⟩
  else if aop = 0x0F then ⟨none, false, some (decide (a - am < 0), decide (a - am = 0))⟩
  else if aop = 0x10 then ⟨none, false, some (decide (a < 0), decide (a = 0))⟩
  else if aop = 0x11 then ⟨some (max a am, some false), false, none⟩
  else if aop = 0x12 then ⟨some (min a am, some false), false, none⟩
  else if aop = 0x13 then (if cond then ⟨some (am, some false), false, none⟩ else keep)
  else keep

/-! ## Addressing (R188, R189) -/

/-- R188: the post-modified pointer. -/
def postMod (p b : BitVec 15) (l : BitVec 16) (m : Int) : BitVec 15 :=
  if l = 0 then BitVec.ofInt 15 (p.toNat + m)
  else
    let o : Int := (p - b).toNat
    BitVec.ofInt 15 (b.toNat + (o + m) % l.toNat)

/-! ## Engine helpers -/

/-- The register bank of the partition that runs. -/
def Engine.bank (g : Engine) : RegBank := if g.phase = .sample then g.smp else g.bg
/-- Replace that bank. -/
def Engine.setBank (g : Engine) (b : RegBank) : Engine := if g.phase = .sample then { g with smp := b } else { g with bg := b }

def RegBank.dN (b : RegBank) (n : Nat) : Word := b.d.getD n 0
def RegBank.aN (b : RegBank) (n : Nat) : Int := (b.a.getD n 0).toInt
def RegBank.pN (b : RegBank) (n : Nat) : BitVec 15 := b.p.getD n 0

/-- A Y word as stored, by bank. -/
def Engine.yWord (g : Engine) (bankB : Bool) (w : Nat) : Word := Store.get 0 (if bankB then g.yb else g.ya) w
/-- Store a Y word. -/
def Engine.setY (g : Engine) (bankB : Bool) (w : Nat) (v : Word) : Engine :=
  if bankB then { g with yb := Store.set 0 g.yb w v } else { g with ya := Store.set 0 g.ya w v }

/-- R178: the bank that an engine Y address reaches: the active one below 0x4000. -/
def Engine.yBank (g : Engine) (a : Nat) : Bool := if a < 0x4000 then g.act else !g.act

/-- R227: the interpolated value of a crossfade. -/
def xfValue (a b : Int) (k logn : Nat) : Int :=
  a + ((b - a) * ((k + 1) * 2 ^ (31 - logn) : Nat) + 2 ^ 30) / 2 ^ 31

/-- R178, R227: a Y read at an engine address. -/
def Engine.readY (g : Engine) (a : Nat) : Word :=
  let stored := g.yWord (g.yBank a) (a % 0x4000)
  match g.xf with
  | some f =>
    if a < 0x4000 ∧ f.first ≤ a ∧ a < f.first + f.count then
      BitVec.ofInt 32 (xfValue stored.toInt (g.yWord (!g.act) a).toInt f.k f.logn)
    else stored
  | none => stored

/-- A late write takes its place (R185, R204). -/
def applyLate (g : Engine) : Late → Engine
  | .x a v => { g with x := Store.set 0 g.x a v }
  | .y bb a v => g.setY bb a v
  | .reg r v =>
    let b := g.bank
    match r with
    | .p n => g.setBank { b with p := setAt b.p n (BitVec.ofNat 15 v) }
    | .m n => g.setBank { b with m := setAt b.m n (BitVec.ofNat 16 v) }
    | .l n => g.setBank { b with l := setAt b.l n (BitVec.ofNat 16 v) }
    | .b n => g.setBank { b with b := setAt b.b n (BitVec.ofNat 15 v) }
    | .lc => { g with lc := BitVec.ofNat 16 v }
    | .ls => { g with ls := BitVec.ofNat 13 v }
    | .le => { g with le := BitVec.ofNat 13 v }
    | .la => { g with st := stSet g.st stLA (v == 1) }

/-- R197: the instructions already issued drain. -/
def Engine.drain (g : Engine) : Engine :=
  let g' := g.late.foldl applyLate g
  { g' with late := [], aOld := g'.bank.a, stOld := g'.st }

/-! ## The delay streamer (R233, R234) -/

/-- R234: a tap's effective delay. -/
def effDelay (len d : Nat) : Nat := if d = 0 ∨ len < d then len else d

/-- R234, R237: what TRD of tap t by engine e returns in a frame. -/
def Delay.read (y : Delay) (e t frame firstFrame : Nat) : Word :=
  match Store.get none y.taps t with
  | none => 0
  | some tap =>
    match Store.get none y.lines tap.line with
    | none => 0
    | some ln =>
      let ed := effDelay ln.cur tap.cur
      if tap.owner ≠ e ∨ frame < firstFrame + ed ∨ y.lateTaps.contains t then 0
      else if y.eccTaps.contains (t, (frame - ed) / 16) then 0
      else Store.get 0 y.pre t

/-- R233: TWR by engine e. -/
def Delay.write (y : Delay) (e line : Nat) (v : Word) : Delay :=
  match Store.get none y.lines line with
  | some ln => if ln.owner = e then { y with wr := Store.set none y.wr line (some v) } else { y with wfault := satInc 255 y.wfault }
  | none => { y with wfault := satInc 255 y.wfault }

/-- DRAM address of the sample of line k for an index; `base`: the streamer region's. R232 gives each line LMAX words and
not their place in the region: the lines follow each other in order of their numbers (DESIGN CHOICE, log entry 66). -/
def Delay.sampleAddr (y : Delay) (base k index : Nat) : Nat :=
  let before := (Store.keys y.lines).filter fun j => decide (j < k)
  let words := fun (j : Nat) => match Store.get none y.lines j with | some l => l.lmax | none => 0
  base + 4 * ((before.map words).sum + index % max 1 (words k))

/-- R233, R237: the samples of frame F in DRAM: of every line the TWR value, or zero. -/
def Delay.store (y : Delay) (base frame : Nat) (m : Memory) : Memory :=
  (Store.keys y.lines).foldl (fun m k => Memory.writeW 0 m (y.sampleAddr base k frame) ((Store.get none y.wr k).getD 0)) m

/-- R237: the fetch of every tap's read of frame F, under the lengths and delays set. -/
def Delay.fetch (y : Delay) (base frame : Nat) (m : Memory) : Store Word :=
  (Store.keys y.taps).foldl (fun p t =>
    match Store.get none y.taps t with
    | some x =>
      (match Store.get none y.lines x.line with
       | some l => Store.set 0 p t (Memory.readW 0 m (y.sampleAddr base x.line (frame - effDelay l.len x.d)))
       | none => p)
    | none => p) []

/-! ## Issue -/

/-- What an instruction sees outside the engine. -/
structure EngEnv where
  e : Nat
  frame : Nat
  firstFrame : Nat
  /-- Bus values of the frame (R21). -/
  bus : Store Int
  dly : Delay
  /-- The loaded hood is marked deterministic. -/
  det : Bool
  deriving DecidableEq, Repr, Inhabited

/-- What an instruction does outside the engine. -/
inductive EngOut where
  /-- A contribution to a bus (R174). -/
  | bus (n : Nat) (v : Int)
  /-- TWR. -/
  | line (l : Nat) (v : Word)
  /-- The background task ends; true: as a task fault (R199). -/
  | taskEnd (fault : Bool)
  /-- An engine fault (R201). -/
  | fault
  /-- END issued in its cycle. -/
  | ended
  /-- A background write into a protected word was discarded or performed (R60). -/
  | bgWrite
  /-- A saturation flag of FUL_SAT was set. -/
  | sat
  deriving DecidableEq, Repr, Inhabited

/-- R201: the engine stops with a fault. -/
def engFault (g : Engine) (frame code : Nat) : Engine × List EngOut :=
  ({ g.drain with phase := .stopped, due := false, preReq := false
                  fltCode := if g.fltCode = 0 then code else g.fltCode
                  fltFrame := if g.fltCode = 0 then frame % 2 ^ 12 else g.fltFrame
                  fltPc := if g.fltCode = 0 then g.pc else g.fltPc }, [.fault])

/-- R199, R202: the background task ends at once as a task fault. -/
def taskFault (g : Engine) : Engine × List EngOut :=
  ({ g.drain with phase := .idle, task := none, tfault := satInc 255 g.tfault, rc := 0, br := none }, [.taskEnd true])

/-- R206: a reserved or wrong-partition instruction. -/
def engReserved (g : Engine) (frame : Nat) : Engine × List EngOut :=
  if g.phase = .sample then engFault g frame 6 else taskFault g

/-- Mark the saturation flags of ST and FUL_SAT (R182, R191, R193). -/
def markSat (g : Engine) (av sv : Bool) : Engine :=
  let smp : Bool := g.phase == .sample
  { g with
    st := stSet (stSet g.st stAV (av || stBit g.st stAV)) stSV (sv || stBit g.st stSV)
    sav := g.sav || (av && smp), bav := g.bav || (av && !smp)
    ssv := g.ssv || (sv && smp), bsv := g.bsv || (sv && !smp) }

/-- The effects of the reads of an instruction, gathered before any of its writes (R204). -/
structure Eff where
  d : List (Nat × Word)
  a : List (Nat × Int × Bool)
  late : List Late
  /-- Pointers post-modified at once. -/
  p : List (Nat × BitVec 15)
  av : Bool
  sv : Bool
  nz : Option (Bool × Bool)
  /-- A write of ST by a move (R215). -/
  st : Option Word
  outs : List EngOut
  deriving DecidableEq, Repr, Inhabited

/-- No effect. -/
def Eff.none : Eff := ⟨[], [], [], [], false, false, .none, .none, []⟩

/-- Both of two effects. -/
def Eff.and (a b : Eff) : Eff :=
  ⟨a.d ++ b.d, a.a ++ b.a, a.late ++ b.late, a.p ++ b.p, a.av || b.av, a.sv || b.sv, a.nz <|> b.nz, a.st <|> b.st, a.outs ++ b.outs⟩

/-- R60, R179: whether a write of the running partition is performed, and whether it is a protected background write. -/
def writeAllowed (g : Engine) (det isY : Bool) (a : Nat) : Bool × Bool :=
  if g.phase = .sample then (true, false)
  else
    let prot := isY || decide (a < g.xb)
    (!(prot && det), prot)

/-- A memory store of the running partition. -/
def effStore (g : Engine) (det isY : Bool) (a : Nat) (v : Word) : Eff :=
  let (ok, prot) := writeAllowed g det isY a
  { Eff.none with
    late := if ok then [if isY then .y (g.yBank a) (a % 0x4000) v else .x a v] else []
    outs := if prot then [.bgWrite] else [] }

/-- The modifier that MOD selects (R212). -/
def modValue (b : RegBank) (isY : Bool) (m : MoveF) : Int :=
  if m.mod = 0 then 0 else if m.mod = 1 then 1 else if m.mod = 2 then -1
  else (b.m.getD (m.msel + if isY then 4 else 0) 0).toInt

/-- R212, R213: a move field. `other` is the other field's pointer, for a wide transfer. -/
def effMove (g : Engine) (det isY : Bool) (m : MoveF) : Eff :=
  if m.op = 0 then Eff.none
  else
    let b := g.bank
    let pn := m.ptr + if isY then 4 else 0
    let p := b.pN pn
    let a := p.toNat
    let rd : Word := if isY then g.readY a else Store.get 0 g.x a
    let post : Eff := { Eff.none with p := [(pn, postMod p (b.b.getD pn 0) (b.l.getD pn 0) (modValue b isY m))] }
    let aOld := (g.aOld.getD (m.reg % 4) 0).toInt
    let acc : Eff :=
      if m.op = 1 then { Eff.none with d := [(m.reg, rd)] }
      else if m.op = 2 then effStore g det isY a (b.dN m.reg)
      else if m.op = 3 then
        let (v, s) := narrow aOld m.sh
        { effStore g det isY a v with sv := s }
      else if m.op = 4 then { Eff.none with a := [(m.reg % 4, rd.toInt * 2 ^ 31, false)] }
      else if m.op = 5 then { Eff.none with late := [.reg (.p (m.reg % 8)) (rd.toNat % 2 ^ 15)] }
      else if m.reg < 8 then
        let v := satN 64 aOld
        { effStore g det isY a (BitVec.ofInt 32 (if isY then v else v / 2 ^ 32)) with sv := clipped 64 aOld }
      else Eff.none
    acc.and post

/-- R213: the accumulator loaded by a wide transfer. -/
def effWide (g : Engine) (x y : MoveF) : Eff :=
  if x.op = 6 ∧ 8 ≤ x.reg then
    let b := g.bank
    let hi := (Store.get 0 g.x (b.pN x.ptr).toNat).toInt
    let lo := (g.readY (b.pN (y.ptr + 4)).toNat).toNat
    { Eff.none with a := [(x.reg % 4, hi * 2 ^ 32 + lo, false)] }
  else Eff.none

/-- R209: the arithmetic part. MAC and MSU see the accumulator and pin that the instruction before left; every
other use sees the older ones (R185). -/
def effArith (g : Engine) (aop ad s1 s2 : Nat) : Eff :=
  let b := g.bank
  let mac := aop == 2 || aop == 3
  let a := if mac then b.aN ad else (g.aOld.getD ad 0).toInt
  let pin := stBit (if mac then g.st else g.stOld) (stPin ad)
  let r := arith aop a pin (g.aOld.getD (s1 % 4) 0).toInt (b.dN s1).toInt (b.dN s2).toInt s1 (condHolds g.stOld s2)
  { Eff.none with a := (match r.acc with | some (v, p) => [(ad, v, p.getD (stBit g.st (stPin ad)))] | none => []), av := r.av, nz := r.nz }

/-- R215: a register as a source: its 32-bit value, and whether its narrowing saturated. -/
def srcReg (g : Engine) (c : Nat) : Word × Bool :=
  let b := g.bank
  if c < 0x10 then (b.dN c, false)
  else if c < 0x14 then narrow (g.aOld.getD (c - 0x10) 0).toInt 0
  else if c < 0x20 then ((b.pN (c - 0x18)).setWidth 32, false)
  else if c < 0x28 then ((b.m.getD (c - 0x20) 0).signExtend 32, false)
  else if c < 0x30 then ((b.l.getD (c - 0x28) 0).setWidth 32, false)
  else if c < 0x38 then ((b.b.getD (c - 0x30) 0).setWidth 32, false)
  else if c = 0x38 then (g.lc.setWidth 32, false)
  else if c = 0x39 then (g.ls.setWidth 32, false)
  else if c = 0x3A then (g.le.setWidth 32, false)
  else (g.stOld.setWidth 32, false)

/-- R215: a register as a destination. -/
def effDst (c : Nat) (v : Word) : Eff :=
  let n := v.toNat
  if c < 0x10 then { Eff.none with d := [(c, v)] }
  else if c < 0x14 then { Eff.none with a := [(c - 0x10, v.toInt * 2 ^ 31, false)] }
  else if c < 0x20 then { Eff.none with late := [.reg (.p (c - 0x18)) (n % 2 ^ 15)] }
  else if c < 0x28 then { Eff.none with late := [.reg (.m (c - 0x20)) (n % 2 ^ 16)] }
  else if c < 0x30 then { Eff.none with late := [.reg (.l (c - 0x28)) (n % 2 ^ 16)] }
  else if c < 0x38 then { Eff.none with late := [.reg (.b (c - 0x30)) (n % 2 ^ 15)] }
  else if c = 0x38 then { Eff.none with late := [.reg .lc (n % 2 ^ 16)] }
  else if c = 0x39 then { Eff.none with late := [.reg .ls (n % 2 ^ 13)] }
  else if c = 0x3A then { Eff.none with late := [.reg .le (n % 2 ^ 13)] }
  else { Eff.none with st := some v, late := [.reg .la (b2n (v.getLsbD 14))] }

/-- R216: N and Z of an exact signed difference. -/
def nzOf (v : Int) : Option (Bool × Bool) := some (decide (v < 0), decide (v = 0))

/-- R216: the register operations. -/
def effReg (g : Engine) (rop dst src imm : Nat) : Eff :=
  let b := g.bank
  let iw := BitVec.ofNat 32 imm
  let dd := b.dN dst
  let ds := b.dN src
  let wr := fun (v : Word) => { Eff.none with d := [(dst, v)] }
  if rop = 0 then
    let (v, s) := srcReg g src
    { effDst dst v with sv := s }
  else if rop = 1 then effDst dst iw
  else if rop = 2 then
    let pn := dst - 0x18
    let p' := postMod (b.pN pn) (b.b.getD pn 0) (b.l.getD pn 0) (signed 16 imm)
    { Eff.none with late := [.reg (.p pn) p'.toNat] }
  else if rop = 3 then wr (dd + ds)
  else if rop = 4 then wr (dd - ds)
  else if rop = 5 then wr (dd + iw)
  else if rop = 6 then wr (dd &&& iw)
  else if rop = 7 then wr (dd ||| iw)
  else if rop = 8 then wr (dd ^^^ iw)
  else if rop = 9 then wr (dd <<< imm)
  else if rop = 0x0A then wr (dd >>> imm)
  else if rop = 0x0B then wr (dd.sshiftRight imm)
  else if rop = 0x0C then { Eff.none with nz := nzOf (dd.toInt - ds.toInt) }
  else if rop = 0x0D then { Eff.none with nz := nzOf (dd.toInt - iw.toInt) }
  else Eff.none

/-- R214: the bus operations. -/
def effBus (g : Engine) (env : EngEnv) (bop num reg : Nat) : Eff :=
  let b := g.bank
  if bop = 0 then { Eff.none with d := [(reg, BitVec.ofInt 32 (Store.get 0 env.bus num))] }
  else if bop = 1 then { Eff.none with outs := [.bus num (b.dN reg).toInt] }
  else if bop = 2 then
    let (v, s) := narrow (g.aOld.getD (reg % 4) 0).toInt (reg / 4)
    { Eff.none with outs := [.bus num v.toInt], sv := s }
  else if bop = 3 then { Eff.none with d := [(reg, env.dly.read env.e num env.frame env.firstFrame)] }
  else if bop = 4 then { Eff.none with outs := [.line num (b.dN reg)] }
  else Eff.none

/-- Whether a late write is to a register that this instruction also writes through post-modification (`p`: the pointers so
written) or the loop hardware: the later instruction's write stands (R186). -/
def lateLost (p : List (Nat × BitVec 15)) (lcWritten : Bool) : Late → Bool
  | .reg (.p n) _ => p.any fun x => x.1 == n
  | .reg .lc _ => lcWritten
  | _ => false

/-- R215: a move into ST: bits [13:8] and [3:2]; bit [14], LA, follows as a late write (R185); the rest stays. -/
def stMove (st : BitVec 16) (v : Word) : BitVec 16 := (st &&& 0xC0F3#16) ||| (v.setWidth 16 &&& 0x3F0C#16)

/-- What an instruction makes of ST: the pins, N and Z of a compare, and a move into ST, in that order. -/
def stCommit (e : Eff) (st : BitVec 16) : BitVec 16 :=
  let st := e.a.foldl (fun s x => stSet s (stPin x.1) x.2.2) st
  let st := match e.nz with | some (n, z) => stSet (stSet st stN n) stZ z | none => st
  match e.st with | some v => stMove st v | none => st

/-- R186: the post-modifications of an instruction; its own move into Pn takes precedence over that of Pn. -/
def Eff.mods (e : Eff) : List (Nat × BitVec 15) :=
  e.p.filter fun x => !(e.late.any fun y => match y with | .reg (.p k) _ => k == x.1 | _ => false)

/-- R204: put the effects of an instruction in place, after the late writes of the one before. -/
def commitEff (g : Engine) (e : Eff) (lcWritten : Bool) : Engine :=
  let aOld := g.bank.a
  let g := (g.late.filter fun x => !lateLost e.mods lcWritten x).foldl applyLate g
  let stOld := g.st
  let b := g.bank
  let b := { b with
    d := e.d.foldl (fun l x => setAt l x.1 x.2) b.d
    a := e.a.foldl (fun l x => setAt l x.1 (BitVec.ofInt 72 x.2.1)) b.a
    p := e.mods.foldl (fun l x => setAt l x.1 x.2) b.p }
  let g := markSat (g.setBank b) e.av e.sv
  { g with st := stCommit e g.st, aOld := aOld, stOld := stOld, late := e.late }

/-- R219: the loop hardware at the issue of the instruction at LE (its last repetition): next PC, LC, and whether
the loop stays active (LA is written only at its end). -/
def loopEnd (g : Engine) : Option (BitVec 13 × BitVec 16 × Bool) :=
  if stBit g.st stLA ∧ g.pc = g.le then
    (if 1 < g.lc.toNat then some (g.ls, g.lc - 1, true) else some (g.le + 1, 0, false))
  else none

/-- The PC after an instruction that is no branch, repeat or end: repetition, loop, branch target, or the next.
`le` is what the loop hardware decided from the loop registers as they stood before the instruction (R185). -/
def advance (g : Engine) (le : Option (BitVec 13 × BitVec 16 × Bool)) : Engine :=
  let rc := g.rc - (if g.rc = 0 then 0 else 1)
  if rc ≠ 0 then { g with rc := rc }
  else
    let g := { g with rc := rc }
    match le with
    | some (pc, lc, la) => { g with pc := pc, lc := lc, st := if la then g.st else stSet g.st stLA false, br := none }
    | none =>
      match g.br with
      | some t => { g with pc := t, br := none }
      | none => { g with pc := g.pc + 1 }

/-- Whether the loop hardware writes LC at this issue. -/
def loopWrites (g : Engine) : Bool := decide (g.rc.toNat ≤ 1) && (loopEnd g).isSome

/-- R218, R219, R220: context-dependent reserved cases (R439). -/
def contextReserved (g : Engine) : EIns → Bool
  | .ctl cop _ _ addr _ =>
    g.rc != 0 || g.br.isSome || (stBit g.st stLA && g.pc == g.le) ||
      ((cop == 2 || cop == 3) && decide (addr < g.pc.toNat + 1)) ||
      (cop == 8 && stBit g.st stLA && g.pc + 1 == g.le)
  | _ => false

/-- R217 to R220: a control instruction that has passed every check. -/
def issueCtl (g : Engine) (cop reg cond addr imm : Nat) : Engine × List EngOut :=
  let dn := (g.bank.dN reg).toNat
  let g0 := commitEff g Eff.none false
  let next := { g0 with pc := g0.pc + 1 }
  let loop := fun (n : Nat) =>
    ({ next with ls := g0.pc + 1, le := BitVec.ofNat 13 addr, lc := BitVec.ofNat 16 n, st := stSet g0.st stLA true }, [])
  if cop = 0 then ({ next with rc := BitVec.ofNat 9 imm }, [])
  else if cop = 1 then ({ next with rc := BitVec.ofNat 9 (max 1 (min dn 256)) }, [])
  else if cop = 2 then loop imm
  else if cop = 3 then loop (if dn % 2 ^ 16 = 0 then 1 else dn % 2 ^ 16)
  else if cop = 4 then ({ next with saveLc := g0.lc, saveLs := g0.ls, saveLe := g0.le, cyc := g0.cyc + 3 }, [])
  else if cop = 5 then ({ next with lc := g0.saveLc, ls := g0.saveLs, le := g0.saveLe, cyc := g0.cyc + 3 }, [])
  else if cop = 6 then ({ g0.drain with phase := .ended, due := false }, [.ended])
  else if cop = 7 then ({ g0.drain with phase := .idle, task := none }, [.taskEnd false])
  else
    let taken := condHolds g.stOld cond
    ({ next with br := some (if taken then BitVec.ofNat 13 addr else g0.pc + 2)
                 st := if taken then stSet g0.st stLA false else g0.st }, [])

/-- The effects of an instruction of class 0, 1 or 3. -/
def effOf (g : Engine) (env : EngEnv) : EIns → Eff
  | .par aop ad s1 s2 x y => ((effArith g aop ad s1 s2).and (effMove g env.det false x)).and ((effMove g env.det true y).and (effWide g x y))
  | .bus bop num reg x y => ((effBus g env bop num reg).and (effMove g env.det false x)).and ((effMove g env.det true y).and (effWide g x y))
  | .reg rop dst src imm => effReg g rop dst src imm
  | .ctl _ _ _ _ _ => Eff.none

/-- Count the discarded background writes of an effect (R60, R179). -/
def countBg (det : Bool) (outs : List EngOut) (g : Engine) : Engine :=
  if det then { g with wfault := satAdd 255 g.wfault (outs.filter (· == .bgWrite)).length } else g

/-- One issue of an instruction word by an engine whose partition runs: R196 to R220. `perr`: a parity error on one
of its memory reads (0 none, else the FUL_FLT code of R201). -/
def issueWord (g : Engine) (env : EngEnv) (w perr : Nat) : Engine × List EngOut :=
  let i := insOf w
  let smp : Bool := g.phase == .sample
  let isEnd := match i with | .ctl 6 _ _ _ _ => !reservedWord w | _ => false
  if smp && decide (g.slen ≤ g.cyc + 5) && !(isEnd && decide (g.cyc + 5 = g.slen)) then engFault g env.frame 1
  else if perr ≠ 0 then (if smp then engFault g env.frame perr else taskFault g)
  else if reservedWord w || contextReserved g i || (smp && backgroundOnly i) || (!smp && sampleOnly i) then engReserved g env.frame
  else if smp && isEnd && decide (g.cyc + 5 ≠ g.slen) then engFault g env.frame 2
  else
    let g1 := { g with cyc := g.cyc + 1 }
    match i with
    | .ctl cop reg cond addr imm => issueCtl g1 cop reg cond addr imm
    | _ =>
      let e := effOf g env i
      let g2 := advance (commitEff g1 e (loopWrites g)) (loopEnd g)
      (countBg env.det e.outs g2, e.outs ++ (if e.av || e.sv then [.sat] else []))

/-- The word at the PC. -/
def Engine.fetch (g : Engine) : Nat := (Store.get 0 g.imem g.pc.toNat).toNat

/-! ## Partition and preemption (R183, R195, R197) -/

/-- R195: at the tick, preemption is requested of an engine with a sample partition. -/
def engTick (g : Engine) : Engine :=
  if g.on && !g.held && g.slen != 0 && g.phase != .stopped then
    let w := if g.phase = .background then g.rc.toNat else 0
    { g with preReq := true, due := true, w := w, preLast := max 34 (10 + w) - 2, preMax := max g.preMax (max 34 (10 + w) - 2) }
  else g

/-- Complete a repeat in progress: n more issues of the word at the PC (R197). -/
def finishRepeat (env : EngEnv) : Nat → Engine → List EngOut → Engine × List EngOut
  | 0, g, o => (g, o)
  | n + 1, g, o =>
    if g.phase = .background ∧ g.rc ≠ 0 then
      let (g', o') := issueWord g env g.fetch 0
      finishRepeat env n g' (o ++ o')
    else (g, o)

/-- R197 item 3: preemption: the repeat completes, the pipeline drains, the context is saved. R197 names PC, ST and RC; between
a BR and its delay slot the place where the branch goes is saved with them, since R220 takes it always (DEDUCED, log entry
30). -/
def engPreempt (env : EngEnv) (g : Engine) : Engine × List EngOut :=
  if g.preReq then
    let (g, o) := finishRepeat env 256 g []
    if g.phase = .background then
      let g := g.drain
      ({ g with saved := true, savPc := g.pc, savSt := g.st, savRc := g.rc, savBr := g.br, preReq := false, phase := .ready }, o)
    else ({ g with preReq := false, phase := if g.phase = .stopped then .stopped else .ready }, o)
  else (g, [])

/-- R195 item 3: the sample partition issues its first instruction. -/
def engStart (g : Engine) : Engine :=
  if g.due && g.phase = .ready then
    { g with phase := .sample, st := 1, rc := 0, pc := 0, cyc := 0, br := none, late := []
             aOld := g.smp.a, stOld := 1 }
  else g

/-- R197 item 4: the background context resumes, or the engine idles. -/
def engResume (g : Engine) : Engine :=
  if g.phase = .ended then
    if g.saved then
      { g with phase := .background, pc := g.savPc, st := g.savSt, rc := g.savRc, saved := false, late := []
               aOld := g.bg.a, stOld := g.savSt, br := g.savBr }
    else { g with phase := .idle, st := stSet g.st stPART false }
  else g

/-- Run the sample partition from its instruction memory until it ends or stops; `perr` gives the parity error met in
a cycle of the partition, as the FUL_FLT code (0 none). -/
def runPartition (env : EngEnv) (perr : Nat → Nat) : Nat → Engine → List EngOut → Engine × List EngOut
  | 0, g, o => (g, o)
  | n + 1, g, o =>
    if g.phase = .sample then
      let (g', o') := issueWord g env g.fetch (perr g.cyc)
      runPartition env perr n g' (o ++ o')
    else (g, o)

/-- Everything an engine still has to do in its frame: preemption, start, the partition, and the resume. -/
def engFinish (env : EngEnv) (perr : Nat → Nat) (g : Engine) : Engine × List EngOut :=
  let (g, o1) := engPreempt env g
  let g := engStart g
  let (g, o2) := runPartition env perr (g.slen + 1) g []
  (engResume g, o1 ++ o2)

/-- R228: the crossfade at the close of a window: k advances, and the end inverts ACT. -/
def xfClose (g : Engine) : Engine :=
  match g.xf with
  | some f => if f.k + 1 = 2 ^ f.logn then { g with xf := none, act := !g.act } else { g with xf := some { f with k := f.k + 1 } }
  | none => g

/-- R229: whether a Y bank word lies in the range of a running crossfade. -/
def xfBusy (g : Engine) (word : Nat) : Bool :=
  match g.xf with
  | some f => decide (f.first ≤ word) && decide (word < f.first + f.count)
  | none => false

/-- An engine with nothing loaded. -/
def Engine.empty : Engine :=
  { on := false, imem := [], x := [], ya := [], yb := [], smp := RegBank.zero, bg := RegBank.zero
    lc := 0, ls := 0, le := 0, rc := 0, st := 0, pc := 0, saveLc := 0, saveLs := 0, saveLe := 0
    aOld := List.replicate 4 0, stOld := 0, late := [], br := none, phase := .idle, preReq := false, due := false, cyc := 0
    saved := false, savPc := 0, savSt := 0, savRc := 0, savBr := none, task := none, bgen := false, fltie := false, satie := false
    slen := 0, xb := 32768, fltCode := 0, fltFrame := 0, fltPc := 0, tfault := 0, wfault := 0
    bsv := false, bav := false, ssv := false, sav := false, w := 0, preLast := 0, preMax := 0
    act := false, xf := none, xfLogn := 0, xfFirst := 0, xfCount := 0, held := false }

end Sys2Proof.Machine
end

