-- ==== Sys2Proof/Machine/TimerUnit.lean ====
section
/-! DEFINITION. One timer: its registers, the fractional prescaler, counting, compare and capture (R361 to R370). -/

namespace Sys2Proof.Machine

/-- A timer. Register fields are numbers as the register tables code them. -/
structure Timer where
  run : Bool
  src : Nat
  dom : Nat
  edge : Nat
  cape : Nat
  out : Nat
  auto : Bool
  evt : Bool
  capie : Bool
  cmpie : Bool
  wrapie : Bool
  /-- DIV: INT in [31:16], FRAC in [15:0]. -/
  div : Nat
  acc : Nat
  cnt : Nat
  buf : Nat
  cmp : Nat
  intv : Nat
  phase : Nat
  capf : Bool
  ovr : Bool
  cmpf : Bool
  wrapf : Bool
  /-- Level of the timer's ball, as input or as output. -/
  pin : Bool
  evlost : Nat
  capFrame : Nat
  capCount : Nat
  /-- An offer of the event template that the carder has not accepted (R369). -/
  offer : Bool
  deriving DecidableEq, Repr, Inhabited

/-- A timer after reset. -/
def Timer.empty : Timer :=
  { run := false, src := 0, dom := 0, edge := 0, cape := 0, out := 0, auto := false, evt := false
    capie := false, cmpie := false, wrapie := false, div := 65536, acc := 0, cnt := 0, buf := 0xFFFFFFFF, cmp := 0
    intv := 1, phase := 0, capf := false, ovr := false, cmpf := false, wrapf := false, pin := false, evlost := 0
    capFrame := 0, capCount := 0, offer := false }

/-- R363: the prescaler at a source edge: whether it gives a count pulse, and the accumulator after it. -/
def prescale (div acc : Nat) : Bool × Nat :=
  let a := acc + 65536
  if div ≤ a then (true, a - div) else (false, a)

/-- R367: CMP after an auto-add. -/
def autoAdd (cmp intv buf : Nat) : Nat :=
  let t : Int := (cmp : Int) - intv
  let t := if t < 0 then t + buf + 1 else t
  unsigned 32 t

/-- R366, R367: a match. `auto`: auto-add applies in this mode. -/
def timerMatch (auto : Bool) (m : Timer) : Timer :=
  { m with
    cmpf := true
    pin := if m.out = 1 then !m.pin else if m.out = 2 then true else m.pin
    cmp := if m.auto && auto then autoAdd m.cmp m.intv m.buf else m.cmp }

/-- R369: an offer at a wrap; one still waiting is replaced and counted. `offers`: the timer has a template and the
mode lets it offer. -/
def timerOffer (offers : Bool) (m : Timer) : Timer :=
  if m.evt && offers then { m with offer := true, evlost := if m.offer then satInc 255 m.evlost else m.evlost } else m

/-- R364: CNT at a count pulse: a wrap, or one less. -/
def timerCount (offers : Bool) (m : Timer) : Timer :=
  if m.cnt = 0 then
    timerOffer offers { m with cnt := m.buf, wrapf := true, pin := if m.out = 2 then false else m.pin }
  else { m with cnt := m.cnt - 1 }

/-- R364, R366: a count pulse; a match acts after the wrap of the same pulse. -/
def timerPulse (auto offers : Bool) (m : Timer) : Timer :=
  let m' := timerCount offers m
  if m'.cnt = m'.cmp then timerMatch auto m' else m'

/-- R363: a source edge of a running timer. -/
def timerEdge (auto offers : Bool) (m : Timer) : Timer :=
  if m.run then
    let p := prescale m.div m.acc
    let m' := { m with acc := p.2 }
    if p.1 then timerPulse auto offers m' else m'
  else m

/-- R365: the timer starts. -/
def timerStart (m : Timer) : Timer :=
  { m with cnt := m.phase, acc := 0, run := true, pin := if m.out = 0 then m.pin else false }

/-- R368: a selected edge of the pin is seen in frame f. -/
def timerCapture (f : Nat) (m : Timer) : Timer :=
  { m with capCount := m.cnt, capFrame := f % 2 ^ 32, ovr := m.ovr || m.capf, capf := true }

/-- Whether a polarity code (0b01 rising, 0b10 falling, 0b11 both) selects an edge (CAPE). -/
def capSelects (code : Nat) (rising : Bool) : Bool := if rising then code == 1 || code == 3 else code == 2 || code == 3

/-- Whether EDGE selects an edge of the pin as the source (R362). -/
def edgeSelects (code : Nat) (rising : Bool) : Bool := if rising then code == 0 || code == 2 else code == 1 || code == 2

/-- R370: whether the timer's interrupt condition holds. -/
def timerInt (m : Timer) : Bool := (m.wrapf && m.wrapie) || (m.cmpf && m.cmpie) || ((m.capf || m.ovr) && m.capie)

/-- TMR_CTL as read. -/
def Timer.ctl (m : Timer) : Nat :=
  place (b2n m.run) 1 31 + place m.src 2 28 + place m.dom 2 26 + place m.edge 2 24 + place m.cape 2 22 + place m.out 2 20 +
  place (b2n m.auto) 1 19 + place (b2n m.evt) 1 18 + place (b2n m.capie) 1 11 + place (b2n m.cmpie) 1 10 + place (b2n m.wrapie) 1 9

/-- TMR_STAT as read. -/
def Timer.stat (m : Timer) : Nat :=
  place (b2n m.capf) 1 31 + place (b2n m.ovr) 1 30 + place (b2n m.cmpf) 1 29 + place (b2n m.wrapf) 1 28 +
  place (b2n m.pin) 1 27 + place m.evlost 8 8

/-- TMR_CTL written: the RW fields are stored and STOP acts (R365). -/
def Timer.setCtl (v : Nat) (m : Timer) : Timer :=
  { m with
    run := if bitAt v 30 then false else m.run
    src := bits v 29 28, dom := bits v 27 26, edge := bits v 25 24, cape := bits v 23 22, out := bits v 21 20
    auto := bitAt v 19, evt := bitAt v 18, capie := bitAt v 11, cmpie := bitAt v 10, wrapie := bitAt v 9 }

end Sys2Proof.Machine
end

