-- ==== Sys2Proof/Machine/TwinTypes.lean ====
section
/-! DEFINITION. The plain data of the twin link (chapter 13). -/

namespace Sys2Proof.Machine

/-- A change of holder that each interface makes at the start of its frame of a given number (R286, R291). -/
structure HandOver where
  /-- Number of the first interface frame that the new holder drives. -/
  at_ : Nat
  /-- This chip becomes the holder. -/
  take : Bool
  deriving DecidableEq, Repr, Inhabited

/-- The twin link. -/
structure Twin where
  /-- TWIN_CTL. -/
  pair : Bool
  roleOvr : Bool
  role : Bool
  misie : Bool
  tkie : Bool
  linkie : Bool
  /-- TWIN_STAT. -/
  paired : Bool
  lead : Bool
  holder : Bool
  instep : Bool
  retired : Bool
  partner : Bool
  linkup : Bool
  strap : Bool
  mismatch : Bool
  took : Bool
  yielded : Bool
  outstep : Bool
  cause : Nat
  result : Nat
  /-- TWIN_CNT. -/
  markerr : Nat
  lateent : Nat
  discard : Nat
  mismN : Nat
  misf : Nat
  seq : Nat
  tkf : Nat
  /-- This chip pulls FAULT_N low. -/
  pull : Bool
  /-- FAULT_N has been seen low. -/
  faultN : Bool
  /-- The chip has entered a running mode since its last blocking (R275). -/
  hasRun : Bool
  /-- Time of the PAIR write, while pairing is under way. -/
  pairAt : Option Nat
  /-- Link entries sent or accepted since the previous mark, for ECRC (R281). -/
  entries : List EvRec
  /-- The last mark sent, and the link entries that a lead forwarded before it and after the mark that preceded it, in
  order (R278); those since then are `entries`. -/
  markOut : Words
  linkOut : List EvRec
  /-- Own SEQ and ECRC at the last close, for the shadow's check (R282). -/
  seqClose : Nat
  ecrcClose : Nat
  /-- Digest of the last frame completed and its number (R283). -/
  digest : Nat
  digestF : Nat
  /-- START and STOP are to be set in the next mark; the mark that carries them has been sent (R276). -/
  startReq : Bool
  startSent : Bool
  stopReq : Bool
  stopSent : Bool
  /-- The shadow has received START or STOP (R276). -/
  startRx : Bool
  stopRx : Bool
  /-- Time of the last valid partner mark (R285). -/
  markAt : Option Nat
  /-- Frame in which a swap was accepted (R291). -/
  swapAt : Option Nat
  /-- Fault frame F of a yield under way (R286). -/
  yieldAt : Option Nat
  /-- Mark loss has been detected in this cycle: takeover at the next window close (R287). -/
  takeNext : Option Nat
  /-- FAULT_N low seen with this FRAME_CNT: takeover when the next window closes (R286). -/
  takeYield : Option Nat
  /-- Interfaces change holder. -/
  handOver : Option HandOver
  /-- CV outputs are driven by this chip. -/
  cvHolder : Bool
  /-- Acceptance from own sources has stopped (R286, R291). -/
  shut : Bool
  /-- Time of the last acceptance from an own source (R277). -/
  accAt : Option Nat
  /-- This chip has taken over since it was paired: it discards and counts later link entries (R287). -/
  tookOver : Bool
  /-- TWIN_CTL has been written since reset: the lanes have left electrical idle (R430). -/
  written : Bool
  deriving DecidableEq, Repr, Inhabited

/-- What an audio data output carries (R32). -/
inductive OutDrive where
  | highZ
  | zero
  /-- The outputs of the frames, or the last samples repeated in HOLD (R257). -/
  | samples
  /-- As a test in SERVICE sets it. -/
  | test
  deriving DecidableEq, Repr

/-- The twin link after a reset, for a sampled strap. -/
def Twin.reset (strap : Bool) : Twin :=
  { pair := false, roleOvr := false, role := false, misie := false, tkie := false, linkie := false
    paired := false, lead := strap, holder := false, instep := false, retired := false, partner := false, linkup := false
    strap := strap, mismatch := false, took := false, yielded := false, outstep := false, cause := 0, result := 0
    markerr := 0, lateent := 0, discard := 0, mismN := 0, misf := 0, seq := 0, tkf := 0, pull := false, faultN := false
    hasRun := false, pairAt := none, entries := [], markOut := [0, 0, 0, 0, 0], linkOut := [], seqClose := 0, ecrcClose := 0
    digest := 0, digestF := 0, startReq := false, startSent := false, stopReq := false, stopSent := false
    startRx := false, stopRx := false, markAt := none, swapAt := none, yieldAt := none, takeNext := none, takeYield := none
    handOver := none, cvHolder := true, shut := false, accAt := none, tookOver := false, written := false }

end Sys2Proof.Machine
end

