-- ==== Sys2Proof/Machine/UartUnit.lean ====
section
/-! DEFINITION. One UART: the receiver's bit decisions, the queues, ring entries, DMX512-A and RDM packets, the
transmitter, and the MIDI parser of the firmware service (R371 to R383). -/

namespace Sys2Proof.Machine

/-- A received character in the receive queue: its queue entry (R373), the frame stamp of its completion, and in
frame mode its slot and packet marks (R376). -/
structure RxChar where
  word : HWord
  stamp : Nat
  slot : Nat
  start : Bool
  fin : Bool
  ckerr : Bool
  /-- The ring entry that holds it closes after it. -/
  close : Bool
  deriving DecidableEq, Repr, Inhabited

/-- A packet being received in frame mode (R378, R379). -/
structure Packet where
  /-- Index of the next slot. -/
  slot : Nat
  startCode : Nat
  sum : Nat
  /-- RDM message length, once slot 2 has been received. -/
  len : Nat
  hi : Nat
  /-- Characters beyond slot 512 have been counted. -/
  ovr : Bool
  deriving DecidableEq, Repr, Inhabited

/-- What the transmitter sends. -/
inductive TxItem where
  | byte (b : Byte)
  | brk
  | mab
  deriving DecidableEq, Repr, Inhabited

/-- The MIDI parser and its counts (R381). -/
structure Midi where
  /-- Running status, 0 for none; data bytes collected; inside a system exclusive message. -/
  status : Nat
  data : List Nat
  sysex : Bool
  parsed : Nat
  unmapped : Nat
  late : Nat
  discarded : Nat
  deriving DecidableEq, Repr, Inhabited

/-- The counts of the DMX service (R382). -/
structure DmxStat where
  packets : Nat
  ckerrs : Nat
  lastCode : Nat
  lastSlots : Nat
  /-- Slot values of the packet being read from the ring. -/
  slots : List Nat
  deriving DecidableEq, Repr, Inhabited

/-- A UART. Register fields are numbers as the register tables code them. -/
structure Uart where
  en : Bool
  mode : Bool
  compat : Bool
  wake : Bool
  dbits : Nat
  par : Nat
  stop2 : Bool
  echo : Bool
  qsize : Nat
  rxtrig : Nat
  txtrig : Nat
  errie : Bool
  txie : Bool
  rxie : Bool
  div : Nat
  tbrk : Nat
  tmab : Nat
  dead : Bool
  low : Bool
  de : Bool
  txbad : Bool
  ovr : Nat
  ferr : Nat
  falseN : Nat
  dmxerr : Nat
  rxq : List RxChar
  txq : List Byte
  /-- Nothing is stored until the line has been high for 16 samples (R374). -/
  silent : Bool
  pkt : Option Packet
  sending : Option TxItem
  /-- The bits of the frame that is being sent, one level a bit time (R371); none for a break or a mark. -/
  frame : List Bool
  /-- What is left of the UART_TX entry being sent, the sum of the packet's bytes and its start code (R378, R379). -/
  items : List TxItem
  txSum : Nat
  txCode : Nat
  midi : Midi
  dmx : DmxStat
  deriving DecidableEq, Repr, Inhabited

/-- A UART after reset. -/
def Uart.empty : Uart :=
  { en := false, mode := false, compat := false, wake := false, dbits := 3, par := 0, stop2 := false, echo := false
    qsize := 0, rxtrig := 8, txtrig := 1, errie := false, txie := false, rxie := false, div := 0x0624DD2F, tbrk := 0x2C
    tmab := 0x10, dead := false, low := false, de := false, txbad := false, ovr := 0, ferr := 0, falseN := 0, dmxerr := 0
    rxq := [], txq := [], silent := false, pkt := none, sending := none, frame := [], items := [], txSum := 0, txCode := 0
    midi := ⟨0, [], false, 0, 0, 0, 0⟩, dmx := ⟨0, 0, 0, 0, []⟩ }

/-- R375: entries of each queue. -/
def Uart.size (u : Uart) : Nat := 16 * 2 ^ u.qsize
/-- A trigger level: 128 is coded as 0. -/
def trigOf (c : Nat) : Nat := if c = 0 then 128 else c

/-! ## Receiving (R372 to R375) -/

/-- Samples 7, 8 and 9 of one bit. -/
abbrev BitSamples := BitVec 3

/-- R372: the majority of the three samples. -/
def majority (s : BitSamples) : Bool := 2 ≤ b2n (s.getLsbD 0) + b2n (s.getLsbD 1) + b2n (s.getLsbD 2)
/-- Whether the three samples agree. -/
def unanimous (s : BitSamples) : Bool := s == 0 || s == 7

/-- Data bits, and bits of a character up to the first stop bit. -/
def Uart.dataBits (u : Uart) : Nat := 5 + u.dbits
def Uart.charBits (u : Uart) : Nat := 1 + u.dataBits + (if u.par = 0 then 0 else 1) + 1

/-- R372, R373: the decided bits of a character, start bit first; samples not given are high. -/
def Uart.decided (u : Uart) (ss : List BitSamples) : List Bool := (List.range u.charBits).map fun i => majority (ss.getD i 7)

/-- R373: the data of the decided bits. -/
def Uart.charData (u : Uart) (bs : List Bool) : Nat :=
  (List.range u.dataBits).foldl (fun a i => a + b2n (bs.getD (i + 1) false) * 2 ^ i) 0

/-- R373: the tag of a character. -/
def Uart.charTag (u : Uart) (ss : List BitSamples) : Nat :=
  let bs := u.decided ss
  let ones := ((List.range (u.dataBits + 1)).filter fun i => bs.getD (i + 1) false).length
  if bs.all (!·) then 4
  else if !bs.getD (u.charBits - 1) true then 3
  else if u.par = 1 && ones % 2 == 1 then 2
  else if u.par = 2 && ones % 2 == 0 then 2
  else if (List.range u.charBits).any fun i => !unanimous (ss.getD i 7) then 1 else 0

/-- R373: the queue entry of a tag and data. -/
def queueEntry (tag data : Nat) : HWord := BitVec.ofNat 16 (place tag 3 8 + place data 8 0)

/-- R375: store a character; an overrun discards it or overwrites the newest entry. -/
def Uart.store (c : RxChar) (u : Uart) : Uart :=
  if u.rxq.length < u.size then { u with rxq := u.rxq ++ [c] }
  else { u with ovr := satInc 255 u.ovr, rxq := if u.compat then u.rxq.dropLast ++ [c] else u.rxq }

/-- R374: the line has been low for one character time: in asynchronous mode one break entry, then silence. -/
def uartBreak (stamp : Nat) (u : Uart) : Uart :=
  let u := if u.mode then u else ({ u with ferr := satInc 255 u.ferr }).store ⟨queueEntry 4 0, stamp, 0, false, false, false, false⟩
  { u with silent := true }

/-- R377: the receiver ignores RX. -/
def Uart.ignores (u : Uart) : Bool := u.de && !u.echo

/-- R374: LOW follows the line; R372: its level after the last sample that a character's bits give. -/
def Uart.setLow (low : Bool) (u : Uart) : Uart := { u with low := low }
def Uart.lastLow (ss : List BitSamples) (u : Uart) : Bool :=
  !(if majority (ss.getD 0 7) then ss.getD 0 7 else ss.getD (u.charBits - 1) 7).getLsbD 2

/-- R378, R379: one character of a packet in frame mode. -/
def uartSlot (stamp tag data : Nat) (u : Uart) : Uart :=
  match u.pkt with
  | none => u
  | some p =>
    if 512 < p.slot then
      { u with pkt := some { p with ovr := true }, dmxerr := if p.ovr then u.dmxerr else satInc 255 u.dmxerr }
    else
      let k := p.slot
      let code := if k = 0 then data else p.startCode
      let rdm : Bool := code == 0xCC
      let len := if k = 2 then data else p.len
      let short : Bool := rdm && k == 2 && decide (data < 3)
      let last : Bool := rdm && decide (3 ≤ k) && k == len + 1
      let bad : Bool := last && (p.hi * 256 + data != p.sum % 65536)
      let fin := short || last
      let u := u.store ⟨queueEntry tag data, stamp, k, k == 0, fin, short || bad, fin⟩
      let sum := if rdm && decide (3 ≤ k) && decide (len ≤ k) then p.sum else p.sum + data
      let hi := if rdm && k == len then data else p.hi
      { u with pkt := if fin then none else some ⟨k + 1, code, sum, len, hi, p.ovr⟩ }

/-- R372 to R379: one character, from its samples. -/
def uartReceive (stamp : Nat) (ss : List BitSamples) (u : Uart) : Uart :=
  let u := u.setLow (u.lastLow ss)
  if !u.en || u.silent || u.ignores then u
  else if majority (ss.getD 0 7) then { u with falseN := satInc 255 u.falseN }
  else
    let tag := u.charTag ss
    let data := u.charData (u.decided ss)
    if tag = 4 then uartBreak stamp u
    else
      let u := if tag = 3 then { u with ferr := satInc 255 u.ferr } else u
      if u.mode then uartSlot stamp tag data u else u.store ⟨queueEntry tag data, stamp, 0, false, false, false, false⟩

/-- R376: the entry that holds the newest character closes. -/
def uartClose (fin : Bool) (u : Uart) : Uart :=
  match u.rxq.getLast? with
  | some c => { u with rxq := u.rxq.dropLast ++ [{ c with close := true, fin := c.fin || fin }] }
  | none => u

/-- R378: the packet under way ends. -/
def uartPacketEnd (u : Uart) : Uart :=
  match u.pkt with
  | some p => if p.slot = 0 then { u with pkt := none } else { uartClose true u with pkt := none }
  | none => u

/-- R378: a low of `lowUs` microseconds in frame mode; `highUs`: the following high, none while the line is still low. END
applies when the break begins, that is, as soon as the low is long enough. -/
def uartDmxBreak (lowUs : Nat) (highUs : Option Nat) (u : Uart) : Uart :=
  let u := u.setLow highUs.isNone
  if !u.en || !u.mode || u.ignores || lowUs < 88 then u
  else
    let u := uartPacketEnd u
    match highUs with
    | none => u
    | some h =>
      let u := { u with silent := u.silent && decide (h < 4) }
      if 8 ≤ h then { u with pkt := some ⟨0, 0, 0, 0, 0, false⟩ } else { u with dmxerr := satInc 255 u.dmxerr }

/-- R374, R378: the line is still low after 256 bit times, or after 1.0 s in frame mode, where that low is a break too. -/
def uartDead (u : Uart) : Uart :=
  let u := u.setLow true
  if !u.en || u.ignores then u else { (if u.mode then uartPacketEnd u else u) with dead := true }

/-! ## The UART_RX ring entry (R376) -/

/-- The characters of the next entry: up to n, or up to one after which the entry closes; and whether it is complete. -/
def takeChars : Nat → List RxChar → List RxChar × Bool
  | 0, _ => ([], true)
  | _, [] => ([], false)
  | n + 1, c :: t =>
    if c.close then ([c], true)
    else
      let r := takeChars n t
      (c :: r.1, r.2)

/-- R376: word 0 and the seven data words of an entry. -/
def rxEntryWords (cs : List RxChar) : Words :=
  match cs with
  | [] => []
  | c :: _ =>
    let e := cs.getLast?.getD c
    let w0 := place c.stamp 15 17 + place (b2n e.ckerr) 1 16 + place c.slot 10 6 + place (b2n c.start) 1 5 + place (b2n e.fin) 1 4 + place cs.length 4 0
    let half := fun (k : Nat) => match cs[k]? with | some x => x.word.toNat | none => 0
    BitVec.ofNat 32 w0 :: (List.range 7).map fun i => BitVec.ofNat 32 (half (2 * i) + 2 ^ 16 * half (2 * i + 1))

/-- R376: the complete entry at the head of the queue, and the UART without its characters. -/
def uartEntry (u : Uart) : Option (Words × Uart) :=
  let r := takeChars (min (trigOf u.rxtrig) 14) u.rxq
  if r.2 && !r.1.isEmpty then some (rxEntryWords r.1, { u with rxq := u.rxq.drop r.1.length }) else none

/-! ## Transmitting (R371, R376 to R379) -/

/-- R376: whether a UART_TX entry is sent, or skipped whole. -/
def txEntryOk (mode : Bool) (e : Words) : Bool :=
  let c := Words.fld e 0 4 0
  decide (1 ≤ c) && decide (c ≤ 28) && Words.fld e 0 31 10 == 0 && Words.fld e 0 7 5 == 0 && (mode || Words.fld e 0 9 8 == 0)

/-- R376, R378, R379: take a UART_TX entry: break and mark-after-break, its bytes, and the RDM checksum. -/
def uartTakeEntry (e : Words) (u : Uart) : Uart :=
  if txEntryOk u.mode e then
    let bs := (wordBytes (e.drop 1)).take (Words.fld e 0 4 0)
    let first := Words.fld e 0 8 8 == 1
    let code := if first then (bs.getD 0 0).toNat else u.txCode
    let sum := (if first then 0 else u.txSum) + (bs.map (·.toNat)).sum
    let ck : List Byte := if Words.fld e 0 9 9 = 1 ∧ code = 0xCC then [BitVec.ofNat 8 (sum / 256), BitVec.ofNat 8 sum] else []
    { u with items := (if first then [TxItem.brk, TxItem.mab] else []) ++ (bs ++ ck).map .byte, txSum := sum, txCode := code }
  else { u with txbad := true }

/-- R371: the frame of a byte: start bit, data bits from the least significant, parity bit, stop bits. The parity bit makes
the number of ones even or odd (R373). -/
def Uart.frameOf (b : Byte) (u : Uart) : List Bool :=
  let data := (List.range u.dataBits).map fun i => bitAt b.toNat i
  let odd := (data.filter id).length % 2 == 1
  [false] ++ data ++ (if u.par = 0 then [] else [if u.par = 1 then odd else !odd]) ++ (if u.stop2 then [true, true] else [true])

/-- R371, R378: an item begins to be sent, with DE high (R377). -/
def Uart.begin (i : TxItem) (u : Uart) : Uart :=
  { u with sending := some i, frame := (match i with | .byte b => u.frameOf b | _ => []), de := true }

/-- R371, R378: the level of UARTu_TX in bit time k of what is sent: idle is high. -/
def Uart.txLevel (k : Nat) (u : Uart) : Bool :=
  match u.sending with
  | some (.byte _) => u.frame.getD k true
  | some .brk => false
  | _ => true

/-- R371, R378: how long the item lasts, in bit times of a frame or in microseconds of a break or a mark. -/
def Uart.itemTime (u : Uart) : Nat :=
  match u.sending with
  | some (.byte _) => u.frame.length
  | some .brk => 4 * u.tbrk
  | some .mab => u.tmab
  | none => 0

/-- R377: DE falls; a receiver that ignored RX is re-armed. -/
def uartIdle (u : Uart) : Uart := { u with sending := none, frame := [], de := false, silent := u.silent && !u.ignores }

/-- R371, R377: the transmitter completes what it sends and takes the next item, if any. -/
def uartSendNext (u : Uart) : Uart :=
  match u.items with
  | i :: t => ({ u with items := t }).begin i
  | [] =>
    match u.txq with
    | b :: t => ({ u with txq := t }).begin (.byte b)
    | [] => uartIdle u

/-- R375: EN = 0. -/
def uartOff (u : Uart) : Uart := { uartIdle u with en := false, rxq := [], txq := [], items := [], pkt := none }

/-- R381: a UART that firmware has claimed for MIDI runs asynchronously at 31 250 baud, 8N1; the other fields keep the values
they have after reset. -/
def Uart.forMidi : Uart := { Uart.empty with en := true, div := 1572 * 2 ^ 16 + 56623 }

/-- R382, R378: a UART claimed for DMX is in frame mode: 250 kbaud, 8 data bits, no parity, two stop bits. -/
def Uart.forDmx : Uart := { Uart.empty with en := true, mode := true, stop2 := true, div := 196 * 2 ^ 16 + 39846 }

/-- R383: the interrupt condition; `rxRing`, `txRing`: rings are assigned. -/
def uartInt (rxRing txRing : Bool) (u : Uart) : Bool :=
  (u.rxie && !rxRing && decide (trigOf u.rxtrig ≤ u.rxq.length)) ||
  (u.txie && !txRing && decide (trigOf u.txtrig ≤ u.size - u.txq.length)) ||
  (u.errie && (u.dead || u.txbad || u.ovr != 0))

/-! ## Registers -/

/-- UART_CFG as read. -/
def Uart.cfg (u : Uart) : Nat :=
  place (b2n u.en) 1 31 + place (b2n u.mode) 1 30 + place (b2n u.compat) 1 29 + place (b2n u.wake) 1 28 + place u.dbits 2 26 +
  place u.par 2 24 + place (b2n u.stop2) 1 23 + place (b2n u.echo) 1 22 + place u.qsize 2 20 + place u.rxtrig 7 13 +
  place u.txtrig 7 6 + place (b2n u.errie) 1 2 + place (b2n u.txie) 1 1 + place (b2n u.rxie) 1 0

/-- UART_CFG written. -/
def Uart.setCfg (v : Nat) (u : Uart) : Uart :=
  let u := { u with
    mode := bitAt v 30, compat := bitAt v 29, wake := bitAt v 28, dbits := bits v 27 26, par := bits v 25 24
    stop2 := bitAt v 23, echo := bitAt v 22, qsize := bits v 21 20, rxtrig := bits v 19 13, txtrig := bits v 12 6
    errie := bitAt v 2, txie := bitAt v 1, rxie := bitAt v 0 }
  if bitAt v 31 then { u with en := true } else uartOff u

/-- UART_STAT as read. -/
def Uart.stat (u : Uart) : Nat :=
  place (b2n u.dead) 1 31 + place (b2n u.low) 1 30 + place (b2n u.sending.isSome) 1 29 + place (b2n u.de) 1 28 +
  place (b2n u.txbad) 1 27 + place u.rxq.length 8 16 + place (u.size - u.txq.length) 8 8

/-- UART_CNT as read. -/
def Uart.cntReg (u : Uart) : Nat := place u.ovr 8 24 + place u.ferr 8 16 + place u.falseN 8 8 + place u.dmxerr 8 0

/-! ## The MIDI parser (R381) -/

/-- Data bytes of a MIDI 1.0 message by its status byte. -/
def midiLength (st : Nat) : Nat :=
  if st < 0xF0 then (if st / 16 = 0xC ∨ st / 16 = 0xD then 1 else 2)
  else if st = 0xF1 ∨ st = 0xF3 then 1 else if st = 0xF2 then 2 else 0

/-- One queue entry through the parser: the new parser and the message it completes. -/
def midiChar (w : HWord) (m : Midi) : Midi × Option (List Nat) :=
  let tag := bits w.toNat 10 8
  let b := bits w.toNat 7 0
  let drop := { m with discarded := (m.discarded + 1) % 2 ^ 32 }
  let done := fun (m : Midi) (msg : List Nat) => ({ m with parsed := (m.parsed + 1) % 2 ^ 32 }, some msg)
  if tag = 4 then ({ m with status := 0, data := [] }, none)
  else if 2 ≤ tag then (drop, none)
  else if 0xF8 ≤ b then (if b = 0xF9 ∨ b = 0xFD then (drop, none) else done m [b])
  else if b = 0xF7 then (if m.sysex then done { m with sysex := false } [0xF0] else (drop, none))
  else if b = 0xF4 ∨ b = 0xF5 then ({ drop with status := 0, data := [], sysex := false }, none)
  else if b = 0xF0 then ({ m with status := 0, data := [], sysex := true }, none)
  else if 0x80 ≤ b then
    let m := { m with sysex := false, data := [] }
    if midiLength b = 0 then done { m with status := 0 } [b] else ({ m with status := b }, none)
  else if m.sysex then (m, none)
  else if m.status = 0 then (drop, none)
  else
    let d := m.data ++ [b]
    if d.length = midiLength m.status then
      done { m with data := [], status := if 0xF0 ≤ m.status then 0 else m.status } (m.status :: d)
    else ({ m with data := d }, none)

end Sys2Proof.Machine
end

