-- ==== Sys2Proof/Machine/UnitTypes.lean ====
section
/-! DEFINITION. The plain data of the carder, the buses, blocking, audio ports and their groups, modes, faults,
fuses and the test access port. -/

namespace Sys2Proof.Machine

/-! ## Frames and the carder (chapter 2) -/

/-- Frame numbering and the frame under way. -/
structure FrameSt where
  /-- FRAME_CNT and FRAME_START. -/
  cnt : Nat
  start : Nat
  /-- First frame of the running period. -/
  first : Nat
  /-- A frame has been computed in this running period. -/
  ran : Bool
  /-- Frame `cnt` has started and its step 5 is still to come (R17). -/
  open_ : Bool
  /-- Time at which its tick entered the synchroniser. -/
  tickAt : Nat
  deriving DecidableEq, Repr, Inhabited

/-- A start buffer (R128): for each oscillator, the lines of each read plane. -/
abbrev StartBuf := List (List (List Line))

/-- An accepted event that has not been applied (R41 to R47). -/
structure PendEv where
  rec_ : EvRec
  seq : Nat
  src : Source
  /-- Effective stamp (R46). -/
  eff : Nat
  late : Bool
  deferred : Bool
  sbuf : Option StartBuf
  deriving DecidableEq, Repr, Inhabited

/-- A member of a commit set (R49). -/
structure Member where
  rec_ : EvRec
  seq : Nat
  src : Source
  deriving DecidableEq, Repr, Inhabited

/-- The carder. -/
structure Carder where
  /-- Pending store, in sequence order. -/
  store : List PendEv
  /-- Commit sets 1-15, at index n-1. -/
  sets : List (List Member)
  seq : Nat
  applied : Nat
  loglost : Nat
  late : Nat
  defer : Nat
  disc : Nat
  /-- Greatest number of start buffers in use since STRM_STAT.SBUF_PEAK was read. -/
  sbufPeak : Nat
  /-- Offers that wait at their sources, oldest first, apart from ring entries and timer offers (R277). -/
  wait : List (Source × EvRec)
  /-- Sources that have had their turn in the round under way (R40). -/
  served : List Source
  /-- Time up to which every offer that could be accepted has been. -/
  upTo : Nat
  deriving DecidableEq, Repr, Inhabited

def Carder.empty : Carder := ⟨[], List.replicate 15 [], 0, 0, 0, 0, 0, 0, 0, [], [], 0⟩

/-- DET_STAT, and whether FAULT, WINWRITE or BGWRITE has occurred since entry into the running mode (R64). -/
structure Det where
  moved : Bool
  hold : Bool
  fault : Bool
  winwrite : Bool
  bgwrite : Bool
  void_ : Bool
  deriving DecidableEq, Repr, Inhabited

def Det.empty : Det := ⟨false, false, false, false, false, false⟩

/-! ## Buses (chapter 7) -/

/-- A bus meter (R177). -/
structure Meter where
  en : Bool
  w : Nat
  bus : Nat
  /-- A change of BUS_MSEL that takes effect at the next window close. -/
  next : Option (Bool × Nat × Nat)
  peak : Nat
  ms : Nat
  clip : Nat
  sum : Nat
  count : Nat
  /-- The window of 2^W frames is complete and MS is to be updated. -/
  full : Bool
  deriving DecidableEq, Repr, Inhabited

/-- The buses. -/
structure BusSt where
  /-- Values of the frame (R21) and accumulators (R174), by bus. -/
  val : Store Int
  acc : Store Int
  sat : Bool
  first : Nat
  meters : List Meter
  deriving DecidableEq, Repr, Inhabited

def BusSt.empty : BusSt := ⟨[], [], false, 0, List.replicate 16 ⟨false, 0, 0, none, 0, 0, 0, 0, 0, false⟩⟩

/-! ## Blocking (chapter 3) -/

/-- Blocking. -/
structure Block where
  /-- BLOCK_CTL.SRC and QADDR. -/
  src : Nat
  qaddr : Nat
  /-- In LOAD: the mode in which blocking began. -/
  from_ : Mode
  stage : Nat
  need : Bool
  result : Nat
  failEntry : Nat
  failOff : Nat
  /-- HOOD_FIFO, oldest first, and the words the loader has taken from it in this pass. -/
  fifo : Words
  got : Words
  /-- Time since which the FIFO is empty while NEED = 1. -/
  emptyAt : Nat
  /-- After pass 1: the image's header and directory, and the structure it describes. -/
  head : List Byte
  body : Option Hood
  /-- Of the installed hood: SHA-256 of its signed message (R71), and the size of its hood copy in MB (R82). -/
  digest : List Byte
  copyMb : Nat
  /-- Bytes of the hood copy, and its SHA-256, held in AON retention (R82). -/
  copyLen : Nat
  copyDigest : List Byte
  deriving DecidableEq, Repr, Inhabited

def Block.empty : Block := ⟨0, 0, .loader, 0, false, 0, 0, 0, [], [], 0, [], none, [], 0, 0, []⟩

/-! ## Audio ports (chapter 11) -/

/-- A serial audio port. -/
structure Sap where
  iface : Iface
  osat : Bool
  framerr : Nat
  /-- Slot words of both output lines in the frame under way, and in the frame before (R240, R242). -/
  sent : List Words
  before : List Words
  deriving DecidableEq, Repr, Inhabited

def Sap.empty : Sap := ⟨Iface.empty, false, 0, [], []⟩

/-- An alignment group (R248): `trig` is the time of a trigger that waits for its tick. -/
structure AudGrp where
  started : Bool
  arm : Bool
  trig : Option Nat
  gstart : Nat
  deriving DecidableEq, Repr, Inhabited

def AudGrp.empty : AudGrp := ⟨false, false, none, 0⟩

/-- Audio interfaces and PDM control. -/
structure AudioSt where
  saps : List Sap
  grps : List AudGrp
  rx : List AesRx
  tx : List AesTx
  pdm : List Pdm
  /-- PDM_CTL.BANK is in each group; PDM_DCFRZ and PDM_CSEL. -/
  frz : Nat
  selGroup : Nat
  selBank : Nat
  selWord : Nat
  /-- Since when the interfaces are set up. -/
  since : Nat
  deriving DecidableEq, Repr, Inhabited

def AudioSt.empty : AudioSt :=
  ⟨List.replicate 8 Sap.empty, List.replicate 4 AudGrp.empty, List.replicate 4 AesRx.empty, List.replicate 4 AesTx.empty,
   List.replicate 4 Pdm.empty, 0, 0, 0, 0, 0⟩

/-! ## Modes, resets, faults (chapter 19) -/

/-- Mode, its requests, and resets. -/
structure ModeSt where
  mode : Mode
  /-- The running mode that HOLD came from, and the mode that HANDOVER came from. -/
  holdFrom : Mode
  hoFrom : Mode
  /-- Acceptance time of a RUN that waits for its tick. -/
  pend : Option Nat
  /-- A restore of fuller memories runs (R184). -/
  rest : Bool
  /-- A STOP has been accepted. -/
  stop : Bool
  cause : Nat
  crst : Nat
  wdg : Nat
  /-- The control-core watchdog has expired once (R412). -/
  expired : Bool
  /-- In SLEEP: the wake instant, once a wake event is sampled; whether the hood copy is of use; the code copy, and its SHA-256
  held in AON retention (R408). -/
  wakeAt : Option Nat
  /-- UARTs whose wake detector has fired and is not re-armed (R380). -/
  wakeFired : List Nat
  hoodCopy : Bool
  codeCopy : Option Memory
  codeDigest : List Byte
  deriving DecidableEq, Repr, Inhabited

/-- An entry of the fault log (R418). -/
structure FaultEntry where
  cls : Nat
  unit : Nat
  resp : Nat
  frame : Nat
  deriving DecidableEq, Repr, Inhabited

/-- A domain restart (R416): waiting for the window close that holds the unit, reloading, or complete. -/
inductive RestartPhase where
  | none | asked | held | complete
  deriving DecidableEq, Repr, Inhabited

/-- Faults, monitoring and domain restarts. -/
structure FaultSt where
  log : List FaultEntry
  ovf : Bool
  eccsafe : Bool
  vcsafe : Bool
  engsafe : Bool
  thermal : Bool
  /-- Domains with a power fault still present, as a mask. -/
  power : Nat
  dce : Nat
  due : Nat
  sce : Nat
  temp : Int
  tmax : Int
  twarn : Int
  /-- Consecutive readings at or above 160 degrees, VMID readings out of range, and in range. -/
  hot : Nat
  vbad : Nat
  vgood : Nat
  vmid : Bool
  /-- DOM_RST.KIND and INDEX as written, and of the restart under way. -/
  selKind : Bool
  selIndex : Nat
  rstKind : Bool
  rstIndex : Nat
  restart : RestartPhase
  deriving DecidableEq, Repr, Inhabited

def FaultSt.empty : FaultSt :=
  { log := [], ovf := false, eccsafe := false, vcsafe := false, engsafe := false, thermal := false, power := 0
    dce := 0, due := 0, sce := 0, temp := 0, tmax := 0, twarn := 0x8C0, hot := 0, vbad := 0, vgood := 0, vmid := false
    selKind := false, selIndex := 0, rstKind := false, rstIndex := 0, restart := .none }

/-- CV outputs apart from the channels' own state. -/
structure CvSt where
  chans : List Cv
  fie : Nat
  mon : List Nat
  /-- CV_TRIM words in force. -/
  trim : List Nat
  svcEn : Bool
  svcCh : Nat
  svcCode : Nat
  deriving DecidableEq, Repr, Inhabited

def CvSt.empty : CvSt :=
  ⟨List.replicate 16 (Cv.init default), 0, List.replicate 20 0, List.replicate 16 0, false, 0, 0⟩

/-- The fuses. -/
structure Fuses where
  /-- SHA-256 of the owner's key, and the lock fuse (R73). -/
  owner : List Byte
  lock : Bool
  /-- Revocation fuses of the tool keys and of the firmware keys, as masks. -/
  toolRevoked : Nat
  fwRevoked : Nat
  /-- Blown epoch fuses (R350). -/
  epoch : Nat
  cvPol : Nat
  trim : List Nat
  deriving DecidableEq, Repr, Inhabited

/-- Unblown fuses. -/
def Fuses.empty : Fuses := ⟨List.replicate 32 0, false, 0, 0, 0, 0, List.replicate 16 0⟩

/-! ## The test access port (chapter 20) -/

/-- Instructions of the test access port (R432). -/
inductive TapIns where
  | bypass | idcode | sample | extest | clamp | highz
  deriving DecidableEq, Repr, Inhabited

/-- The test access port (R432): TRST_N is low, the instruction, the update stage of the boundary register, and the bits of
the last scan on TDO. -/
structure Tap where
  trst : Bool
  ins : TapIns
  cells : List Bool
  out : List Bool
  deriving DecidableEq, Repr, Inhabited

/-- R432: length of the boundary register. -/
def boundaryCells : Nat := 402

/-- The port while TRST_N is held low by its pull-down (R423). -/
def Tap.empty : Tap := ⟨true, .idcode, List.replicate boundaryCells false, []⟩

end Sys2Proof.Machine
end

