-- ==== Sys2Proof/Machine/State.lean ====
section
/-! DEFINITION. The state of the block, all of it plain data, and its value right after reset. -/

namespace Sys2Proof.Machine

/-- Why a command stops without a next state. -/
inductive Fault where
  /-- The command's operands name something that no part has, such as slot 20 of the monitoring converter or core 20
  of the scheduler; raised by the commands whose operand types cannot rule that out. Safe: nothing outside the model
  can give such a command. -/
  | illFormed (mnemonic : String)
  deriving DecidableEq, Repr

/-- Why a command is refused. -/
inductive Refusal where
  /-- The model gives the command no meaning yet; raised by its arm alone. Safe: no next state is claimed. -/
  | notModelled (mnemonic : String)
  deriving DecidableEq, Repr

/-- The state of a Derku. -/
structure State where
  /-- The variant (R1); fixed. -/
  part : Part
  /-- Core cycles since reset, as far as the commands have told. -/
  now : Nat
  /-- The model's own: uses of free values so far. -/
  use : Nat
  mode : ModeSt
  frame : FrameSt
  carder : Carder
  det : Det
  block : Block
  /-- The installed hood. -/
  hood : Option Hood
  /-- Trained DRAM size in MB, and DRAM bytes. -/
  dramMb : Nat
  dram : Memory
  /-- Deferred regions that are enabled (R62). -/
  regions : List Nat
  /-- Voice slots by number, groups by number, clusters. -/
  slots : Store Slot
  groups : List Group
  clusters : List Cluster
  bus : BusSt
  engines : List Engine
  dly : Delay
  clocks : Clocks
  audio : AudioSt
  twin : Twin
  host : HostSt
  rings : List Ring
  ringMem : Memory
  mbx : List Mbx
  sched : Sched
  fw : Firmware
  flash : Memory
  fuses : Fuses
  timers : List Timer
  uarts : List Uart
  cv : CvSt
  flt : FaultSt
  tap : Tap
  /-- Commands that wait, first in, first out. -/
  pending : List Instr
  deriving DecidableEq, Repr

/-- A cluster with nothing counted. -/
def Cluster.empty : Cluster := ⟨0, 0, 0, false, false, false, false, 0, 0, 0, false⟩

/-- The delay streamer with nothing declared. -/
def Delay.empty : Delay := ⟨[], [], [], [], [], [], 0, 0, 0⟩

/-- R400: mode and resets at the end of the power-on sequence. -/
def ModeSt.reset : ModeSt :=
  { mode := .loader, holdFrom := .run, hoFrom := .loader, pend := none, rest := false, stop := false, cause := 0, crst := 0, wdg := 0
    expired := false, wakeAt := none, wakeFired := [], hoodCopy := false, codeCopy := none, codeDigest := [] }

/-- The machine right after a power-on reset: in LOADER, at the 2.50 ms row of the power-on sequence (R400), a WVD-880
with unblown fuses, an unheld TWIN_ROLE strap and empty memories (log entries 1 to 3). -/
def State.reset : State :=
  { part := .wvd880, now := 0, use := 0, mode := ModeSt.reset, frame := ⟨0, 0, 0, false, false, 0⟩, carder := Carder.empty, det := Det.empty
    block := Block.empty, hood := none, dramMb := 0, dram := [], regions := [], slots := [], groups := []
    clusters := List.replicate 8 Cluster.empty, bus := BusSt.empty, engines := List.replicate 16 Engine.empty, dly := Delay.empty
    clocks := Clocks.empty, audio := AudioSt.empty, twin := Twin.reset false, host := HostSt.empty
    rings := List.replicate 64 Ring.empty, ringMem := [], mbx := List.replicate 16 Mbx.empty, sched := Sched.empty
    fw := { Firmware.empty with bootAt := some 0 }, flash := [], fuses := Fuses.empty
    timers := List.replicate 8 Timer.empty, uarts := List.replicate 4 Uart.empty, cv := CvSt.empty, flt := FaultSt.empty
    tap := Tap.empty, pending := [] }

end Sys2Proof.Machine
end

