-- ==== Sys2Proof/Machine/Ops.lean ====
section
/-! DEFINITION. The shared operations on the state: units that exist, interrupts, rings, faults, and what leaving a
running mode does. -/

namespace Sys2Proof.Machine

/-! ## Time and free values -/

/-- Time moves on to t, never back. -/
def later (t : Nat) (s : State) : State := { s with now := max s.now t }

/-- One more free value has been used. -/
def used (s : State) : State := { s with use := s.use + 1 }

/-! ## Which units exist and are enabled (R1, R5, R6, R30) -/

/-- The hood's nominal rate; the reference rate without a hood. -/
def rateOf (s : State) : Rate := match s.hood with | some h => h.clocks.rate | none => .r96

/-- Engine e is present, and enabled by the hood. -/
def engineOn (s : State) (e : Nat) : Bool :=
  decide (e < s.part.engines) && (match s.hood with | some h => bitAt h.units.engines e | none => false)

/-- Cluster c is present, and enabled by the hood. -/
def clusterOn (s : State) (c : Nat) : Bool :=
  decide (c < s.part.clusters) && (match s.hood with | some h => bitAt h.units.clusters c | none => false)

/-- R2: slot i exists at the rate, in a cluster that is enabled. -/
def slotExists (s : State) (i : Nat) : Bool := decide (i % 256 < (rateOf s).voices) && clusterOn s (i / 256)

/-- CV channel c is present and the hood names it (R384). -/
def hcvOf (s : State) (c : Nat) : Option HCv :=
  if c < s.part.cvs then (match s.hood with | some h => Store.get none h.cv c | none => none) else none

/-- Hood entries of audio interfaces. -/
def hportOf (s : State) (p : Nat) : Option HPort :=
  match s.hood with | some h => if bitAt h.units.saps p then Store.get none h.ports.saps p else none | none => none
def hrxOf (s : State) (r : Nat) : Option HAes :=
  match s.hood with | some h => if r < s.part.aes && bitAt h.units.rx r then Store.get none h.ports.rx r else none | none => none
def htxOf (s : State) (x : Nat) : Option HAes :=
  match s.hood with | some h => if x < s.part.aes && bitAt h.units.tx x then Store.get none h.ports.tx x else none | none => none
def hpdmOf (s : State) (k : Nat) : Option HPdm :=
  match s.hood with | some h => if bitAt h.units.pdm k then Store.get none h.ports.pdm k else none | none => none

/-- R27, R239: whether domain d numbers its frames: it is the master or synchronous to it. -/
def syncDomain (s : State) (d : Nat) : Bool := match s.hood with | some h => h.clocks.sync.getD d false | none => false

/-- The ring of number r that the hood defines. -/
def hringOf (s : State) (r : Nat) : Option HRing := match s.hood with | some h => Store.get none h.rings.rings r | none => none

/-- Template of a group, and the group's hood entry. -/
def hgroupOf (s : State) (g : Nat) : Option HGroup := match s.hood with | some h => h.groups[g]? | none => none
def templateOf (s : State) (g : Nat) : Option Template :=
  match s.hood with | some h => (match h.groups[g]? with | some hg => h.templates[hg.template]? | none => none) | none => none

/-! ## Accessors of indexed units -/

def slotAt (s : State) (i : Nat) : Slot := Store.get Slot.free s.slots i
def setSlot (i : Nat) (x : Slot) (s : State) : State := { s with slots := Store.set Slot.free s.slots i x }
def engAt (s : State) (e : Nat) : Engine := s.engines.getD e Engine.empty
def setEng (e : Nat) (g : Engine) (s : State) : State := { s with engines := setAt s.engines e g }
def updGroup (g : Nat) (f : Group → Group) (s : State) : State := { s with groups := updAt s.groups g f }
def updCluster (c : Nat) (f : Cluster → Cluster) (s : State) : State := { s with clusters := updAt s.clusters c f }
def ringState (s : State) (r : Nat) : Ring := s.rings.getD r Ring.empty
def updRing (r : Nat) (f : Ring → Ring) (s : State) : State := { s with rings := updAt s.rings r f }
def mbxAt (s : State) (c : Nat) : Mbx := s.mbx.getD c Mbx.empty
def updMbx (c : Nat) (f : Mbx → Mbx) (s : State) : State := { s with mbx := updAt s.mbx c f }
def uartAt (s : State) (u : Nat) : Uart := s.uarts.getD u Uart.empty
def updUart (u : Nat) (f : Uart → Uart) (s : State) : State := { s with uarts := updAt s.uarts u f }
def timerAt (s : State) (n : Nat) : Timer := s.timers.getD n Timer.empty
def updTimer (n : Nat) (f : Timer → Timer) (s : State) : State := { s with timers := updAt s.timers n f }
def cvAt (s : State) (c : Nat) : Cv := s.cv.chans.getD c (Cv.init default)
def updCv (c : Nat) (f : Cv → Cv) (s : State) : State := { s with cv := { s.cv with chans := updAt s.cv.chans c f } }
def sapAt (s : State) (p : Nat) : Sap := s.audio.saps.getD p Sap.empty
def updSap (p : Nat) (f : Sap → Sap) (s : State) : State := { s with audio := { s.audio with saps := updAt s.audio.saps p f } }
def rxAt (s : State) (r : Nat) : AesRx := s.audio.rx.getD r AesRx.empty
def updRx (r : Nat) (f : AesRx → AesRx) (s : State) : State := { s with audio := { s.audio with rx := updAt s.audio.rx r f } }
def txAt (s : State) (x : Nat) : AesTx := s.audio.tx.getD x AesTx.empty
def updTx (x : Nat) (f : AesTx → AesTx) (s : State) : State := { s with audio := { s.audio with tx := updAt s.audio.tx x f } }
def pdmAt (s : State) (k : Nat) : Pdm := s.audio.pdm.getD k Pdm.empty
def updPdm (k : Nat) (f : Pdm → Pdm) (s : State) : State := { s with audio := { s.audio with pdm := updAt s.audio.pdm k f } }
def domAt (s : State) (d : Nat) : Domain := s.clocks.dom.getD d Domain.empty
def updDom (d : Nat) (f : Domain → Domain) (s : State) : State := { s with clocks := { s.clocks with dom := updAt s.clocks.dom d f } }
def descAt (s : State) (t : Nat) : Desc := Store.get Desc.free s.sched.descs t
def setDesc (t : Nat) (x : Desc) (s : State) : State := { s with sched := { s.sched with descs := Store.set Desc.free s.sched.descs t x } }
def schCore (s : State) (k : Nat) : SchCore := s.sched.cores.getD k SchCore.empty
def updCore (k : Nat) (f : SchCore → SchCore) (s : State) : State := { s with sched := { s.sched with cores := updAt s.sched.cores k f } }
def winAt (s : State) (w : Nat) : Window := s.host.wins.getD w Window.empty
def updWin (w : Nat) (f : Window → Window) (s : State) : State := { s with host := { s.host with wins := updAt s.host.wins w f } }

/-! ## Modes -/

/-- The mode whose audio path is in force: in HANDOVER the mode it began from (R32, R356). -/
def effMode (s : State) : Mode := if s.mode.mode = .handover then s.mode.hoFrom else s.mode.mode

/-- R32: a mode in which frames run under the frame tick. -/
def framesRun (s : State) : Bool :=
  match effMode s with | .run => true | .runLead => true | .runShadow => true | _ => false

/-- A running mode or HOLD. -/
def inPeriod (s : State) : Bool := framesRun s || decide (effMode s = .hold)

/-- Set the mode in force, inside a handover as well. -/
def setEff (m : Mode) (s : State) : State :=
  if s.mode.mode = .handover then { s with mode := { s.mode with hoFrom := m } } else { s with mode := { s.mode with mode := m } }

/-- R59: the hood is loaded and marked deterministic. -/
def detHood (s : State) : Bool := match s.hood with | some h => h.hdr.det | none => false

/-- Whether the control cores are powered. -/
def ctrlOn (s : State) : Bool := !(s.mode.mode == .reset || s.mode.mode == .sleep)

/-- DRAM size in bytes in use: trained, and the hood declares DRAM. -/
def dramOn (s : State) : Bool := match s.hood with | some h => h.hdr.dramMin != 0 | none => false

/-! ## Interrupts (R310, R311) -/

/-- Latch bit n of INT_STAT. -/
def raiseInt (n : Nat) (s : State) : State :=
  if bitAt s.host.intLatched n then s else { s with host := { s.host with intLatched := s.host.intLatched + 2 ^ n } }

/-- R64: DET_STAT.VALID. -/
def detValid (s : State) : Bool := framesRun s && detHood s && !s.det.void_

/-- One of FAULT, WINWRITE and BGWRITE occurs: the guarantee is void until the next entry from READY (R58, R64). -/
def voidDet (f : Det → Det) (s : State) : State :=
  let v := detValid s
  let s := { s with det := { f s.det with void_ := true } }
  if v then raiseInt 10 s else s

/-- R58: a fault. -/
def detFault (s : State) : State := voidDet (fun d => { d with fault := true }) s

/-- R311: VALID falls with a change of mode. -/
def detFall (before after : State) : State := if detValid before && !detValid after then raiseInt 10 after else after

/-- R57: an event moved. -/
def detMoved (s : State) : State := raiseInt 10 { s with det := { s.det with moved := true } }

/-! ## Ring memory and rings (R319 to R325) -/

/-- R321: byte address of an entry. -/
def ringAddr (h : HRing) (i : Nat) : Nat := 32 * (h.base + i % 2 ^ h.size)

/-- R321: entries held. -/
def ringCount (r : Ring) : Nat := (r.head - r.tail).toNat

/-- R323: a hardware producer writes an entry and then advances HEAD; a full ring drops it and counts it (R325). -/
def ringPush (r : Nat) (e : Words) (s : State) : State :=
  match hringOf s r with
  | none => s
  | some h =>
    let x := ringState s r
    if ringCount x < 2 ^ h.size then
      { updRing r (fun x => { x with head := x.head + 1, seen := x.head + 1, at_ := s.now }) s with
        ringMem := Memory.writeWs 0 s.ringMem (ringAddr h x.head.toNat) e }
    else updRing r (fun x => { x with lost := satInc 255 x.lost }) s

/-- Whether ring r is full. -/
def ringFull (s : State) (r : Nat) : Bool :=
  match hringOf s r with | some h => decide (2 ^ h.size ≤ ringCount (ringState s r)) | none => true

/-- The oldest entry of ring r. -/
def ringFront (s : State) (r : Nat) : Option Words :=
  match hringOf s r with
  | some h =>
    let x := ringState s r
    if ringCount x = 0 then none else some (Memory.readWs 0 s.ringMem (ringAddr h x.tail.toNat) 8)
  | none => none

/-- A hardware consumer advances TAIL past an entry it has finished with (R323). -/
def ringPop (r : Nat) (s : State) : State := updRing r (fun x => { x with tail := x.tail + 1 }) s

/-- R326: a command ring's consumer writes word 7 of the oldest entry and advances TAIL. -/
def ringDone (r : Nat) (code seq : Nat) (s : State) : State :=
  match hringOf s r with
  | some h =>
    let a := ringAddr h (ringState s r).tail.toNat
    ringPop r { s with ringMem := Memory.writeW 0 s.ringMem (a + 28) (BitVec.ofNat 32 (place code 8 24 + place seq 24 0)) }
  | none => s

/-- Numbers of the rings that satisfy a test. -/
def ringsWhere (s : State) (p : HRing → Bool) : List Nat :=
  match s.hood with
  | some h => h.rings.rings.filterMap fun kr => match kr.2 with | some x => if p x then some kr.1 else none | none => none
  | none => []

/-- The first such ring. -/
def ringWhere (s : State) (p : HRing → Bool) : Option Nat := (ringsWhere s p).head?

/-- R376: the UART_RX and UART_TX rings of UART u. -/
def rxRing (s : State) (u : Nat) : Option Nat := ringWhere s fun h => h.type == 5 && h.uart == u
def txRing (s : State) (u : Nat) : Option Nat := ringWhere s fun h => h.type == 6 && h.uart == u

/-- R54: a reply record goes to the REPLY ring that the hood assigns to the source. -/
def sendReply (src : Source) (e : Words) (s : State) : State :=
  match s.hood with
  | some h => (match h.rings.reply.find? fun x => x.1 == src with | some x => ringPush x.2 e s | none => s)
  | none => s

/-- R53: an applied-log entry goes to every LOG ring that the carder fills. -/
def sendLog (e : Words) (s : State) : State :=
  (ringsWhere s fun h => h.type == 3 && h.prod == .carder).foldl (fun s r =>
    let s := if ringFull s r then { s with carder := { s.carder with loglost := satInc 1023 s.carder.loglost } } else s
    ringPush r e s) s

/-! ## Faults (R414, R418) -/

/-- R418: add an entry to the fault log, or note that it overflowed. -/
def logFault (cls unit resp : Nat) (s : State) : State :=
  if s.flt.log.length < 16 then
    raiseInt 14 { s with flt := { s.flt with log := s.flt.log ++ [⟨cls, unit, resp, s.frame.cnt % 2 ^ 32⟩] } }
  else { s with flt := { s.flt with ovf := true } }

/-- R414: the classes marked single. Class 0x0A, single where a backup is named, voids determinism (R58) and is answered
by the switch or HOLD of R251 on both chips of a pair, with no yield (R415; log entry 40). -/
def singleClass (cls : Nat) : Bool := cls == 1 || cls == 3 || cls == 4 || cls == 5 || cls == 7 || cls == 8

/-- R414: classes whose solo response is SAFE under the configuration. -/
def safeClass (s : State) (cls : Nat) : Bool :=
  cls == 5 || cls == 7 || cls == 8 || (cls == 1 && s.flt.eccsafe) || (cls == 3 && s.flt.engsafe) || (cls == 4 && s.flt.vcsafe)

/-! ## Sounding state (R37, R79) -/

/-- A group's settings as the GROUPS section gives them. -/
def groupInit (h : HGroup) : Group :=
  { limit := h.limit, priority := h.priority, mask := h.mask, policy := h.policy, fade := h.fade, keys := h.keys
    gctl := h.gctl, lfo := h.lfo.map fun i => ⟨i, ⟨i.phase * 4 % 2 ^ 32, 0, 0, 0⟩, true⟩, bi := h.bi, bp := 0
    gs := if h.gseed = 0 then 1 else h.gseed, steals := 0, novoice := 0, bandwidth := 0, stale := 0 }

/-- A group's settings return to the hood's; its counters stay (R37). -/
def groupBack (h : HGroup) (g : Group) : Group :=
  { groupInit h with steals := g.steals, novoice := g.novoice, bandwidth := g.bandwidth, stale := g.stale }

/-- R236: delay lines and taps as the hood declares them. -/
def delayBack (h : Hood) (d : Delay) : Delay :=
  { d with
    lines := h.dram.lines.map fun kl => (kl.1, kl.2.map fun l => ⟨l.owner, l.lmax, l.len, l.len⟩)
    taps := h.dram.taps.map fun kt => (kt.1, kt.2.map fun t => ⟨t.owner, t.line, t.d, t.d⟩)
    pre := [], wr := [], lateTaps := [], eccTaps := [] }

/-- A CV channel's settings return to its CVIO values (R37); the code loaded stays and the clamp closes (R387). -/
def cvBack (h : HCv) (c : Cv) : Cv :=
  { Cv.init h with dac := c.dac, fault := c.fault, faultClamp := c.faultClamp, run := c.run, changedAt := c.changedAt
                   holdUntil := c.holdUntil, held := c.held }

/-- R184, R231: an engine leaves a running period: no partition, no crossfade; its memories await the restore. -/
def engLeave (g : Engine) : Engine :=
  let g := if g.phase = .stopped then g else if g.saved then { g with phase := .background, pc := g.savPc, st := g.savSt, rc := g.savRc, br := g.savBr }
    else if g.phase = .background then g else { g with phase := .idle }
  { g with preReq := false, due := false, saved := false, xf := none }

/-- R184: the sample region of X and both Y banks from FULDATA, bank A active. -/
def engRestore (h : HEngine) (g : Engine) : Engine :=
  { g with
    x := (g.x.filter fun kv => decide (g.xb ≤ kv.1)).foldl (fun m kv => Store.set 0 m kv.1 kv.2) (h.x.filter fun kv => decide (kv.1 < g.xb))
    ya := h.ya, yb := h.yb, act := false }

/-- R79, R179: the hood's contents of engine e; an engine for which it has no section has none. -/
def hengOf (s : State) (e : Nat) : Option HEngine :=
  s.hood.map fun h => (Store.get none h.engines e).getD { (default : HEngine) with xb := 32768 }

/-- R276, R286 to R291: the twin link when a running mode is left: nothing is under way any more, and FAULT_N is released
(R289). -/
def twinLeave (w : Twin) : Twin :=
  { w with pull := false, stopReq := false, stopSent := false, stopRx := false, startReq := false, startSent := false, startRx := false,
           shut := false, swapAt := none, yieldAt := none, takeNext := none, takeYield := none, handOver := none,
           accAt := none, entries := [] }

/-- R36, R37: what leaving a running mode or HOLD does to the sounding state. -/
def quiet (s : State) : State :=
  match s.hood with
  | none => s
  | some h =>
    let n := s.carder.store.length
    { s with
      frame := { s.frame with start := if s.frame.ran then s.frame.cnt + 1 else s.frame.start, open_ := false, ran := false }
      carder := { s.carder with store := [], sets := List.replicate 15 [], seq := 0, disc := satAdd 0xFFFF s.carder.disc n }
      slots := []
      groups := (s.groups.zip h.groups).map fun x => groupBack x.2 x.1
      bus := { s.bus with val := [], acc := [] }
      regions := []
      dly := delayBack h s.dly
      engines := s.engines.map engLeave
      sched := { s.sched with cores := s.sched.cores.mapIdx fun k c =>
        (if decide (4 ≤ k) && (engAt s (k - 4)).saved && (engAt s (k - 4)).phase != .stopped && c.run.isSome && c.since.isNone then { c with since := some s.now } else c) }
      cv := { s.cv with chans := s.cv.chans.mapIdx fun c x => match Store.get none h.cv c with | some hc => cvBack hc x | none => x }
      audio := { s.audio with
        saps := s.audio.saps.map fun x => { x with iface := x.iface.leave }
        rx := s.audio.rx.map fun x => { x with iface := x.iface.leave }
        tx := s.audio.tx.map fun x => { x with iface := x.iface.leave }
        pdm := s.audio.pdm.map fun x => { x with iface := x.iface.leave }
        grps := s.audio.grps.map fun x => { x with started := false, arm := false, trig := none } }
      clocks := { s.clocks with switched := false, onBackup := false, src := h.clocks.master, acc := none, bad := 0, heldAt := none, tick := none, prev := none, relockAt := none }
      twin := twinLeave s.twin }

/-- Entry into READY from a running mode or HOLD: R37, ACT is 0 (R221), and the restore of R184 starts where the hood has
DRAM. -/
def enterReady (s : State) : State :=
  let r := setEff .ready (quiet s)
  detFall s { r with
    mode := { r.mode with stop := false, pend := none, rest := dramOn r }
    engines := r.engines.map fun g => { g with act := false } }

/-- R345: tasks of the cores named stop: IDLE without RERUN. -/
def stopTasks (p : Nat → Bool) (s : State) : State :=
  { s with sched := { s.sched with
      cores := s.sched.cores.mapIdx fun k c => if p k then { c with slot := none, run := none, since := none, busy := c.busy + (match c.since with | some u => s.now - u | none => 0) } else c
      descs := (Store.keys s.sched.descs).foldl (fun m t => Store.upd Desc.free m t fun d =>
        if (d.state = .running || d.state = .prefetched) && p d.core then
          { d with state := if d.state = .running then .idle else .ready, rerun := d.rerun && d.state != .running }
        else d) s.sched.descs } }

/-- R200, R404: every engine stops; background tasks return to the scheduler. -/
def stopEngines (s : State) : State :=
  stopTasks (fun k => decide (4 ≤ k)) { s with engines := s.engines.map fun g =>
    { g with phase := if g.phase = .stopped then .stopped else .idle, saved := false, preReq := false, due := false, task := none, xf := none } }

/-- R404: entry into SAFE. -/
def enterSafe (s : State) : State :=
  match s.mode.mode with
  | .reset => s
  | .sleep => s
  | _ =>
    let q := stopEngines (if inPeriod s then quiet s else s)
    detFall s { q with
      mode := { q.mode with mode := .safe, hoFrom := .safe, stop := false, pend := none }
      block := if q.mode.mode = .load then { q.block with stage := 0, need := false, fifo := [], got := [] } else q.block }

/-! ## Twin yields and retirement that a fault begins (R286, R289) -/

/-- R289: a chip retires. -/
def twinRetire (s : State) : State :=
  { s with twin := { s.twin with retired := true, instep := false, paired := false, holder := false, cvHolder := false, pull := false
                                 yieldAt := none, swapAt := none, handOver := none } }

/-- R286: a yield begins with the fault frame F = FRAME_CNT. -/
def beginYield (s : State) : State :=
  if s.twin.yieldAt.isSome then s
  else logFault 0x0B 0xFF 2 { s with twin := { s.twin with yieldAt := some s.frame.cnt, shut := true } }

/-- A backup domain is named. -/
def backupNamed (s : State) : Bool := match s.hood with | some h => h.clocks.backup.isSome | none => false

/-- R414, R58: a fault of a class is detected in a unit: the entry in the log, determinism, and the response. A paired
shadow retires in every mode; a lead yields in RUN_LEAD (R286). -/
def raiseFault (cls unit : Nat) (s : State) : State :=
  let single := singleClass cls
  let s := if (single || cls == 2) && inPeriod s then detFault s else s
  if single && s.twin.paired && decide (effMode s = .runLead) then beginYield (logFault cls unit 2 s)
  else if single && s.twin.paired && !s.twin.lead then enterSafe (twinRetire (logFault cls unit 3 s))
  else if safeClass s cls then enterSafe (logFault cls unit 1 s)
  else logFault cls unit 0 s

/-- R250, R251, R414: class 0x0A of domain d: logged with RESP switch or HOLD; with a backup named it is a fault in the
sense of R58. -/
def clockFault (d : Nat) (s : State) : State :=
  logFault 0x0A d 5 (if backupNamed s && inPeriod s then detFault s else s)

/-- R417: how a DRAM read of use went: counts, and whether it is uncorrectable. -/
def countEcc (k : EccKind) (s : State) : State :=
  match k with
  | .clean => s
  | .corrected => { s with flt := { s.flt with dce := satInc 255 s.flt.dce } }
  | .uncorrectable => { s with flt := { s.flt with due := satInc 255 s.flt.due } }

/-- R417: n single errors corrected in control SRAM. -/
def countSram (n : Nat) (s : State) : State := { s with flt := { s.flt with sce := satAdd 255 s.flt.sce n } }

/-- R58, R417: a DRAM read of a window or of BULK: counted, and a fault where it is uncorrectable. -/
def useEcc (k : EccKind) (s : State) : State :=
  let s := countEcc k s
  if k = .uncorrectable ∧ inPeriod s then detFault s else s

end Sys2Proof.Machine
end

