-- ==== Sys2Proof/Machine/Flags.lean ====
section
/-! DEFINITION. Status the spec computes from other state: interrupt sources, ring levels, clamps, group and cluster
figures, powered domains. -/

namespace Sys2Proof.Machine

/-! ## Interrupt sources (R310, R311) -/

/-- R330: RING_STAT.PEND. -/
def ringPend (h : HRing) (r : Ring) : Bool :=
  let n := ringCount r
  if h.cons == .host || h.cons == .spi then decide (r.level ≤ n)
  else if h.prod == .host || h.prod == .spi then decide (r.level ≤ 2 ^ h.size - n)
  else false

/-- INT_STAT.RING. -/
def ringInt (s : State) : Bool :=
  (ringsWhere s fun _ => true).any fun r =>
    (ringState s r).ie && (match hringOf s r with | some h => ringPend h (ringState s r) | none => false)

/-- R336: the condition of one channel. -/
def mbxInt (m : Mbx) : Bool := (m.outie && m.outfull) || (m.ineie && !m.infull) || (m.errie && (m.cross || m.lost))

/-- R311: bit 6. -/
def engineInt (g : Engine) : Bool := (g.satie && (g.sav || g.ssv)) || (g.fltie && g.phase == .stopped)

/-- R395: fault bits of the channels. -/
def cvFaultBits (s : State) : Nat := (List.range 16).foldl (fun a c => a + b2n (cvAt s c).fault * 2 ^ c) 0

/-- R383 for one UART. -/
def uartIntAt (s : State) (u : Nat) : Bool := uartInt (rxRing s u).isSome (txRing s u).isSome (uartAt s u)

/-- The latched bits of INT_STAT: 2, 7, 8, 9, 10 and 14. -/
def latchedMask : Nat := 2 ^ 2 + 2 ^ 7 + 2 ^ 8 + 2 ^ 9 + 2 ^ 10 + 2 ^ 14

/-- INT_STAT (R311): latched bits and summary bits. -/
def intStat (s : State) : Nat :=
  let b := fun (n : Nat) (c : Bool) => b2n c * 2 ^ n
  Nat.land s.host.intLatched latchedMask + b 0 (s.host.errCount != 0) + b 1 (s.host.wins.any fun w => w.done && w.doneie) + b 3 (ringInt s) +
  b 4 (s.mbx.any mbxInt) + b 5 (s.sched.tfie && s.sched.tfault != 0) + b 6 (s.engines.any engineInt) +
  b 11 (Nat.land (cvFaultBits s) s.cv.fie != 0) + b 12 (s.timers.any timerInt) + b 13 ((List.range 4).any (uartIntAt s)) +
  b 15 (decide (s.flt.twarn ≤ s.flt.temp)) + b 16 (s.fw.done && s.fw.ie)

/-- R310: whether INT_N[n] and SINT_N are asserted. -/
def intAsserted (s : State) (n : Nat) : Bool :=
  Nat.land (intStat s) (if n = 0 then s.host.intEn0 else s.host.intEn1) != 0
def sintAsserted (s : State) : Bool := Nat.land (intStat s) s.host.intSen != 0

/-! ## CV clamps (R387) -/

/-- R386: a channel's polarity, from its fuse. -/
def cvBipolar (s : State) (c : Nat) : Bool := bitAt s.fuses.cvPol c

/-- R284: this chip drives the CV outputs. -/
def cvHolds (s : State) : Bool := s.twin.cvHolder

/-- R398: channel c is driven directly. -/
def cvDirect (s : State) (c : Nat) : Bool := s.cv.svcEn && s.cv.svcCh == c

/-- R387, R398, R420: whether the clamp of channel c is closed. Direct drive goes before every case of R387 that closes it
(log entry 39). -/
def cvClamped (s : State) (c : Nat) : Bool :=
  let x := cvAt s c
  if s.mode.mode = .sleep ∨ !cvHolds s ∨ cvDirect s c then false
  else if (hcvOf s c).isNone then true
  else
    match effMode s with
    | .reset => true | .loader => true | .load => true | .safe => true
    | _ => !x.loaded || (match x.spanUntil with | some u => decide (s.now < u) | none => false) || x.fault || x.faultClamp || (cvBipolar s c && s.flt.vmid)

/-- R398: the code that channel c drives. -/
def drivenCode (s : State) (c : Nat) : Nat := if cvDirect s c then s.cv.svcCode else (cvAt s c).dac

/-- R393: the code at the output of channel c, which the deglitcher holds at its previous value. -/
def outCode (s : State) (c : Nat) : Nat :=
  let x := cvAt s c
  match x.holdUntil with
  | some u => if s.now < u ∧ !cvDirect s c then x.held else drivenCode s c
  | none => drivenCode s c

/-- R32, R385 to R387, R393, R406: what CV_OUT[c] carries. -/
def cvLevel (s : State) (c : Nat) : CvLevel :=
  if s.mode.mode = .sleep ∨ !cvHolds s ∨ s.part.cvs ≤ c then .highZ
  else if cvClamped s c then .volts (zeroVolts (cvBipolar s c))
  else .volts (cvVolts (cvAt s c).span (outCode s c))

/-- The CLAMP field of CV_FAULT. -/
def cvClampBits (s : State) : Nat := (List.range 16).foldl (fun a c => a + b2n (cvClamped s c) * 2 ^ c) 0

/-! ## Voices (R84, R88, R100, R101) -/

/-- R101: a slot's figure in its cluster's charge. -/
def slotCharge (x : Slot) : Nat :=
  match x.cur, x.pend with
  | some v, some p => max v.cost p.cost
  | some v, none => v.cost
  | none, some p => p.cost
  | none, none => 0

/-- R101: a cluster's charge. -/
def chargeOf (s : State) (c : Nat) : Nat :=
  s.slots.foldl (fun a kv => if kv.1 / 256 = c then a + slotCharge kv.2 else a) 0

/-- Number of slots that exist in cluster c, and of its FREE slots. -/
def freeSlots (s : State) (c : Nat) : Nat :=
  if clusterOn s c then
    (rateOf s).voices - s.slots.foldl (fun a kv => if kv.1 / 256 = c ∧ kv.2.state ≠ .free then a + 1 else a) 0
  else 0

/-- R84, R88: whether a slot counts toward group g: with a pending note that note alone, else its voice, a FADING one
too, whose slot no note follows (log entry 25). -/
def countsFor (g : Nat) (x : Slot) : Bool :=
  match x.pend with
  | some p => p.group == g
  | none =>
    match x.cur with
    | some v => v.group == g
    | none => false

/-- R88: voice count of a group, and how many of them are released or detached. -/
def voiceCount (s : State) (g : Nat) : Nat := s.slots.foldl (fun a kv => if countsFor g kv.2 then a + 1 else a) 0
def releasedCount (s : State) (g : Nat) : Nat :=
  s.slots.foldl (fun a kv =>
    let rel := match kv.2.pend with
      | some p => p.released
      | none => (match kv.2.cur with | some v => v.released | none => false)
    if countsFor g kv.2 && rel then a + 1 else a) 0

/-- R128: start buffers in use. -/
def sbufCount (s : State) : Nat := (s.carder.store.filter fun e => e.sbuf.isSome).length

/-- R316: BEHAV_LEVEL of the modelled silicon: its reset value. -/
def behavLevel : Nat := 1

/-! ## Power domains (R30) -/

/-- R78: the hood whose UNITS decide which domains are powered: in pass 2 the one that is being installed. -/
def powerHood (s : State) : Option Hood := if s.mode.mode = .load ∧ 3 ≤ s.block.stage then s.block.body else s.hood

/-- FLT_STAT.PWR: the powered domains. -/
def poweredMask (s : State) : Nat :=
  let awake := s.mode.mode ≠ .reset ∧ s.mode.mode ≠ .sleep
  match powerHood s with
  | none => 1 + (if awake then 2 + 4 else 0)
  | some h =>
    let up := fun (n : Nat) (c : Bool) => if awake ∧ c then 2 ^ n else 0
    let u := h.units
    1 + up 1 true + up 2 true + up 3 (bits u.clusters 1 0 != 0) + up 4 (bits u.clusters 3 2 != 0) + up 5 (bits u.clusters 5 4 != 0) +
    up 6 (bits u.clusters 7 6 != 0) + up 7 (bits u.engines 7 0 != 0) + up 8 (bits u.engines 15 8 != 0) +
    up 9 (h.hdr.dramMin != 0) + up 10 true + up 11 (!h.cv.isEmpty)

/-- Whether the MEM domain is powered. -/
def memOn (s : State) : Bool := bitAt (poweredMask s) 9

end Sys2Proof.Machine
end

