-- ==== Sys2Proof/Machine/VoiceDsp.lean ====
section
/-! DEFINITION. One voice-sample: routes, oscillators, chain, envelopes, LFOs, placement and sends, exactly as
chapters 5 to 7 compute them. Samples and coefficients are integers in the units of their format. -/

namespace Sys2Proof.Machine

/-- What a voice-sample reads besides its own state. -/
structure VCtx where
  frame : Nat
  /-- Increment base of the nominal rate (R110). -/
  base : Nat
  /-- Bus values of the frame (R21). -/
  bus : Store Int
  /-- Beat position, group LFO outputs and group controllers of the voice's group. -/
  bp : Nat
  glfo : List Int
  gctl : List Int
  /-- Curves 4-15 and shaper tables 2-15 of the TABLES section. -/
  curves : Store (List Int)
  shapers : Store (List Int)
  /-- Placement sets (R165). -/
  sets : Store (Option PlaceSet)
  deriving DecidableEq, Repr, Inhabited

/-- R110: BASE of each nominal rate. -/
def Rate.base : Rate → Nat
  | .r44 => 3261455229 | .r48 => 2996461991 | .r88 => 1630727614 | .r96 => 1498230996
  | .r176 => 815363807 | .r192 => 749115498

/-! ## Seed and noise -/

/-- R115: the voice seed. -/
def voiceSeed (gseed tag f0 : Nat) : Nat :=
  let h := Nat.xor (Nat.xor gseed tag) (f0 % 2 ^ 32)
  let h := h * 0x85EBCA6B % 2 ^ 32
  let h := Nat.xor h (h / 2 ^ 13)
  let h := Nat.xor h (f0 / 2 ^ 32 % 2 ^ 32)
  let h := h * 0xC2B2AE35 % 2 ^ 32
  let h := Nat.xor h (h / 2 ^ 16)
  if h = 0 then 1 else h

/-- R117: n steps of the Galois register. -/
def galois : Nat → Nat → Nat
  | 0, s => s
  | n + 1, s => galois n (if s % 2 = 1 then Nat.xor (s / 2) 0x80200003 else s / 2)

/-! ## Routes (R155 to R159) -/

/-- R159: the route curves. -/
def routeCurve (c : Nat) (s : Int) : Int :=
  let sq := rnd (s * s) 31
  if c = 0 then s
  else if c = 1 then (if s < 0 then -sq else sq)
  else if c = 2 then rnd (sq * s) 31
  else if c = 3 then min (s.natAbs : Int) q31max
  else if c = 4 then asr s 1 + 2 ^ 30
  else if c = 5 then sat32 (2 * s - 2 ^ 31)
  else sat32 (q31max - s)

/-- The values a pass reads for sources that the voice computes (R160): envelopes, LFOs, oscillators, filters, amplifier. -/
structure View where
  env : List Int
  lfo : List Int
  osc : List Int
  flt : List Int
  amp : Int
  deriving DecidableEq, Repr, Inhabited

/-- R156: the value of a source. -/
def srcValue (c : VCtx) (t : Template) (v : Voice) (w : View) (code : Nat) : Int :=
  if code = 0x01 then q31max
  else if code = 0x02 then (v.vel * 2 ^ 15 : Nat)
  else if code = 0x03 then (v.rvel * 2 ^ 15 : Nat)
  else if code = 0x04 then sat32 (v.pitch * 256)
  else if code = 0x05 then s32 (rotl v.seed 16)
  else if code = 0x06 then s32 (rotl v.noise 20)
  else if 0x08 ≤ code ∧ code ≤ 0x0B then w.env.getD (code - 0x08) 0
  else if 0x0C ≤ code ∧ code ≤ 0x0E then w.lfo.getD (code - 0x0C) 0
  else if 0x10 ≤ code ∧ code ≤ 0x13 then w.osc.getD (code - 0x10) 0
  else if 0x14 ≤ code ∧ code ≤ 0x15 then w.flt.getD (code - 0x14) 0
  else if code = 0x16 then w.amp
  else if 0x18 ≤ code ∧ code ≤ 0x1F then v.ctl.getD (code - 0x18) 0
  else if 0x20 ≤ code ∧ code ≤ 0x2F then c.gctl.getD (code - 0x20) 0
  else if 0x30 ≤ code ∧ code ≤ 0x3F then c.glfo.getD (code - 0x30) 0
  else if 0x40 ≤ code ∧ code ≤ 0x47 then
    let k := code - 0x40
    let b := Words.fld t.send (3 + k / 2) (if k % 2 = 0 then 31 else 15) (if k % 2 = 0 then 16 else 0)
    if b < 512 then Store.get 0 c.bus b else 0
  else 0

/-- R159: the contribution of route i in a pass. -/
def routeValue (c : VCtx) (t : Template) (v : Voice) (w : View) (i : Nat) : Int :=
  let r := t.routes.getD i []
  let amount := (Store.get none v.amounts i).getD (Words.s r 1)
  let x := rnd (amount * routeCurve (Words.fld r 0 7 4) (srcValue c t v w (Words.fld r 0 31 24))) 31
  let via := Words.fld r 0 23 16
  if via = 0 then x else rnd (x * srcValue c t v w via) 31

/-- R159: the exact sum of the contributions to a destination. An inactive route (R155) contributes nothing. -/
def routeSum (c : VCtx) (t : Template) (v : Voice) (w : View) (dst : Nat) : Int :=
  (List.range 24).foldl (fun a i =>
    let r := t.routes.getD i []
    if Words.fld r 0 15 8 = dst ∧ Words.fld r 0 31 24 ≠ 0 then a + routeValue c t v w i else a) 0

/-- Number of the (n, j) pair of a PMD destination code 0x11-0x16 (R158). -/
def pmdPair (code : Nat) : Nat × Nat :=
  if code = 0x11 then (0, 1) else if code = 0x12 then (0, 2) else if code = 0x13 then (0, 3)
  else if code = 0x14 then (1, 2) else if code = 0x15 then (1, 3) else (2, 3)

/-- R158: the template's default of a destination, in its record's format. -/
def destDefault (t : Template) (code : Nat) : Int :=
  let osc := fun (k : Nat) => t.osc.getD k []
  if code ≤ 0x04 then Words.s (osc (code - 1)) 1
  else if code ≤ 0x08 then Words.u (osc (code - 5)) 4
  else if code ≤ 0x0C then Words.fld (osc (code - 9)) 5 23 0
  else if code ≤ 0x10 then Words.s (osc (code - 0x0D)) 6
  else if code ≤ 0x16 then Words.s (osc (pmdPair code).1) (6 + (pmdPair code).2 - (pmdPair code).1)
  else if code ≤ 0x1A then Words.s t.chain (2 + code - 0x17)
  else if code ≤ 0x1C then Words.s (t.filt.getD (code - 0x1B) []) 1
  else if code ≤ 0x1E then Words.s (t.filt.getD (code - 0x1D) []) 2
  else if code = 0x1F then Words.u t.shaper 1
  else if code = 0x20 then Words.s t.chain 1
  else if 0x28 ≤ code ∧ code ≤ 0x3F then
    let e := t.env.getD ((code - 0x28) / 6) []
    if (code - 0x28) % 6 = 5 then Words.u e 6 else Words.s e (1 + (code - 0x28) % 6)
  else if 0x40 ≤ code ∧ code ≤ 0x42 then Words.s (t.lfo.getD (code - 0x40) []) 1
  else if code = 0x48 then Words.u t.place 1
  else if code = 0x49 then Words.s t.place 2
  else if code = 0x4A then Words.u t.place 3
  else if 0x4B ≤ code ∧ code ≤ 0x52 then Words.s t.place (8 + code - 0x4B)
  else if 0x53 ≤ code ∧ code ≤ 0x54 then Words.s t.send (1 + code - 0x53)
  else 0

/-- The default in force: the replaced one where an event set it (R161, R172). -/
def destBase (t : Template) (v : Voice) (code : Nat) : Int := (Store.get none v.defs code).getD (destDefault t code)

/-- R158: a destination before its limit. -/
def destRaw (c : VCtx) (t : Template) (v : Voice) (w : View) (code : Nat) : Int :=
  destBase t v code + routeSum c t v w code

/-- A limited value and whether the limit changed it. -/
def limited (lo hi x : Int) : Int × Bool := (clampI lo hi x, clampI lo hi x != x)

/-- R11, R107: saturation to signed 32 bits, with its flag. -/
def limS32 (x : Int) : Int × Bool := limited (-2 ^ 31) (2 ^ 31 - 1) x

/-! ## Oscillator records -/

def oscModel (r : Words) : Nat := Words.fld r 0 31 29
def oscShape (r : Words) : Nat := Words.fld r 0 28 27
def oscKeytrk (r : Words) : Bool := Words.fld r 0 26 26 == 1
def oscPhrand (r : Words) : Bool := Words.fld r 0 24 24 == 1
def oscPmsrc (r : Words) (j : Nat) : Bool := Words.fld r 0 (16 + j) (16 + j) == 1

/-- R95: the effective cap of sample oscillator n for a note's PR_CAP. -/
def effCap (r : Words) (prCap : Nat) : Nat :=
  if prCap = 0 then Words.fld r 0 15 8 else min prCap (Words.fld r 0 15 8)

/-- R122: channels and bytes of a sample record's format. -/
def smpCh (z : Words) : Nat := if Words.fld z 0 17 17 = 1 then 2 else 1
def smpBytes (z : Words) : Nat := if Words.fld z 0 16 16 = 1 then 3 else 2
/-- R123: bytes of one sample frame. -/
def smpFrame (z : Words) : Nat := smpCh z * smpBytes z
/-- R122: forward loop. -/
def smpLoop (z : Words) : Bool := Words.fld z 0 15 14 == 1

/-- R100: the cost of one DRAM-reading oscillator. -/
def oscCost (r z : Words) (prCap : Nat) : Nat :=
  if oscModel r = 3 then (effCap r prCap * smpCh z * smpBytes z * 9 + 1023) / 1024 + 4
  else if oscModel r = 2 then 7 else 0

/-- R100: the cost of a note. -/
def noteCost (t : Template) (zone prCap : Nat) : Nat :=
  let z := t.zones.getD zone []
  (List.range 4).foldl (fun a n => a + oscCost (t.osc.getD n []) (z.getD n []) prCap) 0

/-- R128: streaming templates are those with a wavetable or sample oscillator. -/
def Template.streaming (t : Template) : Bool := t.osc.any fun r => oscModel r == 2 || oscModel r == 3
/-- Whether the template has a sample oscillator (R95). -/
def Template.sampled (t : Template) : Bool := t.osc.any fun r => oscModel r == 3
/-- R95: the template's declared maximum PR_CAP: the largest PR_MAX among its sample oscillators. -/
def Template.prMax (t : Template) : Nat :=
  t.osc.foldl (fun a r => if oscModel r = 3 then max a (Words.fld r 0 15 8) else a) 0

/-! ## Classic shapes (R113) -/

def blepB (q d : Nat) : Int := if q < d then ((d - q) * 2 ^ 31 / d : Nat) else 0
def blepSq (a : Int) : Int := asr (a * a + 2 ^ 30) 31
def blepCube (a : Int) : Int := asr (blepSq a * a + 2 ^ 30) 31
def blepRamp (a : Int) (d : Nat) : Int := asr (asr (blepCube a * d + 2 ^ 31) 32 * 0x55555555 + 2 ^ 29) 30
def sawf (p d : Nat) : Int := (p : Int) - 2 ^ 31 + blepSq (blepB p d) - blepSq (blepB (2 ^ 32 - p) d)

/-- R113: a classic oscillator's unsaturated output. -/
def classicRaw (shape p d : Nat) (pw : Int) : Int :=
  if shape = 0 then sawf p d
  else if shape = 1 then sawf p d - sawf ((p + pw.toNat) % 2 ^ 32) d + (pw - 2 ^ 31)
  else if shape = 2 then
    let q0 := min p (2 ^ 32 - p)
    let q1 : Nat := ((p : Int) - 2 ^ 31).natAbs
    2 * (q1 : Int) - 2 ^ 31 - blepRamp (blepB q0 d) d + blepRamp (blepB q1 d) d
  else sinLookup p

/-! ## Line buffers and reads (R126, R130, R131) -/

/-- The byte at a DRAM address through a plane's line buffers; zero where no held line has it. -/
def planeByte (pl : List Line) (a : Nat) : Nat :=
  match pl.find? fun l => l.line == a / 64 && l.stat == .held with
  | some l => (l.data.getD (a % 64) 0).toNat
  | none => 0

/-- n little-endian bytes of a plane. -/
def planeLe (pl : List Line) (a : Nat) : Nat → Nat
  | 0 => 0
  | n + 1 => planeByte pl a + 256 * planeLe pl (a + 1) n

/-- R122, R123: byte address of sample frame t (t from -4 up) in its region. -/
def smpAddr (regBase : Nat) (z : Words) (t : Int) : Nat := regBase + Words.u z 1 + ((t + 4) * smpFrame z).toNat

/-- R125: the Q1.31 sample of a channel at a sample frame. -/
def smpAt (pl : List Line) (regBase : Nat) (z : Words) (ch : Nat) (t : Int) : Int :=
  let a := smpAddr regBase z t + ch * smpBytes z
  if smpBytes z = 3 then signed 24 (planeLe pl a 3) * 2 ^ 8 else signed 16 (planeLe pl a 2) * 2 ^ 16

/-- R125: one channel of the interpolated sample, unsaturated. -/
def smpInterp (pl : List Line) (regBase : Nat) (z : Words) (ch pos : Nat) : Int :=
  let i : Int := (pos / 2 ^ 32 : Nat)
  let u := pos % 2 ^ 32
  let row := u / 2 ^ 23
  let w : Int := (u / 2 ^ 7 % 2 ^ 16 : Nat)
  let c0 := romSincRow row
  let c1 := romSincRow (row + 1)
  let acc := (List.range 8).foldl (fun a k =>
    let ck := c0.getD k 0 + asr ((c1.getD k 0 - c0.getD k 0) * w + 0x8000) 16
    a + smpAt pl regBase z ch (i + k - 3) * ck) (0 : Int)
  asr (acc + 2 ^ 21) 22

/-- R124: the advance A of a sample oscillator, Q3.29. -/
def smpAdvance (z : Words) (cap : Nat) (p : Int) : Nat :=
  let (o, m) := pitchSplit (sat32 (p - Words.s z 6))
  let cap := cap * 2 ^ 24
  let s := 31 - o
  if 63 < s then 0
  else if s < 1 then cap
  else min ((m * Words.u z 7 + 2 ^ (s.toNat - 1)) / 2 ^ s.toNat).toNat cap

/-- R124: the position after an advance, with the forward loop. -/
def smpNext (z : Words) (pos adv : Nat) : Nat :=
  let q := (pos + adv * 8) % 2 ^ 64
  if smpLoop z && decide (Words.u z 4 ≤ q / 2 ^ 32) then q - (Words.u z 4 - Words.u z 3) * 2 ^ 32 else q

/-- R124: a one-shot past its end outputs zero and fetches nothing. -/
def smpEnded (z : Words) (pos : Nat) : Bool := !smpLoop z && decide (Words.u z 5 ≤ pos / 2 ^ 32)

/-- R118: DRAM address of sample x of level k of waveframe j of an oscillator's table. -/
def wtAddr (regBase : Nat) (r : Words) (j k x : Nat) : Nat :=
  regBase + Words.fld r 3 23 0 * 0x200000 + j * 8192 + 2 * (4096 - 4096 / 2 ^ k) + 2 * x

/-- R119: the mip level of an increment, with MIPB. -/
def wtLevel (r : Words) (d : Nat) : Nat :=
  let k := ((List.range 11).find? fun k => decide (d < 2 ^ (22 + k))).getD 10
  if Words.fld r 0 25 25 = 1 then min 10 (k + 1) else k

/-- R121: a wavetable output from the two planes. -/
def wtOut (pls : List (List Line)) (regBase : Nat) (r : Words) (j k p : Nat) (wtpos : Int) : Int :=
  let n := 11 - k
  let x := p / 2 ^ (32 - n)
  let x1 := (x + 1) % 2 ^ n
  let u : Int := (if n ≤ 16 then p / 2 ^ (16 - n) % 2 ^ 16 else 0 : Nat)
  let rd := fun (q x : Nat) => signed 16 (planeLe (pls.getD q []) (wtAddr regBase r (j + q) k x) 2)
  let lv := fun (s0 s1 : Int) => s0 * 2 ^ 16 + asr ((s1 - s0) * 2 ^ 16 * u + 0x8000) 16
  let v0 := lv (rd 0 x) (rd 0 x1)
  let v1 := lv (rd 1 x) (rd 1 x1)
  let phi := clampI 0 65536 (wtpos - (j * 2 ^ 16 : Nat))
  v0 + asr ((v1 - v0) * phi + 0x8000) 16

/-- R126: the DRAM lines that the next frame's reads of each plane will touch. -/
def oscNeeds (r z : Words) (regBase : Nat) (o : OscSt) : List (List Nat) :=
  if oscModel r = 3 then
    if o.past || smpEnded z o.pos then [[]]
    else
      let i : Int := (o.pos / 2 ^ 32 : Nat)
      let a := smpAddr regBase z (i - 3) / 64
      let b := (smpAddr regBase z (i + 5) - 1) / 64
      [if a = b then [a] else [a, b]]
  else if oscModel r = 2 then
    let n := 11 - o.mip
    let x := o.phase / 2 ^ (32 - n)
    let x1 := (x + 1) % 2 ^ n
    (List.range 2).map fun q =>
      let a := wtAddr regBase r (o.pair + q) o.mip x / 64
      let b := wtAddr regBase r (o.pair + q) o.mip x1 / 64
      if a = b then [a] else [a, b]
  else []

/-- An empty line buffer. -/
def Line.empty : Line := ⟨0, .none, []⟩

/-- R126: bring one needed line into a buffer holding no needed line, unless it is already there. -/
def fetchLine (dram : Memory) (needs : List Nat) (pl : List Line) (line : Nat) : List Line :=
  if pl.any fun l => l.line == line && l.stat != .none then pl
  else
    let nl : Line := ⟨line, .inflight, Memory.readN 0 dram (line * 64) 64⟩
    match pl.findIdx? fun l => l.stat == .none || !needs.contains l.line with
    | some i => setAt pl i nl
    | none => pl

/-- R126: issue the fetches of an oscillator for the next frame. -/
def fetchOsc (dram : Memory) (r z : Words) (regBase : Nat) (o : OscSt) : OscSt :=
  { o with planes := (oscNeeds r z regBase o).mapIdx fun q ns =>
      ns.foldl (fetchLine dram ns) (o.planes.getD q [Line.empty, Line.empty]) }

/-- R127: fetches that no late command has marked have arrived when the next voice-sample issues. -/
def arriveOsc (o : OscSt) : OscSt :=
  { o with planes := o.planes.map fun pl => pl.map fun l => if l.stat = .inflight then { l with stat := .held } else l }

/-! ## Oscillators (R108, R112 to R125) -/

/-- What an oscillator's computation gives: its new state and whether R107, R113 or R125 limited something. -/
structure OscRes where
  st : OscSt
  sat : Bool
  deriving DecidableEq, Repr, Inhabited

/-- R107: the limited oscillator pitch, note pitch included under KEYTRK. -/
def oscPitch (c : VCtx) (t : Template) (v : Voice) (w : View) (n : Nat) : Int × Bool :=
  let r := t.osc.getD n []
  limS32 (destRaw c t v w (1 + n) + (if oscKeytrk r then v.pitch else 0))

/-- R119: the pitch of a note's first block: P without route contributions. -/
def oscPitch0 (t : Template) (v : Voice) (n : Nat) : Int :=
  let r := t.osc.getD n []
  sat32 (destBase t v (1 + n) + (if oscKeytrk r then v.pitch else 0))

/-- R112, R115, R124: an oscillator at the voice's start. -/
def oscInit (base : Nat) (t : Template) (v : Voice) (n : Nat) : OscSt :=
  let r := t.osc.getD n []
  let z := (t.zones.getD v.zone []).getD n []
  let wt := clampI 0 (255 * 65536) (destBase t v (9 + n))
  { phase := if oscPhrand r then rotl v.seed (8 * n) else Words.u r 2
    prevPhase := 0
    pos := Words.u z 2 * 2 ^ 32
    past := false
    mip := if oscModel r = 2 then wtLevel r (pitchInc base (oscPitch0 t v n)) else 0
    pair := if oscModel r = 2 then min 254 (wt.toNat / 2 ^ 16) else 0
    inc := 0, wtpos := 0, y1 := 0, y2 := 0, hold := 0, outL := 0, outR := 0
    planes := if oscModel r = 3 then [[Line.empty, Line.empty]]
      else if oscModel r = 2 then [[Line.empty, Line.empty], [Line.empty, Line.empty]] else [] }

/-- R116: phase modulation of operator n from the outputs of this frame and its own feedback. -/
def oscPm (c : VCtx) (t : Template) (v : Voice) (w : View) (n : Nat) (o : OscSt) (outs : List Int) : Nat × Bool :=
  let r := t.osc.getD n []
  let code := fun (j : Nat) => if n = 0 then 0x10 + j else if n = 1 then 0x12 + j else 0x16
  let (pm, sat) := (List.range 4).foldl (fun (a : Int × Bool) j =>
    if n < j && oscPmsrc r j then
      let (d, s) := limS32 (destRaw c t v w (code j))
      (a.1 + asr (outs.getD j 0 * d + 2 ^ 27) 28, a.2 || s)
    else a) (0, false)
  let (fb, s) := limS32 (destRaw c t v w (0x0D + n))
  let avg := asr (o.y1 + o.y2) 1
  (unsigned 32 (pm + asr (avg * fb + 2 ^ 27) 28), sat || s)

/-- One oscillator for one frame. White noise has no pitch (R158) and leaves the phase where it started: R112 and R117, which
let a phase advance, do not say so of it (DESIGN CHOICE, log entry 81). -/
def oscStep (c : VCtx) (t : Template) (v : Voice) (w : View) (regBase n : Nat) (outs : List Int) (o : OscSt) : OscRes :=
  let r := t.osc.getD n []
  let z := (t.zones.getD v.zone []).getD n []
  let model := oscModel r
  let first := c.frame = v.first
  if model = 1 then
    let (p, s1) := oscPitch c t v w n
    let d := pitchInc c.base p
    let (pw, s2) := if oscShape r = 1 then limited 0x01000000 0xFF000000 (destRaw c t v w (5 + n)) else (0, false)
    let y := classicRaw (oscShape r) o.phase d pw
    ⟨{ o with phase := (o.phase + d) % 2 ^ 32, prevPhase := o.phase, inc := d, outL := sat32 y, outR := sat32 y },
      s1 || s2 || clipped 32 y⟩
  else if model = 2 then
    let (p, s1) := oscPitch c t v w n
    let d := pitchInc c.base p
    let dl := min d (2 ^ (22 + o.mip) - 1)
    let (wt, s2) := limited 0 (255 * 65536) (destRaw c t v w (9 + n))
    let y := wtOut o.planes regBase r o.pair o.mip o.phase wt
    let o := { o with phase := (o.phase + dl) % 2 ^ 32, prevPhase := o.phase, inc := d, wtpos := wt.toNat, outL := y, outR := y }
    -- R119: level and pair of the next block from the values of the frame before it
    let o := if (c.frame + 1 - v.first) % 16 = 0 then
        { o with mip := wtLevel r d, pair := min 254 (wt.toNat / 2 ^ 16) } else o
    ⟨o, s1 || s2⟩
  else if model = 3 then
    let (p, s1) := oscPitch c t v w n
    let a := smpAdvance z (effCap r v.prCap) p
    let ended := o.past || smpEnded z o.pos
    let l := if ended then 0 else smpInterp (o.planes.getD 0 []) regBase z 0 o.pos
    let rr := if ended then 0 else if smpCh z = 2 then smpInterp (o.planes.getD 0 []) regBase z 1 o.pos else l
    ⟨{ o with pos := smpNext z o.pos a, past := ended, inc := a, outL := sat32 l, outR := sat32 rr },
      s1 || clipped 32 l || clipped 32 rr⟩
  else if model = 4 then
    let (p, s1) := oscPitch c t v w n
    let d := pitchInc c.base p
    let (pm, s2) := oscPm c t v w n o outs
    let y := sinLookup (o.phase + pm)
    ⟨{ o with phase := (o.phase + d) % 2 ^ 32, prevPhase := o.phase, inc := d, y2 := o.y1, y1 := y, outL := y, outR := y },
      s1 || s2⟩
  else if model = 5 then
    let white := s32 (rotl v.noise (8 * n))
    if oscShape r = 0 then ⟨{ o with outL := white, outR := white }, false⟩
    else
      let (p, s1) := oscPitch c t v w n
      let d := pitchInc c.base p
      let y := if first ∨ o.phase < o.prevPhase then white else o.hold
      ⟨{ o with phase := (o.phase + d) % 2 ^ 32, prevPhase := o.phase, inc := d, hold := y, outL := y, outR := y }, s1⟩
  else ⟨{ o with outL := 0, outR := 0 }, false⟩

/-! ## Filters (R137 to R142) -/

/-- R139: the state-variable filter. -/
def svfStep (mode : Nat) (g r x : Int) (f : FiltSt) : FiltSt × Bool :=
  let k := 2 ^ 31 - r
  let kk := asr (k + 2) 2
  let den := 2 ^ 56 + g * (g + kk)
  let a1 := roundDiv (2 ^ 86) den
  let a2 := rnd (g * a1) 28
  let a3 := rnd (g * a2) 28
  let v3 := x - f.ic2
  let v1 := rnd (a1 * f.ic1 + a2 * v3) 30
  let v2 := f.ic2 + rnd (a2 * f.ic1 + a3 * v3) 30
  let i1 := 2 * v1 - f.ic1
  let i2 := 2 * v2 - f.ic2
  let kb := rnd (k * v1) 30
  let hp := x - kb - v2
  let y := if mode = 0 then v2 else if mode = 1 then v1 else if mode = 2 then hp
    else if mode = 3 then x - kb else if mode = 4 then v2 - hp else x - 2 * kb
  ({ f with ic1 := sat40 i1, ic2 := sat40 i2, out := sat32 y }, clipped 40 i1 || clipped 40 i2 || clipped 32 y)

/-- R141: one Newton iteration. -/
def ladderNewton (w c u : Int) : Int :=
  let t := tanhLookup (w - rnd (c * u) 29)
  let fd := 2 ^ 29 + rnd (c * (2 ^ 31 - rnd (t * t) 31)) 31
  u - roundDiv ((u - t) * 2 ^ 29) fd

/-- R141: the four stages: outputs y[1..4], new states and whether one clamped. -/
def ladderStages (g : Int) (z : Int) : List Int → List Int × List Int × Bool
  | [] => ([], [], false)
  | s :: t =>
    let y := s + rnd (g * (z - s)) 31
    let ns := 2 * y - s
    let (ys, ss, c) := ladderStages g y t
    (y :: ys, sat40 ns :: ss, c || clipped 40 ns)

/-- R141: the ladder filter. -/
def ladderStep (mode : Nat) (g r x : Int) (f : FiltSt) : FiltSt × Bool :=
  let gg := roundDiv (g * 2 ^ 31) (g + 2 ^ 28)
  let g2 := rnd (gg * gg) 31
  let g4 := rnd (g2 * g2) 31
  let s := f.s.foldl (fun z sn => sn + rnd (gg * (z - sn)) 31) 0
  let w := x - rnd (r * s) 29
  let c := rnd (r * g4) 31
  let u := ladderNewton w c (ladderNewton w c f.up)
  let (ys, ss, cl) := ladderStages gg u f.s
  let y := ys.getD mode 0
  ({ f with s := ss, up := u, out := sat32 y }, cl || clipped 32 y)

/-- R142: the resonator; d is taken before the 0.45 limit. -/
def resonStep (neg : Bool) (damp : Int) (d : Nat) (r x : Int) (f : FiltSt) : FiltSt × Bool :=
  let dd := clampI (2 * 2 ^ 16) (256 * 2 ^ 16) (roundDiv (2 ^ 48) (max d 1 : Nat))
  let n := (dd / 2 ^ 16).toNat
  let fr := dd % 2 ^ 16
  let a := Store.get 0 f.buf ((f.wp + 512 - n) % 256)
  let b := Store.get 0 f.buf ((f.wp + 512 - n - 1) % 256)
  let yd := a + rnd ((b - a) * fr) 16
  let lp := f.lp + rnd (damp * (yd - f.lp)) 31
  let fb := if neg then -r else r
  let y := x + rnd (fb * lp) 31
  ({ f with lp := lp, buf := Store.set 0 f.buf f.wp (sat32 y), wp := (f.wp + 1) % 256, out := sat32 y }, clipped 32 y)

/-- R138: the prewarped gain of a cutoff increment. -/
def filtGain (d : Nat) : Int :=
  let d := min d 0x73333333
  let i := d / 2 ^ 19
  let f : Int := (d % 2 ^ 19 : Nat)
  romTan i + asr ((romTan (i + 1) - romTan i) * f + 2 ^ 18) 19

/-- One filter for one frame: a filter of TYPE off passes its input unchanged (R134). -/
def filtStep (c : VCtx) (t : Template) (v : Voice) (w : View) (n : Nat) (x : Int) (f : FiltSt) : FiltSt × Bool :=
  let r := t.filt.getD n []
  let type := Words.fld r 0 31 30
  if type = 0 then ({ f with out := x }, false)
  else
    let (pc, s1) := limS32 (destRaw c t v w (0x1B + n) + (if Words.fld r 0 26 26 = 1 then v.pitch else 0))
    let (res, s2) := limited 0 0x7F000000 (destRaw c t v w (0x1D + n))
    let d := pitchInc c.base pc
    let (f, s3) := if type = 1 then svfStep (Words.fld r 0 29 27) (filtGain d) res x f
      else if type = 2 then ladderStep (Words.fld r 0 29 27) (filtGain d) res x f
      else resonStep (Words.fld r 0 25 25 == 1) (Words.u r 3) d res x f
    (f, s1 || s2 || s3)

/-- R135: filter state at the voice's start. -/
def filtInit : FiltSt := ⟨0, 0, [0, 0, 0, 0], 0, [], 0, 0, 0⟩

/-! ## Waveshaper (R143) -/

/-- Entry i of a shaper table: ROM tables 0 and 1, then the hood's. -/
def shaperEntry (c : VCtx) (table i : Nat) : Int :=
  if table < 2 then romShaper table i else (Store.get [] c.shapers table).getD i 0

/-- R143: the waveshaper: output, and whether the drive product or the DRIVE destination was limited. -/
def shaperStep (c : VCtx) (t : Template) (v : Voice) (w : View) (x : Int) : Int × Bool :=
  if Words.fld t.shaper 0 31 31 = 0 then (x, false)
  else
    let (drive, s1) := limited 0 0x7FFFFFFF (destRaw c t v w 0x1F)
    let raw := rnd (drive * x) 28
    let q := (sat32 raw + 2 ^ 31).toNat
    let i := q / 2 ^ 22
    let f : Int := (q / 2 ^ 6 % 2 ^ 16 : Nat)
    let tb := Words.fld t.shaper 0 30 27
    (shaperEntry c tb i + asr ((shaperEntry c tb (i + 1) - shaperEntry c tb i) * f + 0x8000) 16, s1 || clipped 32 raw)

/-! ## Envelopes (R145 to R147) -/

/-- Entry i of a curve table: ROM curves 0-3, then the hood's. -/
def curveEntry (c : VCtx) (curve i : Nat) : Int :=
  if curve < 4 then romCurve curve i else (Store.get [] c.curves curve).getD i 0

/-- R146: the curve value at progress p. -/
def curveAt (c : VCtx) (curve p : Nat) : Int :=
  if 2 ^ 32 ≤ p then 2 ^ 31
  else
    let i := p / 2 ^ 24
    let f : Int := (p / 2 ^ 8 % 2 ^ 16 : Nat)
    curveEntry c curve i + asr ((curveEntry c curve (i + 1) - curveEntry c curve i) * f + 0x8000) 16

/-- R146, R147: the segment after a completed or passed one. -/
def segNext (loop : Nat) (released : Bool) : Seg → Seg
  | .delay => .attack
  | .attack => .hold
  | .hold => .decay
  | .decay =>
    if loop = 2 then (if released then .release else .attack)
    else if loop = 1 && !released then .attack else .sustain
  | .sustain => .sustain
  | .release => if loop = 2 then .attack else .done
  | .done => .done

/-- Index of a timed segment's rate item (R158). -/
def segItem : Seg → Option Nat
  | .delay => some 0 | .attack => some 1 | .hold => some 2 | .decay => some 3 | .release => some 4
  | .sustain => none | .done => none

/-- R146, R147: pass over instant segments at entry; none when a whole cycle is instant (R147 item 5). -/
def segEnter (loop : Nat) (released : Bool) (rates : List Int) : Nat → Seg → Option Seg
  | 0, _ => none
  | n + 1, s =>
    match segItem s with
    | none => some s
    | some i => if rates.getD i 0 = 0x7FFFFFFF then segEnter loop released rates n (segNext loop released s) else some s

/-- The level of the current segment at progress p (R146). -/
def envLevel (c : VCtx) (rec : Words) (sus : Int) (e0 : Int) (p : Nat) : Seg → Int
  | .delay => 0
  | .attack => e0 + rnd ((0x7FFFFFFF - e0) * curveAt c (Words.fld rec 0 29 26) p) 31
  | .hold => 0x7FFFFFFF
  | .decay => e0 + rnd ((sus - e0) * curveAt c (Words.fld rec 0 25 22) p) 31
  | .sustain => sus
  | .release => e0 - rnd (e0 * curveAt c (Words.fld rec 0 21 18) p) 31
  | .done => 0

/-- Run a frame of the segment an envelope is in. -/
def envRun (c : VCtx) (rec : Words) (rates : List Int) (sus : Int) (released : Bool) (s : EnvSt) : EnvSt :=
  let loop := Words.fld rec 0 31 30
  match segItem s.seg with
  | none => { s with e := envLevel c rec sus s.e0 0 s.seg, next := none, complete := s.seg = .done }
  | some i =>
    let p := min (s.p + pitchInc c.base (rates.getD i 0)) (2 ^ 32)
    let fin : Bool := decide (p = 2 ^ 32)
    { s with
      p := p
      e := envLevel c rec sus s.e0 p s.seg
      next := if fin then some (segNext loop released s.seg) else none
      complete := fin && s.seg = .release && loop ≠ 2 }

/-- R146, R147: one envelope for one frame. `first`: the voice's first frame; `rel`: release is entered in this frame. A cycle of
instant segments makes its return to ATTACK again in the next frame (R147 item 5). -/
def envStep (c : VCtx) (rec : Words) (rates : List Int) (sus : Int) (first rel released : Bool) (s : EnvSt) : EnvSt :=
  let loop := Words.fld rec 0 31 30
  let e0 := if first then 0 else s.e
  let entry : Option Seg := if rel then some .release else if first then some .delay else s.next
  match entry with
  | none => envRun c rec rates sus released s
  | some g =>
    match segEnter loop released rates 6 g with
    | some g' => envRun c rec rates sus released { s with seg := g', p := 0, e0 := e0, next := none }
    | none => { s with e := e0, e0 := e0, next := some .attack, complete := false }

/-- R135: an envelope before the voice's first frame. -/
def envInit : EnvSt := ⟨.delay, 0, 0, 0, none, false⟩

/-! ## LFOs (R148 to R151) -/

/-- R149: the value of an LFO shape at a phase, before UNI; sample-and-hold gives the held value. -/
def lfoShape (shape p : Nat) (hold : Int) : Int :=
  if shape = 0 then sinLookup p
  else if shape = 1 then sat32 (2 * (((p : Int) - 2 ^ 31).natAbs : Int) - 2 ^ 31)
  else if shape = 2 then (p : Int) - 2 ^ 31
  else if shape = 3 then -1 - ((p : Int) - 2 ^ 31)
  else if shape = 4 then (if p < 2 ^ 31 then 0x7FFFFFFF else -2 ^ 31)
  else hold

/-- R151: the phase of a synchronised LFO. -/
def syncPhase (bp div offset : Nat) : Nat := if div = 0 then offset % 2 ^ 32 else (bp * 96 / div / 2 ^ 8 + offset) % 2 ^ 32

/-- R149: one LFO for one frame at phase p: `first` draws a new held value; `fresh` is the value drawn. -/
def lfoStep (shape : Nat) (uni first : Bool) (fresh : Int) (p inc : Nat) (s : LfoSt) : LfoSt :=
  let hold := if shape = 5 && (first || decide (p < s.prev)) then fresh else s.hold
  let y := lfoShape shape p hold
  { phase := (p + inc) % 2 ^ 32, prev := p, hold := hold, out := if uni then asr y 1 + 2 ^ 30 else y }

/-- R148 to R151: voice LFO n for one frame, and whether its RATE was limited. -/
def vlfoStep (c : VCtx) (t : Template) (v : Voice) (w : View) (n : Nat) (s : LfoSt) : LfoSt × Bool :=
  let r := t.lfo.getD n []
  let sync := Words.fld r 0 28 28 == 1
  let rand := Words.fld r 0 26 26 == 1
  let off := if rand then rotl v.seed (8 * n + 4) else Words.u r 2
  let first := decide (c.frame = v.first)
  let (rate, sat) := if sync then (0, false) else limS32 (destRaw c t v w (0x40 + n))
  let p := if sync then syncPhase c.bp (Words.fld r 0 15 0) off else if first then off else s.phase
  let inc := if sync then 0 else pitchInc c.base rate
  (lfoStep (Words.fld r 0 31 29) (Words.fld r 0 27 27 == 1) first (s32 (rotl v.noise (8 * n + 4))) p inc s, sat)

/-! ## Placement and sends (R163 to R171) -/

/-- A free send entry. -/
def SendEntry.none : SendEntry := ⟨0, 0, 0, 0, 0, 0, 0⟩
/-- R168: an entry is free when its current gain and its target are zero. -/
def SendEntry.isFree (e : SendEntry) : Bool := e.gain == 0 && e.target == 0

/-- Fields of a cell's pair (R165). -/
def pairBus (w : Word) : Nat := bits w.toNat 31 26
def pairGain (w : Word) : Nat := bits w.toNat 15 0

/-- The index of the entry with the smallest current gain among those not holding a pair of the cell. -/
def evictIdx (es : List (SendEntry × Bool)) (buses : List Nat) : Option Nat :=
  (es.mapIdx fun i e => (i, e)).foldl (fun (best : Option Nat) ie =>
    if ie.2.2 || buses.contains ie.2.1.bus && !ie.2.1.isFree then best
    else match best with
      | some b => if ie.2.1.gain < ((es.map Prod.fst).getD b SendEntry.none).gain then some ie.1 else best
      | none => some ie.1) none

/-- R168 step 1: one pair of the held cell. Entries carry a mark: taken by a pair of this cell. -/
def takePair (buses : List Nat) (st : List (SendEntry × Bool) × Nat) (w : Word) : List (SendEntry × Bool) × Nat :=
  let b := pairBus w
  let g := pairGain w
  if g = 0 then st
  else
    match st.1.findIdx? fun e => !e.2 && !e.1.isFree && e.1.bus == b with
    | some i => (updAt st.1 i fun e => ({ e.1 with cellGain := g }, true), st.2)
    | none =>
      match st.1.findIdx? fun e => !e.2 && e.1.isFree with
      | some i => (updAt st.1 i fun e => ({ e.1 with bus := b, cellGain := g }, true), st.2)
      | none =>
        match evictIdx st.1 buses with
        | some i => (updAt st.1 i fun e => ({ e.1 with bus := b, cellGain := g, gain := 0, start := 0, target := 0, n := 0, ramp := 0 }, true), st.2 + 1)
        | none => st

/-- R168 step 1: the held cell given to the entries; the count is of evictions. -/
def takeCell (pairs : Words) (es : List SendEntry) : List SendEntry × Nat :=
  let buses := (pairs.filter fun w => pairGain w != 0).map pairBus
  let (es, ev) := pairs.foldl (takePair buses) (es.map fun e => (e, false), 0)
  (es.map fun e => if e.2 then e.1 else { e.1 with cellGain := 0 }, ev)

/-- R168 steps 2 to 5 for one entry. `hold`: targets stay (a late cell); `jump`: onset at once. -/
def entryStep (hold jump : Bool) (att : Int) (ramp : Nat) (e : SendEntry) : SendEntry :=
  let target := if hold then e.target else rnd ((e.cellGain : Int) * att) 15
  let e := if target ≠ e.target then
      (if jump && target ≠ 0 then { e with target := target, start := target, gain := target, n := ramp, ramp := ramp }
       else { e with target := target, start := e.gain, n := 0, ramp := ramp })
    else e
  if e.n < e.ramp then
    let n := e.n + 1
    { e with n := n, gain := if n = e.ramp then e.target else e.start + roundDiv ((e.target - e.start) * n) e.ramp }
  else e

/-- R172: frames of a RAMP code. -/
def rampFrames (code : Nat) : Nat := 16 * 2 ^ code

/-- Interpolated distance-table value (R167). -/
def distLookup (tb : List Int) (dist : Nat) : Int :=
  let i := dist / 2 ^ 23
  let f : Int := (dist / 2 ^ 7 % 2 ^ 16 : Nat)
  tb.getD i 0 + asr ((tb.getD (i + 1) 0 - tb.getD i 0) * f + 0x8000) 16

/-- R165: DRAM address of a cell. -/
def cellAddr (ps : PlaceSet) (a e : Nat) : Nat := ps.base + 4096 + 32 * (1024 * e + a)

/-- What a voice-sample gives: the voice, its sends (bus, value), its flags, and its evictions. -/
structure VoiceOut where
  voice : Voice
  sends : List (Nat × Int)
  flags : SatFlags
  evict : Nat
  deriving DecidableEq, Repr, Inhabited

/-- R105: the fade factor of frame F0+k. -/
def fadeGain (n k : Nat) : Int := ((n - 1 - k) * 2 ^ 31 / n : Nat)

/-- R171: one send, with the fade applied. -/
def sendValue (fade : Option Int) (gain sig : Int) : Int :=
  let v := rnd (gain * sig) 31
  match fade with
  | some g => rnd (v * g) 31
  | none => v

/-- R163 to R171, step 8: placement and sends; the cell selected for the next frame is fetched. -/
def placeStep (c : VCtx) (dram : Memory) (t : Template) (v : Voice) (w : View) (fade : Option Int) (y : Int) :
    Voice × List (Nat × Int) × Bool × Nat :=
  let aux := (List.range 2).foldl (fun (a : List (Nat × Int) × Bool) n =>
    let b := Words.fld t.send 0 (if n = 0 then 31 else 15) (if n = 0 then 16 else 0)
    if b = 0xFFFF then a
    else
      let (g, s) := limS32 (destRaw c t v w (0x53 + n))
      (a.1 ++ [(b, sendValue fade g y)], a.2 || s)) ([], false)
  if Words.fld t.place 0 31 31 = 1 then
    let dir := (List.range 8).foldl (fun (a : List (Nat × Int) × Bool) n =>
      let b := Words.fld t.place (4 + n / 2) (if n % 2 = 0 then 31 else 15) (if n % 2 = 0 then 16 else 0)
      if b = 0xFFFF then a
      else
        let (g, s) := limS32 (destRaw c t v w (0x4B + n))
        (a.1 ++ [(b, sendValue fade g y)], a.2 || s)) ([], false)
    (v, dir.1 ++ aux.1, dir.2 || aux.2, 0)
  else
    match Store.get none c.sets (Words.fld t.place 0 30 28) with
    | none => (v, aux.1, aux.2, 0)
    | some ps =>
      let az := unsigned 32 (destRaw c t v w 0x48)
      let (el, s1) := limited (-2 ^ 30) (2 ^ 30) (destRaw c t v w 0x49)
      let (dist, s2) := limited 0 0x7FFFFFFF (destRaw c t v w 0x4A)
      let a := (az + 2 ^ 21) % 2 ^ 32 / 2 ^ 22 % 1024
      let e := ((el + 2 ^ 30) * 127 + 2 ^ 30).toNat / 2 ^ 31
      let att := distLookup ps.da dist.toNat
      let k := distLookup ps.aa dist.toNat
      let z := if k = 0x7FFFFFFF then y else v.air + rnd (k * (y - v.air)) 31
      let first := decide (c.frame = v.first)
      -- R169: the fetch of F-1 has arrived, or is discarded as late
      let late := match v.fetch with | some f => f.late | none => false
      let held : Option Cell := match v.fetch with
        | some f => if f.late then v.cell else some (if f.ecc then { f.cell with pairs := [] } else f.cell)
        | none => v.cell
      let (es, ev) := match held with
        | some cl => if late then (v.entries, 0) else takeCell cl.pairs v.entries
        | none => (v.entries, 0)
      let ramp := rampFrames (v.ramp.getD (Words.fld t.place 0 27 26))
      let jump := Words.fld t.place 0 25 25 == 1 && decide (c.frame = v.first + 1)
      let es := if first then es else es.map (entryStep late jump att ramp)
      let sends := (es.filter fun x => x.gain ≠ 0).map fun x => (ps.setbase + x.bus, sendValue fade x.gain z)
      let same : Bool := match held with | some cl => cl.a == a && cl.e == e | none => false
      let fetch := if same then none
        else some ⟨⟨a, e, Memory.readWs 0 dram (cellAddr ps a e) 8⟩, false, false⟩
      ({ v with air := z, entries := es, cell := held, fetch := fetch }, sends ++ aux.1, s1 || s2 || aux.2, ev)

/-! ## The voice-sample (R160) -/

/-- The state of a voice before its first frame, from its note (R90, R95, R135). -/
def voiceInit (base : Nat) (t : Template) (v : Voice) : Voice :=
  { v with
    osc := (List.range 4).map (oscInit base t v)
    filt := [filtInit, filtInit]
    env := [envInit, envInit, envInit, envInit]
    lfo := [⟨0, 0, 0, 0⟩, ⟨0, 0, 0, 0⟩, ⟨0, 0, 0, 0⟩]
    ga := 0, amp := 0, air := 0
    entries := List.replicate 16 SendEntry.none
    cell := none, fetch := none
    noise := v.seed }

/-- R108: oscillators 3, 2, 1, 0. -/
def oscAll (c : VCtx) (t : Template) (regOf : List Nat) (v : Voice) (w : View) :
    Nat → List OscSt → List Int → Bool → List OscSt × List Int × Bool
  | 0, os, outs, s => (os, outs, s)
  | n + 1, os, outs, s =>
    let r := oscStep c t v w (regOf.getD n 0) n outs (os.getD n (oscInit c.base t v n))
    oscAll c t regOf v w n (setAt os n r.st) (setAt outs n r.st.outL) (s || r.sat)

/-- R160: the voice-sample of a frame. `regOf` gives the DRAM base of each oscillator's region. -/
def voiceSample (c : VCtx) (dram : Memory) (t : Template) (regOf : List Nat) (fade : Option Int) (v : Voice) : VoiceOut :=
  let first := decide (c.frame = v.first)
  let v := { v with noise := galois 32 v.noise, osc := v.osc.map arriveOsc }
  let w1 : View := ⟨v.env.map (·.e), v.lfo.map (·.out), v.osc.map (·.outL), v.filt.map (·.out), v.amp⟩
  -- pass 1, envelopes and voice LFOs
  let envs := v.env.mapIdx fun n s =>
    let rec_ := t.env.getD n []
    let rates := (List.range 5).map fun i => limS32 (destRaw c t v w1 (0x28 + 6 * n + i))
    let sus := limited 0 0x7FFFFFFF (destRaw c t v w1 (0x28 + 6 * n + 5))
    (envStep c rec_ (rates.map (·.1)) sus.1 first v.relNow v.released s, rates.any (·.2) || sus.2)
  let lfos := v.lfo.mapIdx fun n s => vlfoStep c t v w1 n s
  let w2 : View := { w1 with env := envs.map (·.1.e), lfo := lfos.map (·.1.out) }
  -- pass 2, oscillators
  let (os, outs, sOsc) := oscAll c t regOf v w2 4 v.osc w2.osc false
  let w3 : View := { w2 with osc := outs }
  -- pass 3, mixer
  let lvl := (List.range 4).map fun n => limS32 (destRaw c t v w3 (0x17 + n))
  let mixSum := fun (side : Nat) => (List.range 4).foldl (fun (a : Int) n =>
    if bitAt (Words.fld t.chain 0 7 0) (2 * n + side) then
      let o := os.getD n (oscInit c.base t v n)
      a + rnd ((lvl.getD n (0, false)).1 * (if side = 0 then o.outL else o.outR)) 31
    else a) 0
  let ma := mixSum 0
  let mb := mixSum 1
  -- filters
  let par := Words.fld t.chain 0 31 30 = 1
  let (f0, sF0) := filtStep c t v w3 0 (sat32 ma) (v.filt.getD 0 filtInit)
  let (f1, sF1) := filtStep c t v w3 1 (if par then sat32 mb else f0.out) (v.filt.getD 1 filtInit)
  let x := if par then f0.out + f1.out else f1.out
  -- waveshaper and amplifier
  let (xs, sW) := shaperStep c t v w3 (sat32 x)
  let (level, sL) := limS32 (destRaw c t v w3 0x20)
  let ga := rnd ((envs.getD 0 (envInit, false)).1.e * level) 31
  let y := rnd (ga * xs) 31
  let (v8, sends, sP, ev) := placeStep c dram t v w3 fade y
  let v' := { v8 with
    osc := os.mapIdx fun n o => fetchOsc dram (t.osc.getD n []) ((t.zones.getD v.zone []).getD n []) (regOf.getD n 0) o
    filt := [f0, f1], env := envs.map (·.1), lfo := lfos.map (·.1), ga := ga, amp := y, relNow := false }
  { voice := v', sends := sends, evict := ev
    flags := { osat := sOsc, fsat := sF0 || sF1, wsat := sW
               msat := envs.any (·.2) || lfos.any (·.2) || lvl.any (·.2) || clipped 32 ma || clipped 32 mb
                 || (par && clipped 32 x) || sL || sP } }

/-- R85: the amplifier envelope completed its last release segment in the frame computed. -/
def Voice.ended (v : Voice) : Bool := (v.env.getD 0 envInit).complete

/-- R104: the amplitude estimate. -/
def Voice.ampEst (v : Voice) : Nat := v.ga.natAbs / 2 ^ 16

/-! ## Group LFOs (R150 to R152) -/

/-- R150: a group at the first frame of a running period. -/
def groupStart (h : HGroup) (g : Group) : Group :=
  { g with
    bi := h.bi, bp := 0, gs := if h.gseed = 0 then 1 else h.gseed, gctl := h.gctl
    lfo := h.lfo.map fun i => ⟨i, ⟨i.phase * 4 % 2 ^ 32, 0, 0, 0⟩, true⟩ }

/-- R150: the group's LFOs of a frame, from BP and the phases of the frame; then they advance. -/
def groupLfos (base : Nat) (g : Group) : Group :=
  let gs := galois 32 g.gs
  { g with
    gs := gs
    bp := (g.bp + g.bi) % 2 ^ 64
    lfo := g.lfo.mapIdx fun m l =>
      let p := if l.item.sync then syncPhase g.bp l.item.div (l.item.phase * 4) else l.st.phase
      { l with draw := false
               st := lfoStep l.item.shape l.item.uni l.draw (s32 (rotl gs (2 * m))) p (pitchInc base l.item.rate) l.st } }

end Sys2Proof.Machine
end

