-- ==== Sys2Proof/Machine/Checks.lean ====
section
/-! DEFINITION. The carder's acceptance checks (R43) and the effective stamp (R46). -/

namespace Sys2Proof.Machine

/-! ## Frames (R33 to R35) -/

/-- R34: the number of the open window. -/
def openWindow (s : State) : Nat := if inPeriod s && s.frame.ran then s.frame.cnt + 1 else s.frame.start

/-! ## Fields (R38, R39) -/

/-- Whether every word of the list is zero. -/
def zeroWords (r : EvRec) (is : List Nat) : Bool := is.all fun i => Words.u r i == 0

/-- R158: a listed destination code. -/
def destCode (c : Nat) : Bool :=
  (decide (1 ≤ c) && decide (c ≤ 0x20)) || (decide (0x28 ≤ c) && decide (c ≤ 0x42)) || (decide (0x48 ≤ c) && decide (c ≤ 0x54))

/-- A VG_STEAL.KEYS value holds each key once. -/
def keysOk (k : Nat) : Bool := (List.range 4).all fun c => (List.range 4).any fun i => bits k (2 * i + 1) (2 * i) == c

/-- R43, R223: conditions on an engine in TARGET. -/
def engineConds (s : State) (r : EvRec) : List (Bool × Err) :=
  [(decide (evTarget r < 16) && !engineOn s (evTarget r), .absent), (decide (16 ≤ evTarget r), .range)]

/-- R43, R86, R95, R153: a group at or above the hood's group count. -/
def groupCond (s : State) (r : EvRec) : Bool × Err := ((hgroupOf s (evTarget r)).isNone, .range)

/-- R43, R38: conditions on a voice named by handle. -/
def handleConds (s : State) (r : EvRec) : List (Bool × Err) :=
  if evHandle r then
    [(!clusterOn s (evSlot r / 256), .absent), (Words.fld r 1 23 11 != 0, .rsvd), (decide ((rateOf s).voices ≤ evSlot r % 256), .range)]
  else []

/-- R95: a NOTE_START. -/
def noteStartConds (s : State) (r : EvRec) : List (Bool × Err) :=
  [(Words.u r 4 != 0 || Words.fld r 7 31 8 != 0, .rsvd), groupCond s r] ++
  match templateOf s (evTarget r) with
  | none => []
  | some t =>
    let zone := Words.fld r 6 15 0
    [(if t.sampled then decide (t.zones.length ≤ zone) else zone != 0, .range), (decide (t.prMax < Words.fld r 7 7 0), .range)]

/-- R161: a VOICE_SET. -/
def voiceSetConds (s : State) (r : EvRec) : List (Bool × Err) :=
  let sp := evSpace r
  let ix := evIndex r
  handleConds s r ++
  [(!zeroWords r [6, 7] || (sp == 0 && decide (7 < ix)) || (sp == 1 && !destCode ix) || (sp == 2 && decide (23 < ix)) || decide (2 < sp), .rsvd),
   groupCond s r, (sp == 1 && decide (0x48 ≤ ix) && decide (ix ≤ 0x52), .range)]

/-- Width of word 5's field for the items of GROUP_SET SPACE 0 (R86). -/
def groupWidth (ix : Nat) : Nat := [12, 4, 8, 2, 2, 8].getD ix 0

/-- R86, R152: a GROUP_SET. R86 names no code for an INDEX above 15 in SPACE 0x1 and 0x2: E_RSVD, as for an INDEX
without a meaning in SPACE 0x0 (DESIGN CHOICE, log entry 23). -/
def groupSetConds (s : State) (r : EvRec) : List (Bool × Err) :=
  let sp := evSpace r
  let ix := evIndex r
  let v := Words.u r 5
  [(!zeroWords r [1, 6, 7], .rsvd), groupCond s r,
   (decide (2 < sp) || (sp == 0 && decide (5 < ix)) || (sp != 0 && decide (15 < ix)), .rsvd)] ++
  (if sp = 0 ∧ ix ≤ 5 then
    [(v / 2 ^ groupWidth ix != 0, .rsvd)] ++
    match hgroupOf s (evTarget r) with
    | none => []
    | some g =>
      [(ix == 0 && decide (min g.limitMax 2048 < v), .range), (ix == 2 && (v == 0 || Nat.land v g.maskMax != v), .range),
       (ix == 5 && !keysOk v, .range)]
  else if sp = 2 then
    let item := bits v 31 30
    [(item == 1 && (bits v 29 8 != 0 || bits v 2 0 != 0 || decide (5 < bits v 7 5)), .rsvd), (item == 2 && bits v 29 16 != 0, .rsvd),
     (item == 2 && bits v 15 0 == 0, .range)]
  else [])

/-- R172: a PLACE_SET. -/
def placeSetConds (s : State) (r : EvRec) : List (Bool × Err) :=
  let ix := evIndex r
  handleConds s r ++
  [(!zeroWords r [6, 7] || evSpace r != 0 || decide (11 < ix) || (ix == 11 && Words.fld r 5 31 2 != 0), .rsvd), groupCond s r,
   (ix == 1 && (decide (Words.s r 5 < -2 ^ 30) || decide (2 ^ 30 < Words.s r 5)), .range), (ix == 2 && bitAt (Words.u r 5) 31, .range)]

/-- R153: a TEMPO. -/
def tempoConds (s : State) (r : EvRec) : List (Bool × Err) :=
  [(Words.u r 1 != 0 || Words.fld r 4 31 1 != 0 || (Words.fld r 4 0 0 == 1 && !zeroWords r [6, 7]), .rsvd), groupCond s r]

/-- R223: a FUL_SET. -/
def fulSetConds (s : State) (r : EvRec) : List (Bool × Err) :=
  engineConds s r ++ [(!zeroWords r [1, 6, 7] || decide (1 < evSpace r) || Words.fld r 4 27 15 != 0, .rsvd)]

/-- R226: an XF_START. -/
def xfStartConds (s : State) (r : EvRec) : List (Bool × Err) :=
  let first := Words.fld r 5 13 0
  let count := Words.fld r 6 14 0
  let logn := Words.fld r 7 3 0
  engineConds s r ++
  [(!zeroWords r [1, 4] || Words.fld r 5 31 14 != 0 || Words.fld r 6 31 15 != 0 || Words.fld r 7 31 4 != 0, .rsvd),
   (count == 0 || decide (16384 < first + count) || decide (logn < 4) || decide (12 < logn), .range)]

/-- R235: a delay line's or tap's value lies in 3 – LMAX. -/
def delayIn (lmax v : Nat) : Bool := decide (3 ≤ v) && decide (v ≤ lmax)

/-- R235: a DELAY_SET. -/
def delaySetConds (s : State) (r : EvRec) : List (Bool × Err) :=
  let sp := evSpace r
  let ix := evIndex r
  let v := Words.fld r 5 18 0
  engineConds s r ++
  [(!zeroWords r [1, 6, 7] || decide (1 < sp) || (sp == 0 && decide (255 < ix)) || (sp == 1 && decide (127 < ix)) || Words.fld r 5 31 19 != 0, .rsvd),
   (match sp with
    | 0 =>
      (match Store.get none s.dly.taps ix with
       | some t =>
         (match Store.get none s.dly.lines t.line with
          | some l => t.owner != evTarget r || !(v == 0 || delayIn l.lmax v)
          | none => true)
       | none => true)
    | 1 => (match Store.get none s.dly.lines ix with | some l => l.owner != evTarget r || !delayIn l.lmax v | none => true)
    | _ => false, .range)]

/-- R388: a CV_SET. The bus is checked where the item selects the bus source (log entry 7). -/
def cvSetConds (s : State) (r : EvRec) : List (Bool × Err) :=
  let c := evTarget r
  let ix := evIndex r
  let v := Words.u r 5
  let given := match s.hood with | some h => h.buses.cv.contains (c, bits v 8 0) | none => false
  [(decide (c < 16) && (hcvOf s c).isNone, .absent), (decide (16 ≤ c), .range),
   (!zeroWords r [1, 6, 7] || evSpace r != 0 || decide (4 < ix) || (ix == 0 && bits v 31 16 != 0) || (ix == 1 && bits v 31 2 != 0)
     || (ix == 2 && bits v 29 9 != 0), .rsvd),
   (ix == 1 && (cvBipolar s c != bitAt v 1), .range), (ix == 2 && !given, .range), (ix == 3 && bitAt v 31, .range)]

/-- What each opcode's chapter checks at acceptance. -/
def opConds (s : State) (r : EvRec) : List (Bool × Err) :=
  match evOp r with
  | 0x01 => noteStartConds s r
  | 0x02 => handleConds s r ++ [(!zeroWords r [4, 6, 7] || Words.fld r 5 15 0 != 0, .rsvd), groupCond s r]
  | 0x03 => handleConds s r ++ [(!zeroWords r [4, 6, 7] || Words.fld r 5 31 1 != 0, .rsvd), groupCond s r]
  | 0x04 => voiceSetConds s r
  | 0x05 => groupSetConds s r
  | 0x06 => placeSetConds s r
  | 0x07 => tempoConds s r
  | 0x08 => fulSetConds s r
  | 0x09 => engineConds s r ++ [(!zeroWords r [1, 4, 5, 6, 7], .rsvd)]
  | 0x0A => xfStartConds s r
  | 0x0B => engineConds s r ++ [(!zeroWords r [1, 4, 5, 6, 7], .rsvd)]
  | 0x0C => delaySetConds s r
  | 0x0D => cvSetConds s r
  | 0x0E => [(!zeroWords r [1, 4, 5, 6, 7], .rsvd), (decide (255 < evTarget r), .range)]
  | 0x0F => [(!zeroWords r [1, 4, 5, 6, 7], .rsvd), (evTarget r == 0 || decide (15 < evTarget r), .range)]
  | 0x10 => [(!zeroWords r [1, 4, 5, 6, 7], .rsvd), (evTarget r == 0 || decide (15 < evTarget r), .range)]
  | 0x11 => [(Words.u r 1 != 0, .rsvd)]
  | _ => [(true, .rsvd)]

/-- R51, R225: the event writes a word of an atomic parameter group. -/
def atomicWord (s : State) (r : EvRec) : Bool :=
  match s.hood with
  | some h =>
    (evOp r != opFulSet || decide (Words.u r 4 < 0x4000)) &&
      h.evmap.atoms.any fun g => g.any fun a => a.op == evOp r && a.target == evTarget r && a.w4 == Words.u r 4
  | none => false

/-- R43: the modes in which no event is accepted. -/
def acceptMode (m : Mode) : Bool := !(m == .reset || m == .loader || m == .load || m == .safe || m == .sleep)

/-- R43: the check of a record from a source; `ok` accepts. -/
def acceptErr (s : State) (src : Source) (r : EvRec) : Err :=
  let op := evOp r
  Err.first
    ([(!acceptMode (effMode s), .mode), (decide (effMode s = .runShadow) && src != .twin, .mode), (atomicWord s r && evCommit r == 0, .mode),
      (Words.fld r 0 19 19 == 1 && src != .twin, .rsvd), (evHandle r && !opHandle op, .rsvd), (evCommit r != 0 && !opMember op, .rsvd),
      (!evNow r && decide (openWindow s + 65535 < evStamp r), .range)] ++
     opConds s r ++ [(decide (4096 ≤ s.carder.store.length), .full)])

/-! ## The effective stamp (R46) -/

/-- R128: the event is a NOTE_START of a streaming template. -/
def streamStart (s : State) (r : EvRec) : Bool :=
  evOp r == opNoteStart && (match templateOf s (evTarget r) with | some t => t.streaming | none => false)

/-- R46: effective stamp, and whether the event is reported with E_LATE. -/
def effStamp (s : State) (r : EvRec) : Nat × Bool :=
  let o := openWindow s
  if evNow r then (o, false)
  else if streamStart s r && decide (evStamp r < o + 2) then (o + 2, true)
  else if evStamp r < o then (o, true)
  else (evStamp r, false)

end Sys2Proof.Machine
end

