-- ==== Sys2Proof/Machine/Alloc.lean ====
section
/-! DEFINITION. Notes: start buffers, naming, the allocation procedure, and the note events (chapter 4, R128). -/

namespace Sys2Proof.Machine

/-- What applying an event gives: the state, its status, and for a NOTE_START the handle and first frame. -/
structure Applied where
  st : State
  err : Err
  handle : Nat
  start : Nat

/-- Applied without a handle. -/
def done (s : State) : Applied := ⟨s, .ok, 0, 0⟩
/-- Refused, nothing changed. -/
def refuse (s : State) (e : Err) : Applied := ⟨s, e, 0, 0⟩

/-! ## DRAM regions of a note (R62, R118, R122, R437) -/

/-- Region that oscillator n of a template reads for a zone. -/
def oscRegion (t : Template) (zone n : Nat) : Option Nat :=
  let r := t.osc.getD n []
  if oscModel r = 3 then some (Words.fld ((t.zones.getD zone []).getD n []) 0 31 24)
  else if oscModel r = 2 then some (Words.fld r 3 31 24) else none

/-- DRAM byte address at which a region begins. -/
def regionBase (s : State) (k : Nat) : Nat :=
  match s.hood with | some h => (match Store.get none h.dram.regions k with | some x => x.base | none => 0) | none => 0

/-- Region bases of the four oscillators. -/
def regBases (s : State) (t : Template) (zone : Nat) : List Nat :=
  (List.range 4).map fun n => match oscRegion t zone n with | some k => regionBase s k | none => 0

/-- R62: a deferred region that is not enabled. -/
def regionClosed (s : State) (k : Nat) : Bool :=
  match s.hood with
  | some h => (match Store.get none h.dram.regions k with | some x => x.deferred && !s.regions.contains k | none => false)
  | none => false

/-- R102 step 1: the note reads a deferred region that is not enabled. -/
def noteClosed (s : State) (t : Template) (zone : Nat) : Bool :=
  (List.range 4).any fun n => match oscRegion t zone n with | some k => regionClosed s k | none => false

/-! ## The voice of a note (R95, R115, R128) -/

/-- The voice of a NOTE_START with its first frame. -/
def noteVoice (s : State) (t : Template) (r : EvRec) (first : Nat) : Voice :=
  let zone := Words.fld r 6 15 0
  let prCap := Words.fld r 7 7 0
  let gseed := match hgroupOf s (evTarget r) with | some g => g.gseed | none => 0
  { group := evTarget r, tag := evTag r, use := evUse r, mapped := true, detached := false, pitch := Words.s r 5, vel := Words.fld r 6 31 16, rvel := 0
    zone := zone, prCap := prCap, cost := noteCost t zone prCap, first := first, seed := voiceSeed gseed (evTag r) first, noise := 0
    released := false, relNow := false, defs := [], amounts := [], ramp := none, ctl := List.replicate 8 0
    osc := [], filt := [], env := [], lfo := [], ga := 0, amp := 0, air := 0, entries := [], cell := none, fetch := none }

/-- R126, R128: the lines that a voice's first frame reads, fetched. -/
def firstLines (s : State) (t : Template) (v : Voice) : StartBuf :=
  let rb := regBases s t v.zone
  ((voiceInit (rateOf s).base t v).osc.mapIdx fun n o =>
    fetchOsc s.dram (t.osc.getD n []) ((t.zones.getD v.zone []).getD n []) (rb.getD n 0) o).map (·.planes)

/-- R128: the start buffer of an accepted NOTE_START of a streaming template. -/
def startBuf (s : State) (r : EvRec) (eff : Nat) : Option StartBuf :=
  if streamStart s r then
    match templateOf s (evTarget r) with
    | some t => some (firstLines s t (noteVoice s t r eff))
    | none => none
  else none

/-- Give a voice that has not sounded its line buffers. -/
def withLines (s : State) (t : Template) (b : StartBuf) (v : Voice) : Voice :=
  let v := voiceInit (rateOf s).base t v
  { v with osc := v.osc.mapIdx fun n o => { o with planes := b.getD n o.planes } }

/-! ## Naming (R89 to R93) -/

/-- A note as events address it: its slot, and whether it is the slot's pending note. -/
structure NoteAt where
  slot : Nat
  pend : Bool
  deriving DecidableEq, Repr, Inhabited

/-- The voice of a note. -/
def voiceAt (s : State) (n : NoteAt) : Option Voice := if n.pend then (slotAt s n.slot).pend else (slotAt s n.slot).cur

/-- Change a note's voice. -/
def updVoice (n : NoteAt) (f : Voice → Voice) (s : State) : State :=
  let x := slotAt s n.slot
  setSlot n.slot (if n.pend then { x with pend := x.pend.map f } else { x with cur := x.cur.map f }) s

/-- The voice to which (group, tag) maps, if any, in one slot. -/
def slotMaps (g tag : Nat) (x : Slot) : Option Bool :=
  let hit := fun (v : Option Voice) => match v with | some v => v.mapped && v.group == g && v.tag == tag | none => false
  if hit x.pend then some true else if hit x.cur then some false else none

/-- R89: the voice to which a tag maps. -/
def findTag (s : State) (g tag : Nat) : Option NoteAt := (Store.keys s.slots).findSome? fun i => (slotMaps g tag (slotAt s i)).map fun p => ⟨i, p⟩

/-- R91 item 1. -/
def resolveHandle (s : State) (r : EvRec) : Except Err NoteAt :=
  let i := evSlot r
  let x := slotAt s i
  if x.gen ≠ evUse r then .error .stale
  else
    match x.pend, x.cur, x.fade with
    | some p, _, _ => if p.group = evTarget r then .ok ⟨i, true⟩ else .error .notFound
    | none, none, _ => .error .notFound
    | none, some v, some f => if f.steal ∨ v.group ≠ evTarget r then .error .notFound else .ok ⟨i, false⟩
    | none, some v, none => if v.group = evTarget r then .ok ⟨i, false⟩ else .error .notFound

/-- R91 item 2. -/
def resolveTag (s : State) (r : EvRec) : Except Err NoteAt :=
  match findTag s (evTarget r) (evTag r) with
  | none => .error .notFound
  | some n => (match voiceAt s n with | some v => if v.use = evUse r then .ok n else .error .stale | none => .error .notFound)

/-- R91: the note that an event names. -/
def resolve (s : State) (r : EvRec) : Except Err NoteAt := if evHandle r then resolveHandle s r else resolveTag s r

/-- R91: a refusal, counted in the group's VG_CNT. -/
def countStale (g : Nat) (s : State) : State := updGroup g (fun x => { x with stale := satInc 255 x.stale }) s

/-- Apply a function to the note that an event names, or refuse. -/
def onNote (r : EvRec) (s : State) (f : NoteAt → Applied) : Applied :=
  match resolve s r with
  | .ok n => f n
  | .error e => refuse (countStale (evTarget r) s) e

/-! ## Releases and kills (R93, R97, R98) -/

/-- R97: a voice enters its release segments in the frame of the window; a pending note in its first frame. -/
def releaseVoice (rvel : Nat) (v : Voice) : Voice := if v.released then v else { v with released := true, relNow := true, rvel := rvel }

/-- R98: cancel the pending note of a slot: the slot becomes FADING under the victim's fade. -/
def cancelPend (i : Nat) (s : State) : State := setSlot i { slotAt s i with pend := none } s

/-- R97: NOTE_RELEASE. -/
def applyRelease (r : EvRec) (s : State) : Applied :=
  onNote r s fun n => done (updVoice n (releaseVoice (Words.fld r 5 31 16)) s)

/-- R86: frames of a group's FADE. -/
def fadeFrames (s : State) (g : Nat) : Nat := match s.groups[g]? with | some x => 16 * 2 ^ x.fade | none => 16

/-- R98: NOTE_KILL in the window for f. -/
def applyKill (f : Nat) (r : EvRec) (s : State) : Applied :=
  onNote r s fun n =>
    let x := slotAt s n.slot
    if n.pend then done (cancelPend n.slot s)
    else if x.fade.isSome || x.killed then done s
    else if Words.fld r 5 0 0 = 0 then done (setSlot n.slot { x with killed := true } s)
    else
      let g := match x.cur with | some v => v.group | none => 0
      done (setSlot n.slot { x with fade := some ⟨f, fadeFrames s g, false⟩, cur := x.cur.map fun v => { v with mapped := false } } s)

/-! ## Allocation (R102 to R104) -/

/-- Slots of cluster c at the rate, in order. -/
def clusterSlots (s : State) (c : Nat) : List Nat := (List.range (rateOf s).voices).map fun i => 256 * c + i

/-- The lowest FREE slot of a cluster. -/
def firstFree (s : State) (c : Nat) : Option Nat := (clusterSlots s c).find? fun i => (slotAt s i).state == .free

/-- R414, R416: cluster c is enabled, not stopped by a fault, and not held for a restart. -/
def clusterServes (s : State) (c : Nat) : Bool :=
  clusterOn s c && !(s.clusters.getD c Cluster.empty).stopped &&
    !(s.flt.rstKind && s.flt.rstIndex == c && decide (s.flt.restart = .held))

/-- R102 step 2: eligible clusters of group g. -/
def eligible (s : State) (g : Nat) : List Nat :=
  match s.groups[g]? with | some x => (List.range 8).filter fun c => bitAt x.mask c && clusterServes s c | none => []

/-- The greater of two choices by units left; the earlier on a tie. -/
def betterFree (a : Option (Nat × Nat)) (left slot : Nat) : Option (Nat × Nat) :=
  match a with
  | some (l, _) => if l < left then some (left, slot) else a
  | none => some (left, slot)

/-- R102 step 4: the FREE slot to take, and whether one was rejected only on budget. -/
def chooseFree (s : State) (cs : List Nat) (c : Nat) : Option Nat × Bool :=
  let b := (rateOf s).units
  let r := cs.foldl (fun (a : Option (Nat × Nat) × Bool) k =>
    match firstFree s k with
    | none => a
    | some i => if chargeOf s k + c ≤ b then (betterFree a.1 (b - chargeOf s k - c) i, a.2) else (a.1, true)) (none, false)
  (r.1.map (·.2), r.2)

/-- R102 step 5: a policy of group g admits a candidate's group. -/
def admits (s : State) (g vg : Nat) (onlyOwn : Bool) : Bool :=
  match s.groups[g]?, s.groups[vg]? with
  | some x, some y =>
    vg == g || (!onlyOwn && (if x.policy = 2 then decide (y.priority < x.priority) else if x.policy = 3 then decide (y.priority ≤ x.priority) else false))
  | _, _ => false

/-- R103, R104: the value of a ranking key; the smaller comes first. -/
def rankKey (s : State) (v : Voice) (k : Nat) : Nat :=
  if k = 0 then (match s.groups[v.group]? with | some g => g.priority | none => 0)
  else if k = 1 then (if v.released then 0 else 1)
  else if k = 2 then v.ampEst
  else v.first

/-- R103: the four keys of a candidate in the order of KEYS, then its slot. -/
def rankOf (s : State) (keys : Nat) (slot : Nat) (v : Voice) : List Nat :=
  [rankKey s v (bits keys 7 6), rankKey s v (bits keys 5 4), rankKey s v (bits keys 3 2), rankKey s v (bits keys 1 0), slot]

/-- R103: key by key comparison. -/
def ranksBefore : List Nat → List Nat → Bool
  | a :: as, b :: bs => decide (a < b) || (a == b && ranksBefore as bs)
  | _, _ => false

/-- R102 steps 5 and 6: the candidates of group g in the window for f, with slot and voice. A voice killed at once earlier
in the same window is still SOUNDING and a candidate; stolen, it stays silent through the fade and its slot is held until
then (DESIGN CHOICE, log entry 25). -/
def candidates (s : State) (g f : Nat) (onlyOwn : Bool) : List (Nat × Voice) :=
  (Store.keys s.slots).filterMap fun i =>
    match (slotAt s i).cur with
    | some v =>
      if (eligible s g).contains (i / 256) ∧ (slotAt s i).state = .sounding ∧ v.first < f ∧ admits s g v.group onlyOwn then some (i, v) else none
    | none => none

/-- R102 step 6: the victim among the admissible candidates. -/
def chooseVictim (s : State) (keys c : Nat) (cs : List (Nat × Voice)) : Option (Nat × Voice) :=
  (cs.filter fun iv => decide (chargeOf s (iv.1 / 256) + (c - iv.2.cost) ≤ (rateOf s).units)).foldl
    (fun (b : Option (Nat × Voice)) iv =>
      match b with
      | none => some iv
      | some x => if ranksBefore (rankOf s keys iv.1 iv.2) (rankOf s keys x.1 x.2) then some iv else b) none

/-- What the allocator decides. -/
inductive Alloc where
  | free (slot : Nat)
  | steal (slot : Nat)
  | noVoice
  | bandwidth
  deriving DecidableEq, Repr, Inhabited

/-- R102 steps 2 to 7 for a note of cost c of group g in the window for f. -/
def allocate (s : State) (g f c : Nat) : Alloc :=
  match s.groups[g]? with
  | none => .noVoice
  | some x =>
    let full := decide (x.limit ≤ voiceCount s g)
    if full && x.policy == 0 then .noVoice
    else
      match (if full then (none, false) else chooseFree s (eligible s g) c) with
      | (some i, _) => .free i
      | (none, budget) =>
        if x.policy = 0 then (if budget then .bandwidth else .noVoice)
        else
          let cs := candidates s g f full
          match chooseVictim s x.keys c cs with
          | some iv => .steal iv.1
          | none => if cs.isEmpty then .noVoice else .bandwidth

/-- R93: the old voice of a reused tag is detached. -/
def detach (n : NoteAt) (s : State) : State :=
  if n.pend then cancelPend n.slot s
  else updVoice n (fun v => { releaseVoice 0 v with mapped := false, detached := true }) s

/-- R90: the handle of the voice that holds a slot. -/
def handleOf (gen slot : Nat) : Nat := gen * 2 ^ 24 + slot

/-- Lines of a start buffer in a state. -/
def bufLines (b : StartBuf) (st : LineStat) : Nat := ((b.flatten.flatten).filter fun l => l.stat == st).length

/-- R130, R131: lines of a start buffer that are late, or have an error, as they become those of a slot of cluster c. -/
def startLines (c : Nat) (b : StartBuf) (s : State) : State :=
  let late := bufLines b .late
  let s := updCluster c (fun x => { x with late := satAdd 255 x.late late, eccue := satAdd 255 x.eccue (bufLines b .ecc) }) s
  if late = 0 then s else raiseFault 2 c s

/-- R96, R128: the note takes a FREE slot in the window for f. -/
def takeFree (t : Template) (f i : Nat) (b : Option StartBuf) (r : EvRec) (s : State) : Applied :=
  let x := slotAt s i
  let v := withLines s t (b.getD []) (noteVoice s t r f)
  let gen := (x.gen + 1) % 256
  ⟨startLines (i / 256) (b.getD []) (setSlot i { x with gen := gen, cur := some v, fade := none, pend := none, killed := false } s), .ok, handleOf gen i, f⟩

/-- R92, R96: the note takes a sounding voice's slot. -/
def takeSteal (t : Template) (f i : Nat) (r : EvRec) (s : State) : Applied :=
  let x := slotAt s i
  let n := fadeFrames s (evTarget r)
  let gen := (x.gen + 1) % 256
  let x' : Slot := { x with
    gen := gen, fade := some ⟨f, n, true⟩, pend := some (noteVoice s t r (f + n)), cur := x.cur.map fun v => { v with mapped := false } }
  ⟨updGroup (evTarget r) (fun g => { g with steals := satInc 255 g.steals }) (setSlot i x' s), .ok, handleOf gen i, f + n⟩

/-- R93, R96, R102: NOTE_START in the window for f. -/
def applyStart (f : Nat) (b : Option StartBuf) (r : EvRec) (s : State) : Applied :=
  let g := evTarget r
  match templateOf s g with
  | none => refuse s .noVoice
  | some t =>
    let old := findTag s g (evTag r)
    let same := match old with | some n => (match voiceAt s n with | some v => v.use == evUse r | none => false) | none => false
    if same then refuse (countStale g s) .stale
    else if noteClosed s t (Words.fld r 6 15 0) then refuse s .notFound
    else
      match allocate s g f (noteCost t (Words.fld r 6 15 0) (Words.fld r 7 7 0)) with
      | .noVoice => refuse (updGroup g (fun x => { x with novoice := satInc 255 x.novoice }) s) .noVoice
      | .bandwidth => refuse (updGroup g (fun x => { x with bandwidth := satInc 255 x.bandwidth }) s) .bandwidth
      | .free i => takeFree t f i b r (match old with | some n => detach n s | none => s)
      | .steal i =>
        -- the victim itself is unreachable and fades untouched (R92)
        takeSteal t f i r (match old with | some n => if !n.pend && n.slot == i then s else detach n s | none => s)

end Sys2Proof.Machine
end

