-- ==== Sys2Proof/Machine/Apply.lean ====
section
/-! DEFINITION. What each event does in the window in which it takes effect (chapters 2, 4, 6, 7, 8, 10 and 18). -/

namespace Sys2Proof.Machine

/-! ## Voices and groups -/

/-- R158, R161: destinations whose record field is unsigned: PW, WTPOS, DRIVE and the envelopes' SUS. -/
def destUnsigned (c : Nat) : Bool :=
  (decide (5 ≤ c) && decide (c ≤ 0x0C)) || c == 0x1F || (decide (0x28 ≤ c) && decide (c ≤ 0x3F) && (c - 0x28) % 6 == 5)

/-- R161: an item of a VOICE_SET. -/
def voiceItem (r : EvRec) (v : Voice) : Voice :=
  let ix := evIndex r
  if evSpace r = 0 then { v with ctl := setAt v.ctl ix (Words.s r 5) }
  else if evSpace r = 1 then
    { v with defs := Store.set none v.defs ix (some (if destUnsigned ix then (Words.u r 5 : Int) else Words.s r 5)) }
  else { v with amounts := Store.set none v.amounts ix (some (Words.s r 5)) }

/-- R172: an item of a PLACE_SET. AZ and DIST are unsigned. -/
def placeItem (r : EvRec) (v : Voice) : Voice :=
  let ix := evIndex r
  if ix = 11 then { v with ramp := some (Words.fld r 5 1 0) }
  else if ix = 0 ∨ ix = 2 then { v with defs := Store.set none v.defs (0x48 + ix) (some (Words.u r 5 : Int)) }
  else { v with defs := Store.set none v.defs (0x48 + ix) (some (Words.s r 5)) }

/-- R161: VOICE_SET. -/
def applyVoiceSet (r : EvRec) (s : State) : Applied := onNote r s fun n => done (updVoice n (voiceItem r) s)

/-- R172: PLACE_SET. -/
def applyPlaceSet (r : EvRec) (s : State) : Applied := onNote r s fun n => done (updVoice n (placeItem r) s)

/-- R152: an item of a group LFO. Every SHAPE item of sample-and-hold draws a new value, one that restates the shape too
(DESIGN CHOICE, log entry 78). `ran`: a frame of this running period has been computed. -/
def lfoItem (base : Nat) (ran : Bool) (v : Nat) (l : GLfo) : GLfo :=
  let i := l.item
  if bits v 31 30 = 0 then { l with item := { i with rate := signed 30 (bits v 29 0) } }
  else if bits v 31 30 = 1 then
    let sync := bitAt v 4
    let l := { l with item := { i with shape := bits v 7 5, sync := sync, uni := bitAt v 3 }, draw := l.draw || bits v 7 5 == 5 }
    -- a free-running LFO continues from its last synchronised phase
    if i.sync && !sync && ran then { l with st := { l.st with phase := (l.st.prev + pitchInc base i.rate) % 2 ^ 32 } } else l
  else if bits v 31 30 = 2 then { l with item := { i with div := bits v 15 0 } }
  else
    let l := { l with item := { i with phase := bits v 29 0 } }
    if i.sync then l else { l with st := { l.st with phase := bits v 29 0 * 4 } }

/-- R86: an item of SPACE 0. -/
def groupItem (ix v : Nat) (g : Group) : Group :=
  if ix = 0 then { g with limit := v } else if ix = 1 then { g with priority := v } else if ix = 2 then { g with mask := v }
  else if ix = 3 then { g with policy := v } else if ix = 4 then { g with fade := v } else { g with keys := v }

/-- R86, R152, R162: GROUP_SET. -/
def applyGroupSet (r : EvRec) (s : State) : Applied :=
  let v := Words.u r 5
  let ix := evIndex r
  done (updGroup (evTarget r) (fun g =>
    if evSpace r = 0 then groupItem ix v g
    else if evSpace r = 1 then { g with gctl := setAt g.gctl ix (Words.s r 5) }
    else { g with lfo := updAt g.lfo ix (lfoItem (rateOf s).base s.frame.ran v) }) s)

/-- R153: TEMPO. -/
def applyTempo (r : EvRec) (s : State) : Applied :=
  done (updGroup (evTarget r) (fun g =>
    { g with bi := Words.u r 5, bp := if Words.fld r 4 0 0 = 1 then g.bp else Words.u64 r 6 }) s)

/-! ## Engines (R221 to R230) -/

/-- R178, R223: bank (true = B) and word that a FUL_SET writes. -/
def fulSetWord (g : Engine) (r : EvRec) : Bool × Nat :=
  if evSpace r = 0 then (g.yBank (Words.fld r 4 14 0), Words.fld r 4 13 0) else (Words.fld r 4 14 14 == 1, Words.fld r 4 13 0)

/-- R223, R229: FUL_SET. -/
def applyFulSet (r : EvRec) (s : State) : Applied :=
  let e := evTarget r
  let g := engAt s e
  let w := fulSetWord g r
  if xfBusy g w.2 then refuse s .busy else done (setEng e (g.setY w.1 w.2 (r.getD 5 0)) s)

/-- R222, R229: BANK_SWAP. -/
def applyBankSwap (r : EvRec) (s : State) : Applied :=
  let e := evTarget r
  let g := engAt s e
  if g.xf.isSome then refuse s .busy else done (setEng e { g with act := !g.act } s)

/-- R227, R229: XF_START. -/
def applyXfStart (r : EvRec) (s : State) : Applied :=
  let e := evTarget r
  let g := engAt s e
  let first := Words.fld r 5 13 0
  let count := Words.fld r 6 14 0
  let logn := Words.fld r 7 3 0
  if g.xf.isSome then refuse s .busy
  else done (setEng e { g with xf := some ⟨first, count, logn, 0⟩, xfLogn := logn, xfFirst := first, xfCount := count } s)

/-- R230: XF_FINISH. -/
def applyXfFinish (r : EvRec) (s : State) : Applied :=
  let e := evTarget r
  let g := engAt s e
  if g.xf.isSome then done (setEng e { g with xf := none, act := !g.act } s) else refuse s .notFound

/-- R235: DELAY_SET. -/
def applyDelaySet (r : EvRec) (s : State) : Applied :=
  let ix := evIndex r
  let v := Words.fld r 5 18 0
  done (if evSpace r = 0 then
      { s with dly := { s.dly with taps := Store.upd none s.dly.taps ix fun t => t.map fun t => { t with d := v } } }
    else { s with dly := { s.dly with lines := Store.upd none s.dly.lines ix fun l => l.map fun l => { l with len := v } } })

/-- R388: CV_SET. -/
def applyCvSet (r : EvRec) (s : State) : Applied := done (updCv (evTarget r) (cvItem (evIndex r) (Words.u r 5)) s)

/-! ## Regions (R63, R129) -/

/-- R63: REGION_ENABLE. -/
def applyRegionEnable (r : EvRec) (s : State) : Applied :=
  let k := evTarget r
  match s.hood with
  | none => refuse s .notFound
  | some h =>
    match Store.get none h.dram.regions k with
    | some x =>
      if !x.deferred then refuse s .notFound
      else if s.regions.contains k then done s
      else done { s with regions := k :: s.regions }
    | none => refuse s .notFound

/-! ## One event -/

/-- What an event does in the window for f, commit sets apart. -/
def applyEvent (f : Nat) (b : Option StartBuf) (r : EvRec) (s : State) : Applied :=
  match evOp r with
  | 0x01 => applyStart f b r s
  | 0x02 => applyRelease r s
  | 0x03 => applyKill f r s
  | 0x04 => applyVoiceSet r s
  | 0x05 => applyGroupSet r s
  | 0x06 => applyPlaceSet r s
  | 0x07 => applyTempo r s
  | 0x08 => applyFulSet r s
  | 0x09 => applyBankSwap r s
  | 0x0A => applyXfStart r s
  | 0x0B => applyXfFinish r s
  | 0x0C => applyDelaySet r s
  | 0x0D => applyCvSet r s
  | 0x0E => applyRegionEnable r s
  | _ => done s

end Sys2Proof.Machine
end

