-- ==== Sys2Proof/Machine/Carder.lean ====
section
/-! DEFINITION. The carder: offers and acceptance, replies and the log, and the close of a window (R40 to R54). -/

namespace Sys2Proof.Machine

/-! ## Replies and the applied event log -/

/-- R54: a reply record. -/
def replyRec (r : EvRec) (status : Err) (frame seq handle start : Nat) : Words :=
  [BitVec.ofNat 32 (place (evOp r) 8 24 + place status.code 8 16 + evTarget r), r.getD 1 0, BitVec.ofNat 32 frame, BitVec.ofNat 32 (frame / 2 ^ 32),
   BitVec.ofNat 32 seq, BitVec.ofNat 32 handle, BitVec.ofNat 32 start, BitVec.ofNat 32 (start / 2 ^ 32)]

/-- R54: the reply of a refusal at acceptance. -/
def refusedRec (r : EvRec) (e : Err) : Words := replyRec r e (2 ^ 64 - 1) (2 ^ 32 - 1) 0 0

/-- R52: the log entry of an event applied in the window for f, without NOW and without the late mark that a link entry
carries in FLAGS bit 3 (R278). -/
def logRec (f : Nat) (r : EvRec) : Words :=
  setAt (setAt (setAt r 0 (r.getD 0 0 &&& 0xFFF3FFFF#32)) 2 (BitVec.ofNat 32 f)) 3 (BitVec.ofNat 32 (f / 2 ^ 32))

/-! ## Acceptance (R41, R43 to R46, R278) -/

/-- R278: the link entry of an accepted event. -/
def linkRec (r : EvRec) (eff : Nat) (late : Bool) : EvRec :=
  setAt (setAt (setAt r 0 (if late then r.getD 0 0 ||| 0x00080000#32 else r.getD 0 0)) 2 (BitVec.ofNat 32 eff)) 3 (BitVec.ofNat 32 (eff / 2 ^ 32))

/-- Whether this chip forwards what it accepts: a paired lead. -/
def forwards (s : State) : Bool := s.twin.paired && s.twin.lead

/-- R278, R281: note an accepted entry for the link and for ECRC. -/
def noteLink (src : Source) (r : EvRec) (eff : Nat) (late : Bool) (s : State) : State :=
  if src = .twin then { s with twin := { s.twin with entries := s.twin.entries ++ [r] } }
  else if forwards s then
    let l := linkRec r eff late
    { s with twin := { s.twin with entries := s.twin.entries ++ [l] } }
  else s

/-- Enter an event in the pending store with its sequence number. Events due in the open window and deferred ones stand
there too until they are applied, and count in PENDING, E_FULL and DISCARDED; the spec names only events stamped later
(DESIGN CHOICE, log entry 20). -/
def enterStore (src : Source) (r : EvRec) (eff : Nat) (late : Bool) (s : State) : State :=
  let b := startBuf s r eff
  let e : PendEv := ⟨r, s.carder.seq, src, eff, late, false, b⟩
  let s := { s with carder := { s.carder with store := s.carder.store ++ [e], seq := (s.carder.seq + 1) % 2 ^ 32 } }
  { s with carder := { s.carder with sbufPeak := max s.carder.sbufPeak (sbufCount s) } }

/-- R43: the carder takes a record from a source: refused with a reply, or held with a sequence number. FLAGS bit 3
of a link entry reports it late (R279). -/
def accept (src : Source) (r : EvRec) (s : State) : State :=
  let e := acceptErr s src r
  if e ≠ .ok then sendReply src (refusedRec r e) s
  else
    let x := effStamp s r
    let late := x.2 || (src == .twin && Words.fld r 0 19 19 == 1)
    noteLink src r x.1 late (enterStore src r x.1 late s)

/-! ## Offers (R40, R42, R277) -/

/-- R277: core cycles between acceptances: 54 for a lead, otherwise one. -/
def acceptGap (s : State) : Nat := if s.twin.paired ∧ effMode s = .runLead then 54 else 1

/-- The earliest cycle at which an offer made at `t` can be accepted. -/
def acceptAt (s : State) (t : Nat) : Nat := match s.twin.accAt with | some a => max t (a + acceptGap s) | none => t

/-- R277, R286, R291: whether an own source is accepted at time t: not in the guard of a lead, which lasts
until the window closes (a held tick has been accepted and its window is still open), and not once it is shut. -/
def ownOpen (s : State) (t : Nat) : Bool :=
  !s.twin.shut &&
    !(s.twin.paired && decide (effMode s = .runLead) &&
      (s.clocks.heldAt.isSome || (match s.clocks.acc with | some a => decide (a + guardTime (rateOf s).cycles ≤ t) | none => false)))

/-- Accept from an own source at time t. -/
def acceptOwn (src : Source) (r : EvRec) (t : Nat) (s : State) : State :=
  accept src r { s with twin := { s.twin with accAt := some t }, now := max s.now t }

/-- R325: a carder ring's entry is consumed. -/
def takeEntry (src : Source) (r : EvRec) (s : State) : State :=
  match src with
  | .ring k => if ringFront s k = some r then ringPop k s else s
  | _ => s

/-! ## Draining rings and waiting offers -/

/-- The EVENT rings that the carder consumes. -/
def eventRings (s : State) : List Nat := ringsWhere s fun h => h.type == 1 && h.cons == .carder

/-- R325: time from which the oldest entry of a ring is visible. -/
def visibleAt (x : Ring) : Nat := if x.tail = x.seen then x.at_ + 16 else 0

/-- Event template of a timer, offered with FLAGS.NOW = 1 (R369). -/
def timerTemplate (s : State) (n : Nat) : Option EvRec :=
  match s.hood with
  | some h => (Store.get none h.evmap.templates n).map fun r => setAt r 0 (r.getD 0 0 ||| 0x00040000#32)
  | none => none

/-- Whether a source has an offer that waits. -/
def waits (s : State) (src : Source) : Bool := s.carder.wait.any fun x => x.1 == src

/-- Sources that hold an offer, in a fixed order. -/
def offering (s : State) : List Source :=
  (s.carder.wait.map (·.1)).eraseDups ++
  ((eventRings s).filter fun r => (ringFront s r).isSome && !waits s (.ring r)).map .ring ++
  ((List.range 8).filter fun n => (timerAt s n).offer && (timerTemplate s n).isSome && !waits s (.timer n)).map .timer

/-- Remove the oldest waiting offer of a source. -/
def dropWait (src : Source) : List (Source × EvRec) → List (Source × EvRec)
  | [] => []
  | x :: t => if x.1 = src then t else x :: dropWait src t

/-- R40: the offer of a source that is next in its own order, with the time from which the carder sees it and the state
in which the source has given it up. -/
def nextOffer (s : State) (src : Source) : Option (EvRec × Nat × State) :=
  match s.carder.wait.find? fun x => x.1 == src with
  | some x => some (x.2, s.carder.upTo, { s with carder := { s.carder with wait := dropWait src s.carder.wait } })
  | none =>
    match src with
    | .ring r => (ringFront s r).map fun e => (e, max (visibleAt (ringState s r)) s.carder.upTo, ringPop r s)
    | .timer n =>
      if (timerAt s n).offer then
        (timerTemplate s n).map fun e => (e, s.carder.upTo, updTimer n (fun m => { m with offer := false }) s)
      else none
    | _ => none

/-- R40: a source has its turn; a second one begins a new round. -/
def turnOf (src : Source) (s : State) : State :=
  let round := if s.carder.served.contains src then [] else s.carder.served
  { s with carder := { s.carder with served := src :: round } }

/-- Take the next offer of a source, if the carder can accept it before `limit`. -/
def takeOffer (limit : Nat) (src : Source) (s : State) : State :=
  match nextOffer s src with
  | some (e, from_, s') =>
    let c := acceptAt s from_
    if c < limit && ownOpen s c then acceptOwn src e c (turnOf src s') else s
  | none => s

/-- R40: the sources whose turn can come: those that have not had theirs in this round, or all in a new round. -/
def turns (s : State) : List Source :=
  let l := (offering s).filter fun x => !s.carder.served.contains x
  if l.isEmpty then offering s else l

/-- R40, R42: one turn. The order of the sources within a round is open: a free value chooses (log entry 19). -/
def drainStep (limit : Nat) (s : State) : State :=
  match turns s with
  | [] => s
  | l => takeOffer limit (l.getD (Config.freeNat s.use % l.length) .spi) (used s)

/-- Up to n turns of the rotation. -/
def drainTurns (limit : Nat) : Nat → State → State
  | 0, s => s
  | n + 1, s => drainTurns limit n (drainStep limit s)

/-- Entries, timer offers and waiting offers at hand. -/
def offers (s : State) : Nat :=
  s.carder.wait.length + 8 + ((eventRings s).map fun r => ringCount (ringState s r)).sum

/-- Everything offered that the carder accepts before cycle `limit`. -/
def drain (limit : Nat) (s : State) : State :=
  let s := drainTurns limit (2 * offers s) s
  { s with carder := { s.carder with upTo := max s.carder.upTo limit } }

/-- The carder has taken what it could by now. -/
def pump (s : State) : State := drain s.now s

/-- R40: a source offers an event now; it waits at its source where the carder may not accept it, or behind an earlier
offer of the same source. -/
def offer (src : Source) (r : EvRec) (s : State) : State :=
  if src = .twin then accept src r s
  else
    let s := pump s
    let t := acceptAt s s.now
    if ownOpen s t && !waits s src then acceptOwn src r t (takeEntry src r s)
    else if (match src with | .ring k => ringFront s k == some r | _ => false) then s
    else { s with carder := { s.carder with wait := s.carder.wait ++ [(src, r)] } }

/-- R369: timer n's offer, made now, as soon as the carder can accept it. -/
def offerTimer (n : Nat) (s : State) : State := takeOffer (acceptAt s s.now + 1) (.timer n) s

/-! ## The close of a window (R45, R47 to R50, R52 to R54) -/

/-- R47, R57: the status to report for an applied event: a refusal first, then the deferral, then lateness. -/
def reportOf (e : PendEv) (st : Err) : Err :=
  if st ≠ .ok then st else if e.deferred then .capacity else if e.late then .late else .ok

/-- R52 to R54, R57: log, counts and reply of an event applied in the window for f. -/
def report (f : Nat) (e : PendEv) (a : Applied) : State :=
  let s := sendLog (logRec f e.rec_) a.st
  let s := if evNow e.rec_ || e.late || e.deferred then detMoved s else s
  let st := reportOf e a.err
  let s := if st = .late then { s with carder := { s.carder with late := satInc 0xFFFF s.carder.late } } else s
  if evReply e.rec_ || evOp e.rec_ == opNoteStart || st != .ok then
    sendReply e.src (replyRec e.rec_ st f e.seq a.handle a.start) s
  else s

/-- R49: a member joins its set; a full set refuses it. -/
def joinSet (e : PendEv) (s : State) : Applied :=
  let n := evCommit e.rec_ - 1
  if 64 ≤ (s.carder.sets.getD n []).length then refuse s .full
  else done { s with carder := { s.carder with sets := updAt s.carder.sets n (· ++ [⟨e.rec_, e.seq, e.src⟩]) } }

/-- R49: empty a set. -/
def emptySet (n : Nat) (s : State) : State := { s with carder := { s.carder with sets := setAt s.carder.sets n [] } }

/-- Apply one event of the window for f; the members that a COMMIT takes are returned. -/
def applyOne (f : Nat) (e : PendEv) (s : State) : State × List Member :=
  let op := evOp e.rec_
  let n := evTarget e.rec_ - 1
  if evCommit e.rec_ ≠ 0 then (report f e (joinSet e s), [])
  else if op = opCommit then (report f e (done (emptySet n s)), s.carder.sets.getD n [])
  else if op = opCommitDrop then (report f e (done (emptySet n s)), [])
  else (report f e (applyEvent f e.sbuf e.rec_ s), [])

/-- R47: a due event beyond the frame's capacity is deferred. -/
def deferEvent (e : PendEv) : PendEv := { e with deferred := true }

/-- R45, R47: the events that the window for f, with room for n more applications, leaves in the pending store: those of
later frames, and due ones beyond the capacity, deferred. -/
def keptEvents (f : Nat) : List PendEv → Nat → List PendEv
  | [], _ => []
  | e :: t, n =>
    if f < e.eff then e :: keptEvents f t n
    else match n with | 0 => deferEvent e :: keptEvents f t 0 | n + 1 => keptEvents f t n

/-- R129: the start buffer of a pending NOTE_START whose note reads a region enabled since `before` is fetched again. -/
def refetch (before : List Nat) (s : State) (e : PendEv) : PendEv :=
  match e.sbuf, templateOf s (evTarget e.rec_) with
  | some _, some t =>
    let fresh := fun (n : Nat) => match oscRegion t (Words.fld e.rec_ 6 15 0) n with
      | some k => s.regions.contains k && !before.contains k
      | none => false
    if (List.range 4).any fresh then { e with sbuf := some (firstLines s t (noteVoice s t e.rec_ e.eff)) } else e
  | _, _ => e

/-- R45, R47, R48: the events of the store. A deferral counts in DEFER; its report is the one reply that the event gets,
with E_CAPACITY, when it is applied, however often it was deferred: no reply record can name a frame of application
before (DESIGN CHOICE, log entry 21). The events, in sequence order, in the window for f with room for n more applications;
the members of the sets that COMMITs take, in order. `before`: the regions enabled when the window began to close. -/
def applyAll (f : Nat) (before : List Nat) : List PendEv → Nat → State → State × List Member
  | [], _, s => (s, [])
  | e :: t, n, s =>
    if f < e.eff then applyAll f before t n s
    else
      match n with
      | 0 => applyAll f before t 0 { s with carder := { s.carder with defer := satInc 0xFFFF s.carder.defer } }
      | n + 1 =>
        let r := applyOne f (refetch before s e) s
        let q := applyAll f before t n { r.1 with carder := { r.1.carder with applied := r.1.carder.applied + 1 } }
        (q.1, r.2 ++ q.2)

/-- R49, R50: a member takes effect in step 3; a refusal is reported. -/
def commitMember (f : Nat) (s : State) (m : Member) : State :=
  let a := applyEvent f none m.rec_ s
  if a.err = .ok then a.st else sendReply m.src (replyRec m.rec_ a.err f m.seq 0 0) a.st

/-- Steps 2 and 3 of R17 for frame f: due events, then the commit sets. -/
def closeEvents (f : Nat) (s : State) : State :=
  let st := s.carder.store
  let r := applyAll f s.regions st (rateOf s).events { s with carder := { s.carder with store := [], applied := 0 } }
  let q := r.2.foldl (commitMember f) r.1
  { q with carder := { q.carder with store := (keptEvents f st (rateOf s).events).map (refetch s.regions q) } }

end Sys2Proof.Machine
end

