-- ==== Sys2Proof/Machine/Sched.lean ====
section
/-! DEFINITION. The hardware task scheduler: commands, slots, dispatch, delay lists and load (R340 to R347). -/

namespace Sys2Proof.Machine

/-- R327: the commands. -/
def cmdReady : Nat := 1
def cmdCancel : Nat := 2
def cmdDelay : Nat := 3

/-- R341: take the next command sequence number. -/
def takeSeq (s : State) : State := { s with sched := { s.sched with seq := (s.sched.seq + 1) % 2 ^ 32 } }

/-- R342: descriptor t becomes READY with a stamp, now. -/
def makeReady (t stamp : Nat) (s : State) : State :=
  setDesc t { descAt s t with state := .ready, stamp := stamp, readyAt := s.now, remain := 0 } s

/-- Remove task t from a prefetch slot. -/
def leaveSlot (t : Nat) (s : State) : State :=
  { s with sched := { s.sched with cores := s.sched.cores.map fun c => if c.slot = some t then { c with slot := none } else c } }

/-- R342: a command takes effect; its status. -/
def schedCmd (cmd t ticks : Nat) (s0 : State) : State × Err :=
  let n := s0.sched.seq
  let s := takeSeq s0
  let d := descAt s t
  match d.state with
  | .free => (s, .notFound)
  | .idle =>
    if cmd = cmdReady then (makeReady t n s, .ok)
    else if cmd = cmdDelay then (setDesc t { d with state := .delayed, remain := ticks, delaySeq := n } s, .ok)
    else (s, .notFound)
  | .delayed =>
    if cmd = cmdReady then (makeReady t n s, .ok)
    else if cmd = cmdCancel then (setDesc t { d with state := .idle, remain := 0 } s, .ok)
    else (s, .busy)
  | .running =>
    if cmd = cmdReady then (setDesc t { d with rerun := true } s, .ok)
    else if cmd = cmdCancel then (setDesc t { d with rerun := false } s, .busy)
    else (s, .busy)
  | _ =>
    if cmd = cmdReady then (s, .ok)
    else if cmd = cmdCancel then (leaveSlot t (setDesc t { d with state := .idle } s), .ok)
    else (s, .busy)

/-- R327: what the scheduler refuses before the arbiter. -/
def taskErr (s : State) (w : Words) (port : Bool) : Err :=
  let cmd := Words.fld w 0 31 24
  Err.first
    [(port && !(descAt s (Words.fld w 0 9 0)).host, .security),
     (!(cmd == 1 || cmd == 2 || cmd == 3) || Words.fld w 0 23 10 != 0 || Words.fld w 1 31 16 != 0 || (cmd != 3 && Words.fld w 1 15 0 != 0) ||
       !([2, 3, 4, 5, 6].all fun i => Words.u w i == 0), .rsvd),
     (cmd == 3 && Words.fld w 1 15 0 == 0, .range)]

/-- R326, R327, R341: a task command; the code and sequence number that word 7 reports. -/
def taskCommand (w : Words) (port : Bool) (s : State) : State × Nat × Nat :=
  let e := taskErr s w port
  if e ≠ .ok then (s, e.code, 0)
  else
    let r := schedCmd (Words.fld w 0 31 24) (Words.fld w 0 9 0) (Words.fld w 1 15 0) s
    (r.1, r.2.code, s.sched.seq % 2 ^ 24)

/-- Whether the producer of a ring is the host port or the SPI port. -/
def portMade (h : HRing) : Bool := h.prod == .host || h.prod == .spi

/-- R326: the oldest command of TASK ring r. -/
def takeTask (r : Nat) (s : State) : State :=
  match hringOf s r, ringFront s r with
  | some h, some w =>
    let q := taskCommand w (portMade h) s
    ringDone r q.2.1 q.2.2 q.1
  | _, _ => s

/-- TASK rings that hold a command. -/
def taskRings (s : State) : List Nat := (ringsWhere s fun h => h.type == 4).filter fun r => (ringFront s r).isSome

/-! ## Slots and dispatch (R344) -/

/-- R344: descriptor d is eligible for core k. -/
def taskFor (k : Nat) (d : Desc) : Bool := if d.ful then k == 4 + d.eng else decide (k < 4) && bitAt d.cmask k

/-- R344: of two tasks, the one a slot prefers: the higher level, then the lower stamp. -/
def prefers (a b : Desc) : Bool := decide (b.prio < a.prio) || (a.prio == b.prio && decide (a.stamp < b.stamp))

/-- R344: the READY task that core k would take. -/
def bestReady (s : State) (k : Nat) : Option Nat :=
  ((Store.keys s.sched.descs).filter fun t => (descAt s t).state == .ready && taskFor k (descAt s t)).foldl
    (fun (b : Option Nat) t =>
      match b with
      | none => some t
      | some x => if prefers (descAt s t) (descAt s x) then some t else b) none

/-- R344: task t enters core k's slot. -/
def intoSlot (k t : Nat) (s : State) : State :=
  updCore k (fun c => { c with slot := some t }) (setDesc t { descAt s t with state := .prefetched, core := k } s)

/-- R344: filling or displacement of core k's slot. -/
def fillSlot (k : Nat) (s : State) : State :=
  match bestReady s k with
  | none => s
  | some t =>
    match (schCore s k).slot with
    | none => intoSlot k t s
    | some u => if (descAt s u).prio < (descAt s t).prio then intoSlot k t (setDesc u { descAt s u with state := .ready } s) else s

/-- R344: the slots of cores 0 to k, the lower-numbered core first. -/
def fillSlots (k : Nat) (s : State) : State := (List.range (k + 1)).foldl (fun s j => fillSlot j s) s

/-- R197, R200, R356: whether a core can start a task: no control core during a handover, and no background context from
the request of preemption on (R195). -/
def coreIdle (s : State) (k : Nat) : Bool :=
  if k < 4 then (schCore s k).run.isNone && s.fw.handover.isNone
  else
    let g := engAt s (k - 4)
    (schCore s k).run.isNone && g.on && !g.held && g.bgen && g.phase == .idle && !g.preReq && (inPeriod s || effMode s == .ready)

/-- R347: waiting time in units of 256 cycles. -/
def waitUnits (readyAt t : Nat) : Nat := min 0xFFFF ((t - readyAt) / 256)

/-- R197: the background context of an engine starts a task. -/
def engDispatch (t entry : Nat) (g : Engine) : Engine :=
  { g with phase := .background, pc := BitVec.ofNat 13 entry, st := 0, rc := 0, br := none, late := [], task := some t, aOld := g.bg.a, stOld := 0 }

/-- R344, R347: core k starts the task in its slot. -/
def dispatch (k : Nat) (s : State) : State :=
  if coreIdle s k then
    match (schCore s k).slot with
    | none => s
    | some t =>
      let d := descAt s t
      let w := waitUnits d.readyAt s.now
      let s := setDesc t { d with state := .running, core := k, waitLast := w, waitMax := max d.waitMax w } s
      let s := updCore k (fun c => { c with slot := none, run := some t, since := some s.now }) s
      if k < 4 then s else setEng (k - 4) (engDispatch t d.entry (engAt s (k - 4))) s
  else s

/-- R344: what the cycles between two commands bring: every empty slot is filled, the idle control cores start the tasks
in their slots, and the slots are filled again. -/
def settle (s : State) : State :=
  fillSlots 19 ((List.range 4).foldl (fun s k => dispatch k s) (fillSlots 19 s))

/-- R341: one task ring's turn; the order between sources is not defined, so a free value chooses whose turn it is. -/
def taskTurn (s : State) : State :=
  match taskRings s with
  | [] => s
  | l => takeTask (l.getD (Config.freeNat s.use % l.length) 0) (used s)

/-- R341, R344: n turns, the slots settling before each. -/
def taskTurns : Nat → State → State
  | 0, s => s
  | n + 1, s => taskTurns n (taskTurn (settle s))

/-- Every command that waits in a TASK ring. -/
def drainTasks (s : State) : State := taskTurns ((taskRings s).map fun r => ringCount (ringState s r)).sum s

/-! ## Ends (R345) -/

/-- R347: stop and start counting a core's busy cycles at time t. -/
def busyOff (k t : Nat) (s : State) : State :=
  updCore k (fun c => match c.since with | some u => { c with busy := c.busy + (t - u), since := none } | none => c) s
def busyOn (k t : Nat) (s : State) : State :=
  updCore k (fun c => if c.run.isSome && c.since.isNone then { c with since := some t } else c) s

/-- R345: the task of core k ends, complete or with a fault. -/
def endTask (k : Nat) (fault : Bool) (s : State) : State :=
  match (schCore s k).run with
  | none => s
  | some t =>
    let n := s.sched.seq
    let s := takeSeq (updCore k (fun c => { c with run := none }) (busyOff k s.now s))
    let d := descAt s t
    if fault then
      let s := setDesc t { d with state := .idle, rerun := false } s
      { s with sched := { s.sched with tfault := satInc 255 s.sched.tfault, fltTask := t, fltCore := k } }
    else if d.rerun then makeReady t n (setDesc t { d with rerun := false } s)
    else setDesc t { d with state := .idle } s

/-! ## Delay lists (R346) -/

/-- Of two expired descriptors, the earlier DELAY command first. -/
def byDelay (s : State) (a b : Nat) : Bool := decide ((descAt s a).delaySeq ≤ (descAt s b).delaySeq)

/-- Insert a descriptor in order of its DELAY command. -/
def insertDelay (s : State) (t : Nat) : List Nat → List Nat
  | [] => [t]
  | u :: us => if byDelay s t u then t :: u :: us else u :: insertDelay s t us

/-- R346: one advance of a delay list. -/
def advanceList (ms : Bool) (s : State) : State :=
  let mine := (Store.keys s.sched.descs).filter fun t => (descAt s t).state == .delayed && (descAt s t).tick == ms
  let s := mine.foldl (fun s t => setDesc t { descAt s t with remain := (descAt s t).remain - 1 } s) s
  let due := (mine.filter fun t => (descAt s t).remain == 0).foldl (fun l t => insertDelay s t l) []
  due.foldl (fun s t => takeSeq (makeReady t s.sched.seq s)) s

/-! ## Load (R347) -/

/-- Core cycles of a millisecond. -/
def msCycles : Nat := 786432

/-- R347: a core's load over a window of n milliseconds. -/
def loadOf (busy n : Nat) : Nat := min 0xFFFF (busy * 65536 / (n * msCycles))

/-- R347: the load window ends. -/
def loadWindow (s : State) : State :=
  let n := s.sched.lwinCur
  let close := fun (c : SchCore) =>
    let b := c.busy + (match c.since with | some u => s.now - u | none => 0)
    { c with load := loadOf b n, peak := max c.peak (loadOf b n), busy := 0, since := c.since.map fun u => max u s.now }
  { s with sched := { s.sched with cores := s.sched.cores.map close, msCount := 0, lwinCur := s.sched.lwin } }

/-- Whether the load window is complete. -/
def loadDue (s : State) : Bool := decide (s.sched.lwinCur ≤ s.sched.msCount)

/-- R346, R347: a millisecond has passed. -/
def millisecond (s : State) : State :=
  let s := if loadDue s then loadWindow s else s
  let s := advanceList true s
  { s with sched := { s.sched with msCount := s.sched.msCount + 1 } }

/-! ## The commands -/

/-- A TASK ring of a port whose oldest entry is a given command. -/
def taskRingOf (s : State) (w : Words) (who : Agent) : Option Nat :=
  (taskRings s).find? fun r =>
    (match hringOf s r, who with
     | some h, .port .host => h.prod == .host
     | some h, .port .spi => h.prod == .spi
     | some h, .firmware => h.prod == .cores
     | none, _ => false) && (ringFront s r).map (·.take 7) == some (w.take 7)

/-- The words of a task command with a CMD. -/
def taskWords (cmd : Nat) (c : TaskCmd) : Words :=
  BitVec.ofNat 32 (place cmd 8 24 + Words.fld c.w 0 23 0) :: (List.range 6).map (fun i => c.w.getD (i + 1) 0)

/-- R341: a task command reaches the scheduler; a ring entry that holds it is completed (R326). -/
def takeCommand (cmd : Nat) (c : TaskCmd) (s : State) : State :=
  let w := taskWords cmd c
  match taskRingOf s w c.who with
  | some r => takeTask r s
  | none => (taskCommand w (match c.who with | .port _ => true | .firmware => false) s).1

/-- TASK_READY (R342). -/
def execTaskReady (c : TaskCmd) (s : State) : Host.Outcome State Fault Refusal := .next (takeCommand cmdReady c s)
/-- TASK_CANCEL (R342). -/
def execTaskCancel (c : TaskCmd) (s : State) : Host.Outcome State Fault Refusal := .next (takeCommand cmdCancel c s)
/-- TASK_DELAY (R342). -/
def execTaskDelay (c : TaskCmd) (s : State) : Host.Outcome State Fault Refusal := .next (takeCommand cmdDelay c s)

/-- PREFETCH_SLOT_FILL (R344): waiting commands are taken, and the slots of cores 0 to k are filled. -/
def execPrefetchSlotFill (k : Nat) (s : State) : Host.Outcome State Fault Refusal :=
  if 20 ≤ k then .fault (.illFormed "PREFETCH_SLOT_FILL") else .next (fillSlots k (drainTasks s))

/-- TASK_DISPATCH (R344): core k starts the task in its slot, filled first where it is empty or a higher level displaces
its task. -/
def execTaskDispatch (k : Nat) (t : Nat) (s : State) : Host.Outcome State Fault Refusal :=
  if 20 ≤ k then .fault (.illFormed "TASK_DISPATCH")
  else
    let s := later t s
    .next (dispatch k (fillSlots k s))

/-- R202, R345: a background context leaves its task. -/
def engEndTask (fault : Bool) (g : Engine) : Engine :=
  let g := { g with phase := if g.phase = .background then .idle else g.phase, saved := false, task := none }
  if fault then { g with tfault := satInc 255 g.tfault } else g

/-- TASK_END (R345). -/
def execTaskEnd (k : Nat) (fault : Bool) (t : Nat) (s : State) : Host.Outcome State Fault Refusal :=
  if 20 ≤ k then .fault (.illFormed "TASK_END")
  else
    let s := later t s
    let s := if 4 ≤ k && (schCore s k).run.isSome then setEng (k - 4) (engEndTask fault (engAt s (k - 4))) s else s
    .next (endTask k fault s)

/-- LOAD_WINDOW_END (R347). -/
def execLoadWindowEnd (t : Nat) (s : State) : Host.Outcome State Fault Refusal :=
  let s := later t s
  .next (if loadDue s then loadWindow s else s)

end Sys2Proof.Machine
end

