-- ==== Sys2Proof/Machine/Frame.lean ====
section
/-! DEFINITION. Steps 4 and 5 of a frame (R17): what the engines do outside themselves, bus saturation, meters, ports, the
output digest, and entry into HOLD. -/

namespace Sys2Proof.Machine

/-! ## What an engine does outside itself -/

/-- What the instructions of engine e see outside it. -/
def engEnv (s : State) (e : Nat) : EngEnv :=
  { e := e, frame := s.frame.cnt, firstFrame := s.frame.first, bus := s.bus.val, dly := s.dly, det := detHood s }

/-- R174: a contribution to a bus accumulator. -/
def addBus (n : Nat) (v : Int) (s : State) : State := { s with bus := { s.bus with acc := Store.upd 0 s.bus.acc n (· + v) } }

/-- One thing that engine e did outside itself. -/
def engOut (e : Nat) (s : State) : EngOut → State
  | .bus n v => addBus n v s
  | .line l v => { s with dly := s.dly.write e l v }
  | .taskEnd fault => endTask (4 + e) fault s
  | .fault => raiseFault 3 e s
  | .ended => s
  | .bgWrite => voidDet (fun d => { d with bgwrite := true }) s
  | .sat => s

/-- Put engine e and what it did in place. -/
def engDone (e : Nat) (r : Engine × List EngOut) (s : State) : State := r.2.foldl (engOut e) (setEng e r.1 s)

/-- R197, R347: engine e's context is not busy from the end of its preemption in cycle 10 + w until it resumes in cycle
s + SLEN + 4. -/
def busyEng (e : Nat) (a b : Engine) (s : State) : State :=
  let s := if !a.saved && b.saved then busyOff (4 + e) (s.frame.tickAt + 10 + a.w) s else s
  if a.saved && !b.saved && b.phase == .background then busyOn (4 + e) (s.frame.tickAt + max 34 (10 + a.w) + a.slen + 4) s else s

/-- R201: the FUL_FLT code of a parity error that engine e meets in a cycle of its partition. -/
def parityAt (errs : List FrameErr) (e cyc : Nat) : Nat :=
  match errs with
  | [] => 0
  | .engine k c code :: t => if k.toNat = e ∧ c = cyc then code else parityAt t e cyc
  | _ :: t => parityAt t e cyc

/-- Everything engine e still has to do in the frame. -/
def finishEngine (errs : List FrameErr) (e : Nat) (s : State) : State :=
  let g := engAt s e
  if g.on && !g.held then
    let p := (engPreempt (engEnv s e) g).1
    let r := engFinish (engEnv s e) (parityAt errs e) g
    busyEng e p r.1 (busyEng e g p (engDone e r s))
  else s

/-! ## Bus values and meters (R175, R177) -/

/-- R177: a meter completes its window. -/
def meterEnd (m : Meter) : Meter := if m.full then { m with ms := m.sum / 2 ^ m.w, sum := 0, count := 0, full := false } else m

/-- R177: one bus value of a meter's bus; `clip`: the bus clamped. -/
def meterTake (v : Int) (clip : Bool) (m : Meter) : Meter :=
  let m := meterEnd m
  { m with
    peak := max m.peak v.natAbs, clip := if clip then satInc 0xFFFF m.clip else m.clip
    sum := m.sum + (asr v 16 * asr v 16).toNat, count := m.count + 1, full := decide (2 ^ m.w ≤ m.count + 1) }

/-- R175, R177: saturate every accumulator; the values become those of the next frame. -/
def saturate (s : State) : State :=
  let ovr := s.bus.acc.filter fun kv => clipped 32 kv.2
  let val := s.bus.acc.map fun kv => (kv.1, sat32 kv.2)
  let first := match ovr with | kv :: _ => if s.bus.sat then s.bus.first else kv.1 | [] => s.bus.first
  { s with bus := { s.bus with
      val := val, acc := [], sat := s.bus.sat || !ovr.isEmpty, first := first
      meters := s.bus.meters.map fun m => if m.en then meterTake (Store.get 0 val m.bus) (ovr.any fun kv => kv.1 == m.bus) m else m } }

/-! ## Interfaces (R244 to R248) -/

/-- R248: the ports of a group are silent until it has started. -/
def grpStarted (s : State) (h : HPort) : Bool :=
  match h.group with | none => true | some g => (s.audio.grps.getD g AudGrp.empty).started

/-- Apply a function to the numbering of every interface that numbers its frames and whose group, if any, has started. -/
def onIfaces (f : Iface → Iface) (s : State) : State :=
  { s with audio := { s.audio with
      saps := s.audio.saps.mapIdx fun p x =>
        match hportOf s p with | some h => if syncDomain s h.domain && grpStarted s h then { x with iface := f x.iface } else x | none => x
      rx := s.audio.rx.mapIdx fun r x =>
        match hrxOf s r with | some h => if syncDomain s h.domain then { x with iface := f x.iface } else x | none => x
      tx := s.audio.tx.mapIdx fun i x =>
        match htxOf s i with | some h => if syncDomain s h.domain then { x with iface := f x.iface } else x | none => x
      pdm := s.audio.pdm.mapIdx fun k x =>
        match hpdmOf s k with | some h => if syncDomain s h.domain then { x with iface := f x.iface } else x | none => x } }

/-- Add the samples of an interface to their buses, channel by channel. -/
def addSamples (buses : List (Option Nat)) (xs : List Int) (s : State) : State :=
  (buses.zip xs).foldl (fun s bx => match bx.1 with | some b => addBus b bx.2 s | none => s) s

/-- R257: the ASRC of domain d locks once it has shown 1024 consistent intervals. -/
def asrcDue (d : Nat) (s : State) : State :=
  let x := domAt s d
  if s.hood.isSome && !syncDomain s d && !x.lock && decide (1024 ≤ x.run) then
    updDom d (fun x => { x with lock := true, ratio := Config.asrcRatio s.use }) (used s)
  else s

/-- R257: nominal cycles of domain d's own rate. -/
def domCycles (s : State) (d : Nat) : Nat := match s.hood with | some h => (h.clocks.domRate.getD d .r96).cycles | none => Rate.r96.cycles

/-- R257: it loses lock at time t when the domain has given no tick for 1.2 of its periods. -/
def asrcLost (t d : Nat) (s : State) : State :=
  let x := domAt s d
  if x.lock && (match x.last with | some l => decide (l + expiryTime (domCycles s d) ≤ t) | none => true) then
    updDom d (fun x => { x with lock := false, ratio := 0, run := 0 }) s
  else s

/-- The lock changes of every ASRC up to time t. -/
def asrcForce (t : Nat) (s : State) : State := (List.range 4).foldl (fun s d => asrcLost t d (asrcDue d s)) s

/-- R256, R257: what the ASRC delivers for n channels of domain d from the samples of the interface: free values, or zeros while
unlocked. -/
def asrcSamples (d n : Nat) (given : List Int) (s : State) : State × List Int :=
  if (domAt s d).lock then ((List.range n).foldl (fun s _ => used s) s, (List.range n).map fun c => (Config.asrcIn (s.use + c) c given).toInt)
  else (s, List.replicate n 0)

/-- Samples of n channels of an input interface of domain d in frame f (R245, R256). -/
def takeInputs (f d n : Nat) (i : Iface) (s : State) : State × Iface × List Int :=
  if syncDomain s d then
    let r := i.contribute f
    (s, r.1, (List.range n).map fun c => r.2.getD c 0)
  else
    let r := asrcSamples d n i.asrc s
    (r.1, i, r.2)

/-- R245: input port p contributes; a port with no input slot is no input interface. -/
def sapInput (f p : Nat) (s : State) : State :=
  match hportOf s p with
  | some h =>
    if grpStarted s h && !h.ins.isEmpty then
      let r := takeInputs f h.domain h.ins.length (sapAt s p).iface s
      addSamples (h.ins.map fun m => some m.bus) r.2.2 (updSap p (fun x => { x with iface := r.2.1 }) r.1)
    else s
  | none => s

/-- R245, R257, R259: receiver r contributes; while it is unlocked its last samples are zero. -/
def rxInput (f r : Nat) (s : State) : State :=
  match hrxOf s r with
  | some h =>
    let q := takeInputs f h.domain 2 (rxAt s r).iface s
    addSamples [h.busA, h.busB] q.2.2 (updRx r (fun x => { x with iface := if x.lock then q.2.1 else { q.2.1 with lastIn := [0, 0] } }) q.1)
  | none => s

/-- R245, R267: PDM group k contributes. -/
def pdmInput (f k : Nat) (s : State) : State :=
  match hpdmOf s k with
  | some h =>
    let q := takeInputs f h.domain h.mics.length (pdmAt s k).iface s
    addSamples (h.mics.map fun m => some m.2) q.2.2 (updPdm k (fun x => { x with iface := q.2.1 }) q.1)
  | none => s

/-- R25, R245, R256: every input interface contributes. -/
def inputs (f : Nat) (s : State) : State :=
  let s := (List.range 8).foldl (fun s p => sapInput f p s) s
  let s := (List.range 4).foldl (fun s r => rxInput f r s) s
  (List.range 4).foldl (fun s k => pdmInput f k s) s

/-- Q1.31 values of a port's output channels in the order of its map. -/
def sapOuts (s : State) (h : HPort) : List Int := h.outs.map fun m => Store.get 0 s.bus.val m.bus

/-- Q1.31 values of a transmitter's two channels. -/
def txOuts (s : State) (h : HAes) : List Int :=
  [h.busA, h.busB].map fun b => match b with | some n => Store.get 0 s.bus.val n | none => 0

/-- R246, R256: the output of engine frame f enters the FIFO of an output interface, or its ASRC. -/
def giveOutput (d f : Nat) (xs : List Int) (s : State) (i : Iface) : Iface := if syncDomain s d then i.load f xs else { i with asrc := xs }

/-- R246: the output of engine frame f goes to the output interfaces. -/
def outputs (f : Nat) (s : State) : State :=
  { s with audio := { s.audio with
      saps := s.audio.saps.mapIdx fun p x =>
        match hportOf s p with
        | some h => if grpStarted s h && !h.outs.isEmpty then { x with iface := giveOutput h.domain f (sapOuts s h) s x.iface } else x
        | none => x
      tx := s.audio.tx.mapIdx fun i x =>
        match htxOf s i with | some h => { x with iface := giveOutput h.domain f (txOuts s h) s x.iface } | none => x } }

/-! ## The output digest (R283) -/

/-- Insert a slot map in the order of the digest. -/
def insertSlot (m : SlotMap) : List SlotMap → List SlotMap
  | [] => [m]
  | x :: xs => if m.line * 16 + m.slot ≤ x.line * 16 + x.slot then m :: x :: xs else x :: insertSlot m xs

/-- R283: the output words of the frame just saturated, in order. The channels of a group that has not started carry
zero (R248). -/
def digestWords (s : State) : Words :=
  let sap := (List.range 8).map fun p =>
    match hportOf s p with
    | some h => (h.outs.foldl (fun l m => insertSlot m l) []).map fun m => if grpStarted s h then BitVec.ofInt 32 (Store.get 0 s.bus.val m.bus) else 0
    | none => []
  let tx := (List.range 4).map fun i =>
    match htxOf s i with
    | some h => ([h.busA, h.busB].filterMap id).map fun b => BitVec.ofInt 32 (Store.get 0 s.bus.val b)
    | none => []
  let cv := (List.range 16).filterMap fun c =>
    match hcvOf s c with | some _ => if (cvAt s c).mode then none else some (BitVec.ofNat 32 (cvAt s c).frameCode) | none => none
  sap.flatten ++ tx.flatten ++ cv

/-- R389: the code of the frame of every CV channel. -/
def cvCodes (s : State) : State :=
  { s with cv := { s.cv with chans := s.cv.chans.mapIdx fun c x => { x with frameCode := cvFrameCode (cvBipolar s c) s.bus.val x } } }

/-! ## The end of a frame -/

/-- R414, R417: an error or repair seen in the frame, engines apart. -/
def frameError (s : State) : FrameErr → State
  | .cluster c =>
    if clusterOn s c.toNat then raiseFault 4 c.toNat (updCluster c.toNat (fun x => { x with stopped := true }) s) else s
  | .carder => raiseFault 5 0xFF s
  | .engine _ _ _ => s
  | .dramSingle => countEcc .corrected s
  | .line _ _ => s
  | .sramSingle => { s with flt := { s.flt with sce := satInc 255 s.flt.sce } }

/-- DRAM address of the streamer region. -/
def streamerBase (s : State) : Nat := match s.hood with | some h => h.dram.streamer | none => 0

/-- R233, R237: at the end of frame f the delay samples of the frame go to DRAM and the reads of the next frame are fetched. -/
def delayFrame (f : Nat) (s : State) : State :=
  let m := s.dly.store (streamerBase s) f s.dram
  { s with dram := m, dly := { s.dly with pre := s.dly.fetch (streamerBase s) (f + 1) m, wr := [], lateTaps := [] } }

/-- Step 5 of R17 for frame f. -/
def stepFive (f : Nat) (s : State) : State :=
  let s := saturate (inputs f (cvCodes s))
  let s := delayFrame f (if framesRun s then outputs f s else s)
  { s with
    twin := { s.twin with digest := crc32 (wordBytes (digestWords s)), digestF := f }
    frame := { s.frame with open_ := false } }

/-- The rest of the frame under way, if its step 5 is still to come; an entry into SAFE abandons it (R404). -/
def finishFrame (errs : List FrameErr) (s : State) : State :=
  if s.frame.open_ then
    let s := (List.range 16).foldl (fun s e => finishEngine errs e s) s
    let s := errs.foldl frameError s
    if s.frame.open_ then stepFive s.frame.cnt s else s
  else s

/-! ## Entry into HOLD (R250, R251, R254) -/

/-- R254: entry into HOLD at time t. -/
def enterHold (t : Nat) (s : State) : State :=
  let r := setEff .hold (onIfaces Iface.hold s)
  let r := detFall s { r with
    mode := { r.mode with holdFrom := effMode s }
    det := { r.det with hold := true }
    clocks := { r.clocks with holdAt := t, muted := false, dom := r.clocks.dom.map fun d => { d with relock := 0 }, heldAt := none, relockAt := none } }
  if r.mode.stop then enterReady r else r

end Sys2Proof.Machine
end

