-- ==== Sys2Proof/Machine/Operands.lean ====
section
/-! DEFINITION. The 64-bit words of the engine commands, built from their operands by the encodings of R205 to R220. -/

namespace Sys2Proof.Machine

/-- R208, R209: a product operation. -/
def parWord (aop : Nat) (p : ParArgs) : Nat := wordPar aop p.ad.toNat p.s1.toNat p.s2.toNat p.x.toNat p.y.toNat

/-- R208, R209: another accumulator operation, with its S1 and S2 fields. -/
def accWord (aop s1 s2 : Nat) (p : AccArgs) : Nat := wordPar aop p.ad.toNat s1 s2 p.x.toNat p.y.toNat

/-- R212: the word around one move. -/
def moveWord (op reg sh : Nat) (m : MoveArgs) (o : Around) : Nat :=
  let f := wordMove op m.ptr.toNat m.mod.toNat m.msel.toNat reg sh
  wordPar o.aop.toNat o.ad.toNat o.s1.toNat o.s2.toNat (if m.isY then o.other.toNat else f) (if m.isY then f else o.other.toNat)

/-- R213: a wide transfer; REG is the same in both fields. -/
def wideWord (reg : Nat) (a : WideArgs) : Nat :=
  wordPar a.aop.toNat a.ad.toNat a.s1.toNat a.s2.toNat (wordMove 6 a.xptr.toNat a.xmod.toNat a.xmsel.toNat reg 0)
    (wordMove 6 a.yptr.toNat a.ymod.toNat a.ymsel.toNat reg 0)

/-- The engine that an instruction command names, and the word that it issues (R203). -/
def engWord : Instr → Option (EngAt × Nat)
  | .reservedInstruction g w => some (g, w.toNat)
  | .nop g x y => some (g, wordPar 0 0 0 0 x.toNat y.toNat)
  | .mpy g p => some (g, parWord 1 p)
  | .mac g p => some (g, parWord 2 p)
  | .msu g p => some (g, parWord 3 p)
  | .clr g p => some (g, accWord 4 0 0 p)
  | .adda g m p => some (g, accWord 5 m.toNat 0 p)
  | .suba g m p => some (g, accWord 6 m.toNat 0 p)
  | .nega g p => some (g, accWord 7 0 0 p)
  | .absa g p => some (g, accWord 8 0 0 p)
  | .shla g k p => some (g, accWord 9 k.toNat 0 p)
  | .shra g k p => some (g, accWord 0x0A k.toNat 0 p)
  | .rnda g p => some (g, accWord 0x0B 0 0 p)
  | .addd g d p => some (g, accWord 0x0C d.toNat 0 p)
  | .subd g d p => some (g, accWord 0x0D d.toNat 0 p)
  | .ldd g d p => some (g, accWord 0x0E d.toNat 0 p)
  | .cmpa g m p => some (g, accWord 0x0F m.toNat 0 p)
  | .tsta g p => some (g, accWord 0x10 0 0 p)
  | .maxa g m p => some (g, accWord 0x11 m.toNat 0 p)
  | .mina g m p => some (g, accWord 0x12 m.toNat 0 p)
  | .sela g m c p => some (g, accWord 0x13 m.toNat c.toNat p)
  | .ld g m reg o => some (g, moveWord 1 reg.toNat 0 m o)
  | .st g m reg o => some (g, moveWord 2 reg.toNat 0 m o)
  | .sta g m acc sh o => some (g, moveWord 3 acc.toNat sh.toNat m o)
  | .lda g m acc o => some (g, moveWord 4 acc.toNat 0 m o)
  | .ldp g m ptr o => some (g, moveWord 5 ptr.toNat 0 m o)
  | .wideStore g acc a => some (g, wideWord acc.toNat a)
  | .wideLoad g acc a => some (g, wideWord (8 + acc.toNat) a)
  | .brd g bus reg x y => some (g, wordBus 0 bus.toNat reg.toNat x.toNat y.toNat)
  | .bwr g bus reg x y => some (g, wordBus 1 bus.toNat reg.toNat x.toNat y.toNat)
  | .bwra g bus acc sh x y => some (g, wordBus 2 bus.toNat (acc.toNat + 4 * sh.toNat) x.toNat y.toNat)
  | .trd g tap reg x y => some (g, wordBus 3 tap.toNat reg.toNat x.toNat y.toNat)
  | .twr g line reg x y => some (g, wordBus 4 line.toNat reg.toNat x.toNat y.toNat)
  | .mov g dst src => some (g, wordReg 0 dst.toNat src.toNat 0)
  | .movi g dst imm => some (g, wordReg 1 dst.toNat 0 imm.toNat)
  | .modp g p imm => some (g, wordReg 2 (0x18 + p.toNat) 0 imm.toNat)
  | .add g d r => some (g, wordReg 3 d.toNat r.toNat 0)
  | .sub g d r => some (g, wordReg 4 d.toNat r.toNat 0)
  | .addi g d imm => some (g, wordReg 5 d.toNat 0 imm.toNat)
  | .andi g d imm => some (g, wordReg 6 d.toNat 0 imm.toNat)
  | .ori g d imm => some (g, wordReg 7 d.toNat 0 imm.toNat)
  | .xori g d imm => some (g, wordReg 8 d.toNat 0 imm.toNat)
  | .shl g d n => some (g, wordReg 9 d.toNat 0 n.toNat)
  | .shr g d n => some (g, wordReg 0x0A d.toNat 0 n.toNat)
  | .asr g d n => some (g, wordReg 0x0B d.toNat 0 n.toNat)
  | .cmpd g d r => some (g, wordReg 0x0C d.toNat r.toNat 0)
  | .cmpdi g d imm => some (g, wordReg 0x0D d.toNat 0 imm.toNat)
  | .rep g n => some (g, wordCtl 0 0 0 0 n.toNat)
  | .repr g d => some (g, wordCtl 1 d.toNat 0 0 0)
  | .loop g addr n => some (g, wordCtl 2 0 0 addr.toNat n.toNat)
  | .loopr g d addr => some (g, wordCtl 3 d.toNat 0 addr.toNat 0)
  | .lsave g => some (g, wordCtl 4 0 0 0 0)
  | .lrest g => some (g, wordCtl 5 0 0 0 0)
  | .end_ g => some (g, wordCtl 6 0 0 0 0)
  | .tend g => some (g, wordCtl 7 0 0 0 0)
  | .br g cond addr => some (g, wordCtl 8 0 cond.toNat addr.toNat 0)
  | _ => none

end Sys2Proof.Machine
end

