-- ==== Sys2Proof/Machine/EngineCmds.lean ====
section
/-! DEFINITION. The commands of the fuller engines: preemption, start, resume, overruns, and every instruction
(chapters 8 and 9). -/

namespace Sys2Proof.Machine

/-- R197, R200: whether the engine issues an instruction: of the sample partition in a mode with frames, of a background task
in READY, a running mode or HOLD; from the request of preemption on, the background issues only what is left of a repeat. -/
def engRuns (s : State) (g : Engine) : Bool :=
  g.on && !g.held &&
    ((g.phase == .sample && framesRun s) ||
     (g.phase == .background && (inPeriod s || decide (effMode s = .ready)) && (!g.preReq || g.rc != 0)))

/-- One issue of an instruction word by an engine whose partition runs (R203 to R220). -/
def issueAt (g : EngAt) (w : Nat) (s : State) : State :=
  let e := g.e.toNat
  let x := engAt s e
  if engRuns s x then engDone e (issueWord x (engEnv s e) w (g.perr % 16)) s else s

/-- PREEMPTION (R197). -/
def execPreemption (e : BitVec 4) (s : State) : Host.Outcome State Fault Refusal :=
  let g := engAt s e.toNat
  let r := engPreempt (engEnv s e.toNat) g
  .next (busyEng e.toNat g r.1 (engDone e.toNat r s))

/-- SAMPLE_PARTITION_START (R195). -/
def execSamplePartitionStart (e : BitVec 4) (s : State) : Host.Outcome State Fault Refusal :=
  let g := engAt s e.toNat
  let r := engPreempt (engEnv s e.toNat) g
  .next (busyEng e.toNat g r.1 (engDone e.toNat (engStart r.1, r.2) s))

/-- BACKGROUND_RESUME (R197). -/
def execBackgroundResume (e : BitVec 4) (s : State) : Host.Outcome State Fault Refusal :=
  let g := engAt s e.toNat
  .next (busyEng e.toNat g (engResume g) (setEng e.toNat (engResume g) s))

/-- ENGINE_OVERRUN (R196): END came early, or none came in its cycle. -/
def execEngineOverrun (e : BitVec 4) (early : Bool) (s : State) : Host.Outcome State Fault Refusal :=
  let g := engAt s e.toNat
  .next (if g.phase = .sample then engDone e.toNat (engFault g s.frame.cnt (if early then 2 else 1)) s else s)

/-- RESERVED_INSTRUCTION (R206). -/
def execReservedInstruction (g : EngAt) (w : DWord) (s : State) : Host.Outcome State Fault Refusal :=
  .next (issueAt g w.toNat s)

/-- NOP (R203). -/
def execNop (g : EngAt) (x y : BitVec 23) (s : State) : Host.Outcome State Fault Refusal :=
  .next (issueAt g (wordPar 0 0 0 0 x.toNat y.toNat) s)

/-- MPY (R209). -/
def execMpy (g : EngAt) (p : ParArgs) (s : State) : Host.Outcome State Fault Refusal :=
  .next (issueAt g (parWord 1 p) s)

/-- MAC (R191, R209). -/
def execMac (g : EngAt) (p : ParArgs) (s : State) : Host.Outcome State Fault Refusal :=
  .next (issueAt g (parWord 2 p) s)

/-- MSU (R191, R209). -/
def execMsu (g : EngAt) (p : ParArgs) (s : State) : Host.Outcome State Fault Refusal :=
  .next (issueAt g (parWord 3 p) s)

/-- CLR (R209). -/
def execClr (g : EngAt) (p : AccArgs) (s : State) : Host.Outcome State Fault Refusal :=
  .next (issueAt g (accWord 4 0 0 p) s)

/-- ADDA (R209). -/
def execAdda (g : EngAt) (m : BitVec 2) (p : AccArgs) (s : State) : Host.Outcome State Fault Refusal :=
  .next (issueAt g (accWord 5 m.toNat 0 p) s)

/-- SUBA (R209). -/
def execSuba (g : EngAt) (m : BitVec 2) (p : AccArgs) (s : State) : Host.Outcome State Fault Refusal :=
  .next (issueAt g (accWord 6 m.toNat 0 p) s)

/-- NEGA (R209). -/
def execNega (g : EngAt) (p : AccArgs) (s : State) : Host.Outcome State Fault Refusal :=
  .next (issueAt g (accWord 7 0 0 p) s)

/-- ABSA (R209). -/
def execAbsa (g : EngAt) (p : AccArgs) (s : State) : Host.Outcome State Fault Refusal :=
  .next (issueAt g (accWord 8 0 0 p) s)

/-- SHLA (R209). -/
def execShla (g : EngAt) (k : BitVec 4) (p : AccArgs) (s : State) : Host.Outcome State Fault Refusal :=
  .next (issueAt g (accWord 9 k.toNat 0 p) s)

/-- SHRA (R209). -/
def execShra (g : EngAt) (k : BitVec 4) (p : AccArgs) (s : State) : Host.Outcome State Fault Refusal :=
  .next (issueAt g (accWord 0x0A k.toNat 0 p) s)

/-- RNDA (R209). -/
def execRnda (g : EngAt) (p : AccArgs) (s : State) : Host.Outcome State Fault Refusal :=
  .next (issueAt g (accWord 0x0B 0 0 p) s)

/-- ADDD (R209). -/
def execAddd (g : EngAt) (d : BitVec 4) (p : AccArgs) (s : State) : Host.Outcome State Fault Refusal :=
  .next (issueAt g (accWord 0x0C d.toNat 0 p) s)

/-- SUBD (R209). -/
def execSubd (g : EngAt) (d : BitVec 4) (p : AccArgs) (s : State) : Host.Outcome State Fault Refusal :=
  .next (issueAt g (accWord 0x0D d.toNat 0 p) s)

/-- LDD (R209). -/
def execLdd (g : EngAt) (d : BitVec 4) (p : AccArgs) (s : State) : Host.Outcome State Fault Refusal :=
  .next (issueAt g (accWord 0x0E d.toNat 0 p) s)

/-- CMPA (R209, R210). -/
def execCmpa (g : EngAt) (m : BitVec 2) (p : AccArgs) (s : State) : Host.Outcome State Fault Refusal :=
  .next (issueAt g (accWord 0x0F m.toNat 0 p) s)

/-- TSTA (R209, R210). -/
def execTsta (g : EngAt) (p : AccArgs) (s : State) : Host.Outcome State Fault Refusal :=
  .next (issueAt g (accWord 0x10 0 0 p) s)

/-- MAXA (R209). -/
def execMaxa (g : EngAt) (m : BitVec 2) (p : AccArgs) (s : State) : Host.Outcome State Fault Refusal :=
  .next (issueAt g (accWord 0x11 m.toNat 0 p) s)

/-- MINA (R209). -/
def execMina (g : EngAt) (m : BitVec 2) (p : AccArgs) (s : State) : Host.Outcome State Fault Refusal :=
  .next (issueAt g (accWord 0x12 m.toNat 0 p) s)

/-- SELA (R209, R211). -/
def execSela (g : EngAt) (m : BitVec 2) (c : BitVec 4) (p : AccArgs) (s : State) : Host.Outcome State Fault Refusal :=
  .next (issueAt g (accWord 0x13 m.toNat c.toNat p) s)

/-- LD (R212). -/
def execLd (g : EngAt) (m : MoveArgs) (reg : BitVec 4) (o : Around) (s : State) : Host.Outcome State Fault Refusal :=
  .next (issueAt g (moveWord 1 reg.toNat 0 m o) s)

/-- ST (R212). -/
def execSt (g : EngAt) (m : MoveArgs) (reg : BitVec 4) (o : Around) (s : State) : Host.Outcome State Fault Refusal :=
  .next (issueAt g (moveWord 2 reg.toNat 0 m o) s)

/-- STA (R212). -/
def execSta (g : EngAt) (m : MoveArgs) (acc : BitVec 2) (sh : BitVec 3) (o : Around) (s : State) : Host.Outcome State Fault Refusal :=
  .next (issueAt g (moveWord 3 acc.toNat sh.toNat m o) s)

/-- LDA (R212). -/
def execLda (g : EngAt) (m : MoveArgs) (acc : BitVec 2) (o : Around) (s : State) : Host.Outcome State Fault Refusal :=
  .next (issueAt g (moveWord 4 acc.toNat 0 m o) s)

/-- LDP (R212). -/
def execLdp (g : EngAt) (m : MoveArgs) (ptr : BitVec 3) (o : Around) (s : State) : Host.Outcome State Fault Refusal :=
  .next (issueAt g (moveWord 5 ptr.toNat 0 m o) s)

/-- WIDE_STORE (R213). -/
def execWideStore (g : EngAt) (acc : BitVec 2) (a : WideArgs) (s : State) : Host.Outcome State Fault Refusal :=
  .next (issueAt g (wideWord acc.toNat a) s)

/-- WIDE_LOAD (R213). -/
def execWideLoad (g : EngAt) (acc : BitVec 2) (a : WideArgs) (s : State) : Host.Outcome State Fault Refusal :=
  .next (issueAt g (wideWord (8 + acc.toNat) a) s)

/-- BRD (R214). -/
def execBrd (g : EngAt) (bus : BitVec 9) (reg : BitVec 4) (x y : BitVec 23) (s : State) : Host.Outcome State Fault Refusal :=
  .next (issueAt g (wordBus 0 bus.toNat reg.toNat x.toNat y.toNat) s)

/-- BWR (R214). -/
def execBwr (g : EngAt) (bus : BitVec 9) (reg : BitVec 4) (x y : BitVec 23) (s : State) : Host.Outcome State Fault Refusal :=
  .next (issueAt g (wordBus 1 bus.toNat reg.toNat x.toNat y.toNat) s)

/-- BWRA (R214). -/
def execBwra (g : EngAt) (bus : BitVec 9) (acc : BitVec 2) (sh : BitVec 2) (x y : BitVec 23) (s : State) : Host.Outcome State Fault Refusal :=
  .next (issueAt g (wordBus 2 bus.toNat (acc.toNat + 4 * sh.toNat) x.toNat y.toNat) s)

/-- TRD (R214, R234). -/
def execTrd (g : EngAt) (tap : BitVec 9) (reg : BitVec 4) (x y : BitVec 23) (s : State) : Host.Outcome State Fault Refusal :=
  .next (issueAt g (wordBus 3 tap.toNat reg.toNat x.toNat y.toNat) s)

/-- TWR (R214, R233). -/
def execTwr (g : EngAt) (line : BitVec 9) (reg : BitVec 4) (x y : BitVec 23) (s : State) : Host.Outcome State Fault Refusal :=
  .next (issueAt g (wordBus 4 line.toNat reg.toNat x.toNat y.toNat) s)

/-- MOV (R215, R216). -/
def execMov (g : EngAt) (dst src : BitVec 8) (s : State) : Host.Outcome State Fault Refusal :=
  .next (issueAt g (wordReg 0 dst.toNat src.toNat 0) s)

/-- MOVI (R215, R216). -/
def execMovi (g : EngAt) (dst : BitVec 8) (imm : Word) (s : State) : Host.Outcome State Fault Refusal :=
  .next (issueAt g (wordReg 1 dst.toNat 0 imm.toNat) s)

/-- MODP (R216). -/
def execModp (g : EngAt) (p : BitVec 3) (imm : BitVec 16) (s : State) : Host.Outcome State Fault Refusal :=
  .next (issueAt g (wordReg 2 (0x18 + p.toNat) 0 imm.toNat) s)

/-- ADD (R216). -/
def execAdd (g : EngAt) (d r : BitVec 4) (s : State) : Host.Outcome State Fault Refusal :=
  .next (issueAt g (wordReg 3 d.toNat r.toNat 0) s)

/-- SUB (R216). -/
def execSub (g : EngAt) (d r : BitVec 4) (s : State) : Host.Outcome State Fault Refusal :=
  .next (issueAt g (wordReg 4 d.toNat r.toNat 0) s)

/-- ADDI (R216). -/
def execAddi (g : EngAt) (d : BitVec 4) (imm : Word) (s : State) : Host.Outcome State Fault Refusal :=
  .next (issueAt g (wordReg 5 d.toNat 0 imm.toNat) s)

/-- ANDI (R216). -/
def execAndi (g : EngAt) (d : BitVec 4) (imm : Word) (s : State) : Host.Outcome State Fault Refusal :=
  .next (issueAt g (wordReg 6 d.toNat 0 imm.toNat) s)

/-- ORI (R216). -/
def execOri (g : EngAt) (d : BitVec 4) (imm : Word) (s : State) : Host.Outcome State Fault Refusal :=
  .next (issueAt g (wordReg 7 d.toNat 0 imm.toNat) s)

/-- XORI (R216). -/
def execXori (g : EngAt) (d : BitVec 4) (imm : Word) (s : State) : Host.Outcome State Fault Refusal :=
  .next (issueAt g (wordReg 8 d.toNat 0 imm.toNat) s)

/-- SHL (R216). -/
def execShl (g : EngAt) (d : BitVec 4) (n : BitVec 5) (s : State) : Host.Outcome State Fault Refusal :=
  .next (issueAt g (wordReg 9 d.toNat 0 n.toNat) s)

/-- SHR (R216). -/
def execShr (g : EngAt) (d : BitVec 4) (n : BitVec 5) (s : State) : Host.Outcome State Fault Refusal :=
  .next (issueAt g (wordReg 0x0A d.toNat 0 n.toNat) s)

/-- ASR (R216). -/
def execAsr (g : EngAt) (d : BitVec 4) (n : BitVec 5) (s : State) : Host.Outcome State Fault Refusal :=
  .next (issueAt g (wordReg 0x0B d.toNat 0 n.toNat) s)

/-- CMPD (R216). -/
def execCmpd (g : EngAt) (d r : BitVec 4) (s : State) : Host.Outcome State Fault Refusal :=
  .next (issueAt g (wordReg 0x0C d.toNat r.toNat 0) s)

/-- CMPDI (R216). -/
def execCmpdi (g : EngAt) (d : BitVec 4) (imm : Word) (s : State) : Host.Outcome State Fault Refusal :=
  .next (issueAt g (wordReg 0x0D d.toNat 0 imm.toNat) s)

/-- REP (R218). -/
def execRep (g : EngAt) (n : BitVec 16) (s : State) : Host.Outcome State Fault Refusal :=
  .next (issueAt g (wordCtl 0 0 0 0 n.toNat) s)

/-- REPR (R218). -/
def execRepr (g : EngAt) (d : BitVec 4) (s : State) : Host.Outcome State Fault Refusal :=
  .next (issueAt g (wordCtl 1 d.toNat 0 0 0) s)

/-- LOOP (R219). -/
def execLoop (g : EngAt) (addr : BitVec 13) (n : BitVec 16) (s : State) : Host.Outcome State Fault Refusal :=
  .next (issueAt g (wordCtl 2 0 0 addr.toNat n.toNat) s)

/-- LOOPR (R219). -/
def execLoopr (g : EngAt) (d : BitVec 4) (addr : BitVec 13) (s : State) : Host.Outcome State Fault Refusal :=
  .next (issueAt g (wordCtl 3 d.toNat 0 addr.toNat 0) s)

/-- LSAVE (R198). -/
def execLsave (g : EngAt) (s : State) : Host.Outcome State Fault Refusal :=
  .next (issueAt g (wordCtl 4 0 0 0 0) s)

/-- LREST (R198). -/
def execLrest (g : EngAt) (s : State) : Host.Outcome State Fault Refusal :=
  .next (issueAt g (wordCtl 5 0 0 0 0) s)

/-- END (R196). -/
def execEnd (g : EngAt) (s : State) : Host.Outcome State Fault Refusal :=
  .next (issueAt g (wordCtl 6 0 0 0 0) s)

/-- TEND (R197). -/
def execTend (g : EngAt) (s : State) : Host.Outcome State Fault Refusal :=
  .next (issueAt g (wordCtl 7 0 0 0 0) s)

/-- BR (R220). -/
def execBr (g : EngAt) (cond : BitVec 4) (addr : BitVec 13) (s : State) : Host.Outcome State Fault Refusal :=
  .next (issueAt g (wordCtl 8 0 cond.toNat addr.toNat 0) s)

end Sys2Proof.Machine
end

