-- ==== Sys2Proof/Machine/EventCmds.lean ====
section
/-! DEFINITION. The event commands: a source offers an event record to the carder (R38 to R43). What the event does when
its window closes is in Apply. -/

namespace Sys2Proof.Machine

/-- NOTE_START (R102): a source offers the event. -/
def execNoteStart (src : Source) (a : EvArgs) (s : State) : Host.Outcome State Fault Refusal :=
  .next (offer src (a.toRec opNoteStart) s)

/-- NOTE_RELEASE (R97): a source offers the event. -/
def execNoteRelease (src : Source) (a : EvArgs) (s : State) : Host.Outcome State Fault Refusal :=
  .next (offer src (a.toRec opNoteRelease) s)

/-- NOTE_KILL (R98): a source offers the event. -/
def execNoteKill (src : Source) (a : EvArgs) (s : State) : Host.Outcome State Fault Refusal :=
  .next (offer src (a.toRec opNoteKill) s)

/-- VOICE_SET (R161): a source offers the event. -/
def execVoiceSet (src : Source) (a : EvArgs) (s : State) : Host.Outcome State Fault Refusal :=
  .next (offer src (a.toRec opVoiceSet) s)

/-- GROUP_SET (R86): a source offers the event. -/
def execGroupSet (src : Source) (a : EvArgs) (s : State) : Host.Outcome State Fault Refusal :=
  .next (offer src (a.toRec opGroupSet) s)

/-- PLACE_SET (R172): a source offers the event. -/
def execPlaceSet (src : Source) (a : EvArgs) (s : State) : Host.Outcome State Fault Refusal :=
  .next (offer src (a.toRec opPlaceSet) s)

/-- TEMPO (R153): a source offers the event. -/
def execTempo (src : Source) (a : EvArgs) (s : State) : Host.Outcome State Fault Refusal :=
  .next (offer src (a.toRec opTempo) s)

/-- FUL_SET (R223): a source offers the event. -/
def execFulSet (src : Source) (a : EvArgs) (s : State) : Host.Outcome State Fault Refusal :=
  .next (offer src (a.toRec opFulSet) s)

/-- BANK_SWAP (R222): a source offers the event. -/
def execBankSwap (src : Source) (a : EvArgs) (s : State) : Host.Outcome State Fault Refusal :=
  .next (offer src (a.toRec opBankSwap) s)

/-- XF_START (R226): a source offers the event. -/
def execXfStart (src : Source) (a : EvArgs) (s : State) : Host.Outcome State Fault Refusal :=
  .next (offer src (a.toRec opXfStart) s)

/-- XF_FINISH (R230): a source offers the event. -/
def execXfFinish (src : Source) (a : EvArgs) (s : State) : Host.Outcome State Fault Refusal :=
  .next (offer src (a.toRec opXfFinish) s)

/-- DELAY_SET (R235): a source offers the event. -/
def execDelaySet (src : Source) (a : EvArgs) (s : State) : Host.Outcome State Fault Refusal :=
  .next (offer src (a.toRec opDelaySet) s)

/-- CV_SET (R388): a source offers the event. -/
def execCvSet (src : Source) (a : EvArgs) (s : State) : Host.Outcome State Fault Refusal :=
  .next (offer src (a.toRec opCvSet) s)

/-- REGION_ENABLE (R63): a source offers the event. -/
def execRegionEnable (src : Source) (a : EvArgs) (s : State) : Host.Outcome State Fault Refusal :=
  .next (offer src (a.toRec opRegionEnable) s)

/-- COMMIT (R49): a source offers the event. -/
def execCommit (src : Source) (a : EvArgs) (s : State) : Host.Outcome State Fault Refusal :=
  .next (offer src (a.toRec opCommit) s)

/-- COMMIT_DROP (R49): a source offers the event. -/
def execCommitDrop (src : Source) (a : EvArgs) (s : State) : Host.Outcome State Fault Refusal :=
  .next (offer src (a.toRec opCommitDrop) s)

/-- MARK (R438): a source offers the event. -/
def execMark (src : Source) (a : EvArgs) (s : State) : Host.Outcome State Fault Refusal :=
  .next (offer src (a.toRec opMark) s)

/-- RESERVED_OPCODE (R43): a record with an opcode that the table does not define. -/
def execReservedOpcode (src : Source) (op : BitVec 8) (a : EvArgs) (s : State) : Host.Outcome State Fault Refusal :=
  .next (offer src (a.toRec op.toNat) s)

end Sys2Proof.Machine
end

