-- ==== Sys2Proof/Machine/Crypto.lean ====
section
/-! DEFINITION. The digests and signatures of images (R68): SHA-256 of FIPS 180-4 and ECDSA over P-256 of FIPS 186-4.
SHA-256's words are computed as its standard defines them; the curve's are the standard's numbers. -/

namespace Sys2Proof.Machine

/-! ## SHA-256 -/

/-- The greatest r below 2^n + a with r^k at most x, from a whose lower n bits are open. -/
def rootFrom (k x : Nat) : Nat → Nat → Nat
  | 0, a => a
  | n + 1, a => rootFrom k x n (if (a + 2 ^ n) ^ k ≤ x then a + 2 ^ n else a)

/-- The first 32 bits of the fractional part of the k-th root of p. -/
def rootBits (k p : Nat) : Nat := rootFrom k (p * 2 ^ (32 * k)) 37 0 % 2 ^ 32

/-- The primes below 312, of which there are 64. -/
def shaPrimes : List Nat := (List.range 312).filter fun p => decide (1 < p) && (List.range 18).all fun d => decide (d < 2) || decide (p ≤ d) || p % d != 0

/-- FIPS 180-4 takes its words from roots of primes: cube roots of the first 64 for the rounds, square roots of the first
8 for the initial digest. -/
def shaK : List Nat := shaPrimes.map (rootBits 3)
def shaInit : List Nat := (shaPrimes.take 8).map (rootBits 2)

def w32 (x : Nat) : Nat := x % 2 ^ 32

def rotr (x k : Nat) : Nat := rotl x (32 - k)

/-- n more words of the message schedule, newest first. -/
def shaSched : Nat → List Nat → List Nat
  | 0, ws => ws
  | n + 1, ws =>
    let w15 := ws.getD 14 0
    let w2 := ws.getD 1 0
    let s0 := Nat.xor (Nat.xor (rotr w15 7) (rotr w15 18)) (w15 / 2 ^ 3)
    let s1 := Nat.xor (Nat.xor (rotr w2 17) (rotr w2 19)) (w2 / 2 ^ 10)
    shaSched n (w32 (ws.getD 15 0 + s0 + ws.getD 6 0 + s1) :: ws)

/-- One round on the eight working variables. -/
def shaRound (v : List Nat) (k w : Nat) : List Nat :=
  match v with
  | [a, b, c, d, e, f, g, h] =>
    let s1 := Nat.xor (Nat.xor (rotr e 6) (rotr e 11)) (rotr e 25)
    let ch := Nat.xor (Nat.land e f) (Nat.land (Nat.xor e 0xFFFFFFFF) g)
    let t1 := h + s1 + ch + k + w
    let s0 := Nat.xor (Nat.xor (rotr a 2) (rotr a 13)) (rotr a 22)
    let mj := Nat.xor (Nat.xor (Nat.land a b) (Nat.land a c)) (Nat.land b c)
    [w32 (t1 + s0 + mj), a, b, c, w32 (d + t1), e, f, g]
  | v => v

def shaRounds (v : List Nat) : List Nat → List Nat → List Nat
  | k :: ks, w :: ws => shaRounds (shaRound v k w) ks ws
  | _, _ => v

/-- A big-endian number from bytes. -/
def beNat (bs : List Byte) : Nat := bs.foldl (fun a b => 256 * a + b.toNat) 0

/-- n bytes of a number, most significant first. -/
def beBytes (x n : Nat) : List Byte := (leBytes x n).reverse

def beWords : Nat → List Byte → List Nat
  | 0, _ => []
  | n + 1, bs => beNat (bs.take 4) :: beWords n (bs.drop 4)

/-- n blocks of 64 bytes. -/
def shaBlocks : Nat → List Nat → List Byte → List Nat
  | 0, h, _ => h
  | n + 1, h, bs =>
    let sched := (shaSched 48 (beWords 16 (bs.take 64)).reverse).reverse
    let v := shaRounds h shaK sched
    shaBlocks n (List.zipWith (fun a b => w32 (a + b)) h v) (bs.drop 64)

/-- R68: the SHA-256 digest of a byte list, as 32 bytes. -/
def sha256 (msg : List Byte) : List Byte :=
  let zeros := (119 - msg.length % 64) % 64
  let padded := msg ++ [0x80] ++ List.replicate zeros 0 ++ beBytes (8 * msg.length) 8
  (shaBlocks (padded.length / 64) shaInit padded).flatMap fun w => beBytes w 4

/-! ## ECDSA over P-256 -/

def p256P : Nat := 0xFFFFFFFF00000001000000000000000000000000FFFFFFFFFFFFFFFFFFFFFFFF
def p256N : Nat := 0xFFFFFFFF00000000FFFFFFFFFFFFFFFFBCE6FAADA7179E84F3B9CAC2FC632551
def p256B : Nat := 0x5AC635D8AA3A93E7B3EBBD55769886BC651D06B0CC53B0F63BCE3C3E27D2604B
def p256G : Nat × Nat :=
  (0x6B17D1F2E12C4247F8BCE6E563A440F277037D812DEB33A0F4A13945D898C296,
   0x4FE342E2FE1A7F9B8EE7EB4A7C0F9E162BCE33576B315ECECBB6406837BF51F5)

/-- b^e mod m over the k low bits of e. -/
def powMod : Nat → Nat → Nat → Nat → Nat → Nat
  | 0, _, _, _, acc => acc
  | k + 1, b, e, m, acc => powMod k (b * b % m) (e / 2) m (if e % 2 = 1 then acc * b % m else acc)

/-- The inverse modulo a 256-bit prime. -/
def invMod (x m : Nat) : Nat := powMod 256 (x % m) (m - 2) m 1

/-- A point of the curve; none is the point at infinity. -/
abbrev EcPoint := Option (Nat × Nat)

/-- Point addition in affine coordinates. -/
def ecAdd (a b : EcPoint) : EcPoint :=
  match a, b with
  | none, q => q
  | q, none => q
  | some (x1, y1), some (x2, y2) =>
    let p := p256P
    if x1 = x2 ∧ (y1 + y2) % p = 0 then none
    else
      let l := if x1 = x2 then (3 * x1 * x1 + (p - 3)) * invMod (2 * y1) p % p
        else (y2 + p - y1) * invMod (x2 + p - x1) p % p
      let x3 := (l * l + 2 * p - x1 - x2) % p
      some (x3, (l * (x1 + p - x3) + p - y1) % p)

/-- Scalar multiplication over the k low bits of e. -/
def ecMul : Nat → Nat → EcPoint → EcPoint → EcPoint
  | 0, _, _, acc => acc
  | k + 1, e, q, acc => ecMul k (e / 2) (ecAdd q q) (if e % 2 = 1 then ecAdd acc q else acc)

/-- Whether a key is a point of the curve. -/
def ecOnCurve (x y : Nat) : Bool :=
  x < p256P && y < p256P && (y * y % p256P == (x * x * x + (p256P - 3) * x + p256B) % p256P)

/-- R68: ECDSA verification of a signature (r then s, 32 bytes each, big-endian) over a SHA-256 digest, under a
public key given as X then Y. -/
def ecdsaVerify (key digest sig : List Byte) : Bool :=
  let kx := beNat (key.take 32)
  let ky := beNat ((key.drop 32).take 32)
  let r := beNat (sig.take 32)
  let s := beNat ((sig.drop 32).take 32)
  let n := p256N
  if r = 0 || n ≤ r || s = 0 || n ≤ s || !ecOnCurve kx ky then false
  else
    let w := invMod s n
    let u1 := beNat digest * w % n
    let u2 := r * w % n
    match ecAdd (ecMul 256 u1 (some p256G) none) (ecMul 256 u2 (some (kx, ky)) none) with
    | none => false
    | some (x, _) => x % n == r

end Sys2Proof.Machine
end

