-- ==== Sys2Proof/Machine/Mailbox.lean ====
section
/-! DEFINITION. Mailboxes (R331 to R335) and the messages that firmware answers with (R337, R338). -/

namespace Sys2Proof.Machine

/-! ## Full flags -/

/-- R335: the two flags of a channel, after a change that leaves both set for the first time. -/
def crossed (was : Bool) (m : Mbx) : Mbx := if m.infull && m.outfull && !was then { m with cross := true, fwCross := true } else m

/-- R332: word i of the inbound message, not the last. -/
def mbxWord (i : Nat) (w : Word) (m : Mbx) : Mbx := { m with inw := setAt m.inw i w }

/-- R332: the commit of the last word sends the inbound message. -/
def mbxSend (w : Word) (m : Mbx) : Mbx :=
  crossed (m.infull && m.outfull) { m with inw := setAt m.inw 7 w, infull := true, iseq := (m.iseq + 1) % 256 }

/-- R332: firmware sends an outbound message. -/
def mbxOut (ws : Words) (m : Mbx) : Mbx :=
  if m.outfull then m
  else crossed false { m with outw := (List.range 8).map fun i => ws.getD i 0, outfull := true, oseq := (m.oseq + 1) % 256 }

/-- R332: the host side has read the last word of the outbound message. -/
def mbxRead (m : Mbx) : Mbx := { m with outfull := false }

/-- R333: a flush of the inbound mailbox. -/
def mbxFlush (m : Mbx) : Mbx := if m.infull then { m with infull := false, flshd := true } else m

/-- R334: a reset or power-down of the CTRL domain. -/
def mbxLose (m : Mbx) : Mbx :=
  let lost := m.infull || m.outfull
  { Mbx.empty with lost := m.lost || lost, fwLost := lost }

/-! ## Firmware's side -/

/-- R356, R352, R406: whether firmware or the resident loader takes and answers messages. -/
def fwServes (s : State) : Bool :=
  !(s.mode.mode == .reset || s.mode.mode == .sleep) && s.fw.handover.isNone && s.fw.bootAt.isNone

/-- R337: a reply to request m. -/
def ilReply (m : Words) (e : Err) (args : List Nat) : Words :=
  [BitVec.ofNat 32 (place 2 4 28 + Words.fld m 0 23 0), BitVec.ofNat 32 (place e.code 8 24)] ++
    (List.range 6).map fun i => BitVec.ofNat 32 (args.getD i 0)

/-- Messages that wait at firmware. -/
def fwReqs (s : State) (c : Nat) : List Words := Store.get [] s.fw.reqs c
def fwOuts (s : State) (c : Nat) : List Words := Store.get [] s.fw.outs c

/-- R332: firmware takes the inbound message; what is no request needs no answer (R338). -/
def mbxTake (c : Nat) (s : State) : State :=
  let m := mbxAt s c
  if m.infull then
    let s := updMbx c (fun m => { m with infull := false }) s
    let k := Words.fld m.inw 0 31 28
    if k = 2 ∨ k = 3 then s else { s with fw := { s.fw with reqs := Store.set [] s.fw.reqs c (fwReqs s c ++ [m.inw]) } }
  else s

/-- R332, R336: firmware sends a message on channel c, or keeps it while OUTFULL = 1. -/
def sendOut (c : Nat) (ws : Words) (s : State) : State :=
  if (mbxAt s c).outfull || !(fwOuts s c).isEmpty then
    { s with fw := { s.fw with outs := Store.set [] s.fw.outs c (fwOuts s c ++ [ws]) } }
  else updMbx c (mbxOut ws) s

/-- R336: a message that waited is sent once OUTFULL has cleared. -/
def sendWaiting (c : Nat) (s : State) : State :=
  match fwOuts s c with
  | m :: t => if (mbxAt s c).outfull then s else updMbx c (mbxOut m) { s with fw := { s.fw with outs := Store.set [] s.fw.outs c t } }
  | [] => s

/-- R338: the oldest request of channel c has been served with a reply. -/
def answer (c : Nat) (m : Words) (e : Err) (args : List Nat) (s : State) : State :=
  sendOut c (ilReply m e args) { s with fw := { s.fw with reqs := Store.set [] s.fw.reqs c ((fwReqs s c).drop 1) } }

/-! ## The commands of firmware's side -/

/-- MAILBOX_TAKE (R332). -/
def execMailboxTake (c : BitVec 4) (s : State) : Host.Outcome State Fault Refusal :=
  .next (if fwServes s then mbxTake c.toNat s else s)

/-- R324, R337: a notice travels in a LOG ring that the control cores produce; a full ring drops it, LOST + 1. -/
def logNotice (r : Nat) (m : Words) (s : State) : State :=
  match hringOf s r with
  | some h => if h.type = 3 ∧ h.prod = .cores ∧ Words.fld m 0 31 28 = 3 then ringPush r ((List.range 8).map fun i => m.getD i 0) s else s
  | none => s

/-- OUTBOUND_SEND (R332, R337): a message of firmware's own through the mailbox of channel c, where what waits goes first,
or a notice through LOG ring `log`. -/
def execOutboundSend (c : BitVec 4) (m : Words) (s : State) (log : Option (BitVec 6) := none) : Host.Outcome State Fault Refusal :=
  if fwServes s then
    match log with
    | some r => .next (logNotice r.toNat m s)
    | none =>
      let s := sendWaiting c.toNat s
      .next (if (mbxAt s c.toNat).outfull then s else updMbx c.toNat (mbxOut m) s)
  else .next s

/-- OUTBOUND_FLUSH (R333). -/
def execOutboundFlush (c : BitVec 4) (s : State) : Host.Outcome State Fault Refusal :=
  .next (if fwServes s then updMbx c.toNat mbxRead s else s)

end Sys2Proof.Machine
end

