-- ==== Sys2Proof/Machine/Handover.lean ====
section
/-! DEFINITION. Code banks, the firmware image and its checks, the version floor, the handover at frame boundaries, and
what a control-core restart does to an update (R348 to R360, R413). -/

namespace Sys2Proof.Machine

/-! ## Banks and versions -/

/-- Change the control-core state. -/
def updFw (f : Firmware → Firmware) (s : State) : State := { s with fw := f s.fw }

/-- R354, R358: the idle bank; under the resident loader it is bank 0. -/
def idleBank (s : State) : Nat := if s.fw.rom then 0 else 1 - s.fw.bank
/-- Contents of a bank. -/
def bankOf (s : State) (b : Nat) : Memory := if b = 0 then s.fw.bank0 else s.fw.bank1
def setBank (b : Nat) (m : Memory) (s : State) : State :=
  updFw (fun w => if b = 0 then { w with bank0 := m } else { w with bank1 := m }) s

/-- A header word of the image in a bank. -/
def bankWord (m : Memory) (off : Nat) : Nat := (Memory.readW 0 m off).toNat

/-- UPD_VER: VERSION of the running firmware, or of the loader while ROM = 1. -/
def fwVersion (s : State) : Nat := if s.fw.rom then Config.loaderVersion.toNat else bankWord (bankOf s s.fw.bank) 0x0C

/-- UPD_IMG: VERSION of the image in the idle bank, from VERIFIED onward. -/
def imgVersion (s : State) : Nat :=
  match s.fw.stage with
  | .idle => 0 | .download => 0 | _ => bankWord (bankOf s (idleBank s)) 0x0C

/-- Flash address of a copy of the floor record (R351). -/
def floorAddr (copy : Nat) : Nat := 0x20000 + 0x1000 * copy

/-- R351: the 64 bytes of the signature that this device makes. -/
def deviceSig (bs : List Byte) : List Byte := (List.range 64).map fun i => (Config.deviceSign bs).getD i 0

/-- R351: the signature over the first 64 bytes of a record verifies under this device's key, the device's own signature
among those that do. -/
def deviceSigned (bs sig : List Byte) : Bool :=
  sig == deviceSig bs || ecdsaVerify Config.deviceKey (sha256 bs) sig

/-- R351: GEN and VERSION of a copy of the floor record in flash, where it is valid. -/
def floorRecord (s : State) (copy : Nat) : Option (Nat × Nat) :=
  let bs := Memory.readN 0xFF s.flash (floorAddr copy) 128
  let words := bs.take 64
  if leNat (words.take 4) = 0x52465657 ∧ (words.drop 12).all (· == 0) ∧ deviceSigned words (bs.drop 64) then
    some (leNat ((words.drop 4).take 4), leNat ((words.drop 8).take 4))
  else none

/-- R351: the copy in use, the valid one with the higher GEN, with its GEN and VERSION; copy 0 of two equal ones (log
entry 62). -/
def floorInUse (s : State) : Option (Nat × Nat × Nat) :=
  match floorRecord s 0, floorRecord s 1 with
  | some a, some b => some (if a.1 < b.1 then (1, b) else (0, a))
  | some a, none => some (0, a)
  | none, some b => some (1, b)
  | none, none => none

/-- R351: V_rec, and the GEN in use. -/
def vRec (s : State) : Nat := match floorInUse s with | some r => r.2.2 | none => 0
def genRec (s : State) : Nat := match floorInUse s with | some r => r.2.1 | none => 0

/-- R350: the version floor. -/
def verFloor (s : State) : Nat := max (s.fuses.epoch * 2 ^ 24) (vRec s)

/-! ## The image (R348, R355) -/

/-- A 32-bit field of an image. -/
def imgWord (bs : List Byte) (off : Nat) : Nat := leNat ((bs.drop off).take 4)

/-- n bytes of an image. -/
def imgPart (bs : List Byte) (off n : Nat) : List Byte := (bs.drop off).take n

/-- Whether n bytes are all zero. -/
def zeroBytes (bs : List Byte) : Bool := bs.all (· == 0)

/-- R348: a length that an image may have. -/
def imgLength (n : Nat) : Bool := n % 64 == 0 && decide (256 ≤ n) && decide (n ≤ 131072)

/-- R355: steps 1 to 5 of *Verification checks*, over the bytes that hold the image. -/
def imgCheck (bs : List Byte) (revoked floor : Nat) : Err :=
  let n := imgWord bs 8
  let key := imgWord bs (n - 128)
  if imgWord bs 0 != 0x46575657 || imgWord bs 4 / 2 ^ 16 != 1 || !imgLength n || imgWord bs 0x14 / 2 ^ 16 != 0 ||
      imgWord bs 0x18 % 2 ^ 16 != 0 || !zeroBytes (imgPart bs 0x1C 28) || !zeroBytes (imgPart bs (n - 60) 60) || decide (3 < key) then .format
  else if imgWord bs 0x3C != crc32 (bs.take 0x3C) || imgWord bs 0x38 != crc32 (imgPart bs 0x40 (n - 192)) then .check
  else if bitAt revoked key || !ecdsaVerify (Config.firmwareKey key) (sha256 (bs.take (n - 128))) (imgPart bs (n - 124) 64) then .security
  else if imgWord bs 0x0C < floor then .rollback
  else if imgWord bs 0x10 / 2 ^ 16 < imgWord bs 0x10 % 2 ^ 16 then .format
  else .ok

/-- R355: steps 6 and 7. -/
def imgFits (s : State) (bs : List Byte) : Err :=
  let out := bankWord (bankOf s s.fw.bank) 0x14 % 2 ^ 16
  let hood := match s.hood with | some h => imgWord bs 0x18 / 2 ^ 16 == 1 && decide (h.hdr.fwMin ≤ imgWord bs 0x0C) | none => true
  if s.fw.rom then .ok
  else if !hood then .incompat
  else if out < imgWord bs 0x10 % 2 ^ 16 ∨ imgWord bs 0x10 / 2 ^ 16 < out then .incompat
  else .ok

/-! ## Flash and fuses (R351, R359, R360) -/

/-- Bytes of the image in the active bank. -/
def runningImage (s : State) : List Byte :=
  Memory.readN 0 (bankOf s s.fw.bank) 0 (bankWord (bankOf s s.fw.bank) 8)

/-- R359: the boot image slot is written. -/
def writeSlot (bs : List Byte) (s : State) : State := { s with flash := Memory.writeN 0xFF s.flash 0 bs }

/-- R351: words 0 to 15 of a floor record. -/
def floorWords (gen ver : Nat) : Words :=
  [0x52465657, BitVec.ofNat 32 gen, BitVec.ofNat 32 ver] ++ List.replicate 13 0

/-- R351: the copy that the next floor record overwrites. -/
def olderCopy (s : State) : Nat := match floorInUse s with | some r => 1 - r.1 | none => 0

/-- R359: the older copy is written with GEN + 1 and VERSION. -/
def writeFloor (ver : Nat) (s : State) : State :=
  let c := olderCopy s
  let gen := (genRec s + 1) % 2 ^ 32
  let bs := wordBytes (floorWords gen ver)
  updFw (fun w => { w with floorbad := false })
    { s with flash := Memory.writeN 0xFF s.flash (floorAddr c) (bs ++ deviceSig bs) }

/-- R359: epoch fuses that a version asks for. -/
def epochOf (ver : Nat) : Nat := min (ver / 2 ^ 24) 63

/-- R350: fuses are blown up to e. -/
def blowEpoch (e : Nat) (s : State) : State := { s with fuses := { s.fuses with epoch := max s.fuses.epoch e } }

/-- n bytes that nothing constrains. -/
def freeBytes (n : Nat) (s : State) : List Byte := (List.range n).map fun i => (Config.freeWord (s.use + i)).setWidth 8

/-- R360: CONFIRM is cut short; which of its steps had been reached is a free value. -/
def confirmCut (s : State) : State :=
  let bs := runningImage s
  let ver := imgWord bs 0x0C
  let k := Config.freeNat s.use % 3
  let s := used s
  if k = 0 then
    -- the slot is left invalid: its MAGIC is erased, the rest is open
    { writeSlot (List.replicate 4 0xFF ++ freeBytes (bs.length - 4) s) s with use := s.use + bs.length }
  else if k = 1 then
    let s := writeSlot bs s
    { s with flash := Memory.writeN 0xFF s.flash (floorAddr (olderCopy s)) (List.replicate 4 0xFF ++ freeBytes 124 s), use := s.use + 128 }
  else
    let s := writeFloor ver (writeSlot bs s)
    let e := s.fuses.epoch
    used (blowEpoch (e + Config.freeNat s.use % (epochOf ver - e + 1)) s)

/-! ## Ends of the functions (R354, UPD_STAT) -/

/-- A VERIFY, ACTIVATE or CONFIRM has ended with a code. -/
def endUpdate (e : Err) (st : UpdStage) (s : State) : State :=
  updFw (fun w => { w with done := true, result := e.code, stage := st, chan := if st = .idle then 0 else w.chan }) s

/-- R356, R359: the reply to the ACTIVATE or CONFIRM that waits. -/
def replyWaiting (e : Err) (s : State) : State :=
  match s.fw.waiting with
  | some m => sendOut s.fw.chan (ilReply m e []) (updFw (fun w => { w with waiting := none }) s)
  | none => s

/-! ## Handover (R356 to R358) -/

/-- R356: the Derku returns to its earlier mode. -/
def hoReturn (s : State) : State :=
  if s.mode.mode = .handover then { s with mode := { s.mode with mode := s.mode.hoFrom } } else s

/-- R357: the handover record, whose body is the firmware's own. -/
def writeRecord (b : Nat) (s : State) : State :=
  let n := Config.freeNat s.use % 6137
  let free := fun (i : Nat) => Config.freeWord (s.use + 1 + i)
  let body := (List.range n).map fun i => free (i + 2)
  let bank := bankOf s s.fw.bank
  let ws := [0x4F485657, BitVec.ofNat 32 (bankWord bank 0x14 % 2 ^ 16 + n * 2 ^ 16), BitVec.ofNat 32 b, BitVec.ofNat 32 (b / 2 ^ 32),
    BitVec.ofNat 32 (bankWord bank 0x0C), BitVec.ofNat 32 (crc32 (wordBytes body)), free 0, free 1] ++ body
  updFw (fun w => { w with hoArea := Memory.writeWs 0 [] 0 ws }) { s with use := s.use + 3 + n }

/-- R356: a mode in which an activation begins. -/
def hoMode (s : State) : Bool := framesRun s || s.mode.mode == .loader || s.mode.mode == .ready || s.mode.mode == .hold

/-- R356 step 1: the handover begins at boundary b. -/
def hoBegin (b : Nat) (s : State) : State :=
  writeRecord b { s with
    mode := { s.mode with hoFrom := s.mode.mode, mode := .handover }
    fw := { s.fw with stage := .handover, actAt := none, handover := some ⟨0, false, false⟩ } }

/-- R345: the tasks of the control cores stop. -/
def stopControl (s : State) : State := stopTasks (fun k => decide (k < 4)) s

/-- R356: whether the old firmware's tasks have ended, so that its record is complete. -/
def recordDone (s : State) : Bool := (List.range 4).all fun k => (schCore s k).run.isNone

/-- R356 steps 2 and 5: the handover ends with a code, in the bank that ran before it. -/
def hoFail (e : Err) (h : Handover) (s : State) : State :=
  let s := updFw (fun w => { w with bank := if h.restarted then 1 - w.bank else w.bank, handover := none }) s
  replyWaiting e (endUpdate e .verified (hoReturn s))

/-- R356 step 4: the new firmware runs on. -/
def hoSucceed (s : State) : State :=
  replyWaiting .ok (endUpdate .ok .trial (hoReturn (updFw (fun w => { w with handover := none, loaderTrial := false }) s)))

/-- R356: one boundary after the handover began. -/
def hoStep (h : Handover) (s : State) : State :=
  if !h.restarted then
    if recordDone s then updFw (fun w => { w with bank := 1 - w.bank, handover := some ⟨1, true, false⟩ }) s else hoFail .busy h s
  else if h.ack then hoSucceed s
  else if 2 ≤ h.count then hoFail .incompat h (stopControl s)
  else updFw (fun w => { w with handover := some { h with count := h.count + 1 } }) s

/-- R358: under the resident loader the image in bank 0 starts. -/
def loaderStart (s : State) : State :=
  replyWaiting .ok (endUpdate .ok .trial
    (updFw (fun w => { w with rom := false, bank := 0, actAt := none, loaderTrial := true }) s))

/-- R356: whether the activation that waits falls on boundary b. -/
def actDue (b : Nat) (s : State) : Bool :=
  match s.fw.actAt with
  | none => false
  | some none => true
  | some (some f) => !framesRun s || decide (f ≤ b)

/-- R356: a boundary: the close of window b, or a millisecond advance in a mode without frames (b = 0). -/
def boundary (b : Nat) (s : State) : State :=
  match s.fw.handover with
  | some h => hoStep h s
  | none =>
    if actDue b s then
      if !s.fw.rom && hoMode s then hoBegin b s else s
    else s

/-- R358: a millisecond advance under the resident loader starts the image that waits, in every mode. -/
def loaderAdvance (s : State) : State :=
  if s.fw.rom && s.fw.handover.isNone && s.fw.actAt.isSome then loaderStart s else s

/-- What a millisecond advance does to an update: the loader's start, and the boundary of a mode without frames. -/
def msBoundary (s : State) : State :=
  let s := loaderAdvance s
  if framesRun s then s else boundary 0 s

/-! ## Control-core restart (R359, R413) -/

/-- R359: a restart in TRIAL starts the old bank, or the loader where there is none. -/
def trialBack (s : State) : State :=
  let s := if s.fw.stage = .confirm then confirmCut s else s
  let b := s.fw.bank
  let s := setBank b [] s
  let s := updFw (fun w => if w.loaderTrial then { w with rom := true, bank := 0, loaderTrial := false } else { w with bank := 1 - b }) s
  replyWaiting .incompat s |> endUpdate .incompat .idle

/-- R80: blocking ends in LOADER with no hood loaded. -/
def loseLoad (s : State) : State :=
  { s with
    mode := { s.mode with mode := .loader }
    hood := none
    block := { s.block with stage := 0, need := false, fifo := [], got := [], head := [], body := none } }

/-- R413: a control-core restart. -/
def coreRestart (s : State) : State :=
  let s := stopControl { s with mode := { s.mode with crst := satInc 255 s.mode.crst } }
  let s := match s.fw.handover with | some h => hoFail .incompat h s | none => s
  let s := if s.fw.stage = .trial ∨ s.fw.stage = .confirm then trialBack s else s
  if s.mode.mode = .load then loseLoad s else s

/-! ## The commands -/

/-- MILLISECOND_TICK (R346, R356, R417): in every mode in which CTRL is powered; `fixes`: single errors corrected in control
SRAM since the last one. -/
def execMillisecondTick (t : Nat) (s : State) (fixes : Nat := 0) : Host.Outcome State Fault Refusal :=
  let s := later t s
  if s.mode.mode = .reset ∨ s.mode.mode = .sleep then .next s
  else .next (msBoundary (millisecond (drainTasks (countSram fixes (pump s)))))

/-- HANDOVER_START (R356): the boundary of a mode without frames at which an activation begins. -/
def execHandoverStart (s : State) : Host.Outcome State Fault Refusal :=
  .next (if s.fw.handover.isNone && !s.fw.rom then msBoundary s else s)

/-- HANDOVER_RESTART (R356): that boundary's successor. -/
def execHandoverRestart (s : State) : Host.Outcome State Fault Refusal :=
  match s.fw.handover with
  | some h => .next (if h.restarted then s else msBoundary s)
  | none => .next s

/-- HANDOVER_ACK (R356): the new firmware has read the record and acknowledges it. -/
def execHandoverAck (s : State) : Host.Outcome State Fault Refusal :=
  match s.fw.handover with
  | some h => .next (if h.restarted then updFw (fun w => { w with handover := some { h with ack := true } }) s else s)
  | none => .next s

/-- HANDOVER_FALLBACK (R356): boundary B+3 of a mode without frames, with no acknowledgement. -/
def execHandoverFallback (s : State) : Host.Outcome State Fault Refusal :=
  match s.fw.handover with
  | some h => .next (if h.restarted && !h.ack && decide (2 ≤ h.count) then msBoundary s else s)
  | none => .next s

/-- LOADER_ACTIVATE (R358): the millisecond advance that starts the image under the resident loader. -/
def execLoaderActivate (s : State) : Host.Outcome State Fault Refusal :=
  .next (if s.fw.handover.isNone && s.fw.rom then msBoundary s else s)

end Sys2Proof.Machine
end

