-- ==== Sys2Proof/Machine/Twins.lean ====
section
/-! DEFINITION. Marks, role changes and changes of holder of a twin pair at window closes (R276, R281 to R291). -/

namespace Sys2Proof.Machine

/-- Change the twin link. -/
def updTwin (f : Twin → Twin) (s : State) : State := { s with twin := f s.twin }

/-- R311: the twin interrupt, where its enable is set. -/
def twinInt (en : Bool) (s : State) : State := if en then raiseInt 9 s else s

/-- R280: the shadow is out of step; the interrupt condition is that OUTSTEP becomes set. -/
def outOfStep (s : State) : State :=
  twinInt (s.twin.misie && !s.twin.outstep) (updTwin (fun w => { w with instep := false, outstep := true }) s)

/-! ## Marks (R276, R281) -/

/-- R281: word 4 of a mark. -/
def markFlags (start stop handoff fault instep lead : Bool) : Word :=
  BitVec.ofNat 32 (place (b2n start) 1 7 + place (b2n stop) 1 6 + place (b2n handoff) 1 5 + place (b2n fault) 1 4 +
    place (b2n instep) 1 3 + place (b2n lead) 1 0)

/-- R281: CRC-32 of link entries; zero when there were none. -/
def entriesCrc (es : List EvRec) : Nat := if es.isEmpty then 0 else crc32 (es.flatMap wordBytes)

/-- R276, R281: the mark sent at the close of window f. -/
def sendMark (f : Nat) (s : State) : State :=
  let w := s.twin
  if w.paired && !w.retired then
    let ecrc := entriesCrc w.entries
    let handoff := w.lead && (match w.swapAt with | some x => f == x + 1 | none => false)
    let fault := w.lead && (match w.yieldAt with | some x => f == x + 1 | none => false)
    { s with twin := { w with
        markOut := [BitVec.ofNat 32 f, BitVec.ofNat 32 w.digest, BitVec.ofNat 32 s.carder.seq, BitVec.ofNat 32 ecrc,
                    markFlags false (w.lead && w.stopReq) handoff fault w.instep w.lead]
        entries := [], linkOut := if w.lead then w.entries else [], seqClose := s.carder.seq, ecrcClose := ecrc
        stopSent := w.stopSent || (w.lead && w.stopReq), stopReq := false } }
  else { s with twin := { w with entries := [] } }

/-- R275: the mark sent at a master tick in paired READY. -/
def readyMark (s : State) : State :=
  let w := s.twin
  if w.paired then
    { s with twin := { w with
        markOut := [BitVec.ofNat 32 s.frame.start, 0, 0, 0, markFlags (w.lead && w.startReq) false false false w.instep w.lead]
        startSent := w.startSent || (w.lead && w.startReq), startReq := false, entries := []
        linkOut := if w.lead then w.entries else [] } }
  else s

/-! ## Window closes -/

/-- R286: a yield under way: FAULT_N falls as F+1 closes; CV outputs change hands and the lead retires as F+2 closes. -/
def yieldClose (f : Nat) (s : State) : State :=
  match s.twin.yieldAt with
  | none => s
  | some x =>
    if f = x + 1 then updTwin (fun w => { w with pull := true, handOver := some ⟨x + 2, false⟩ }) s
    else if f = x + 2 then
      let s := setEff .runShadow s
      let s := updTwin (fun w => { w with
        yielded := true, cause := 1, tkf := f % 2 ^ 32, holder := false, cvHolder := false, retired := true, instep := false
        paired := false, lead := false, pull := false, yieldAt := none, swapAt := none }) s
      twinInt s.twin.tkie s
    else s

/-- R286, R287, R289: the shadow enters RUN as the holder. -/
def takeHolder (f cause : Nat) (ifacesNow : Bool) (s : State) : State :=
  let s := setEff .run s
  let s := updTwin (fun w => { w with
    took := true, cause := cause, tkf := f % 2 ^ 32, paired := false, holder := true, cvHolder := true, pull := true, lead := true
    instep := false, takeNext := none, takeYield := none, shut := false, swapAt := none, tookOver := true
    handOver := if ifacesNow then none else w.handOver }) s
  twinInt s.twin.tkie s

/-- R286, R287: a takeover that falls in the close of window f. -/
def takeClose (f : Nat) (s : State) : State :=
  match s.twin.takeYield with
  | some x => if f = x + 1 then takeHolder f 1 false s else s
  | none => if s.twin.takeNext.isSome then takeHolder f 2 true s else s

/-- R291: the chips exchange roles as window F+2 closes. -/
def exchangeRoles (s : State) : State :=
  let m := effMode s
  let s := updTwin (fun w => { w with lead := !w.lead, shut := false }) s
  setEff (if m = .runLead then .runShadow else .runLead) s

/-- R291: a planned swap at the close of window f; the CV outputs change holder as F+4 closes. -/
def swapClose (f : Nat) (s : State) : State :=
  match s.twin.swapAt with
  | none => s
  | some x =>
    if f = x + 1 then updTwin (fun w => { w with shut := w.shut || w.lead }) s
    else if f = x + 2 then
      let gets := !s.twin.lead
      updTwin (fun w => { w with handOver := some ⟨x + 4, gets⟩ }) (exchangeRoles s)
    else if f = x + 4 then
      let s := updTwin (fun w => { w with
        holder := w.lead, cvHolder := w.lead, took := w.took || w.lead, yielded := w.yielded || !w.lead, cause := 4
        tkf := f % 2 ^ 32, swapAt := none }) s
      twinInt s.twin.tkie s
    else s

/-- What a twin does as window f closes. -/
def twinClose (f : Nat) (s : State) : State :=
  let s := takeClose f (yieldClose f s)
  sendMark f (swapClose f s)

/-! ## Mark loss and FAULT_N (R285, R288) -/

/-- R285: the cycle in which mark loss is detected unless a valid mark arrives. -/
def lossCycle (s : State) : Option Nat := s.twin.markAt.map fun u => u + expiryTime (rateOf s).cycles

/-- R285: no valid mark has arrived by time t. -/
def markLate (s : State) (t : Nat) : Bool :=
  s.twin.paired && (match lossCycle s with | some x => decide (x ≤ t) | none => false)

/-- R285, R287, R311: mark loss: a running shadow prepares a takeover; the lead clears PARTNER. -/
def loseMarks (t : Nat) (s : State) : State :=
  if !markLate s t then s
  else if effMode s = .runShadow then
    if s.twin.takeNext.isSome || s.twin.takeYield.isSome then s
    else logFault 0x0B 0xFF 0 (twinInt (s.twin.tkie && s.twin.partner) (updTwin (fun w => { w with takeNext := lossCycle s, partner := false }) s))
  else if effMode s = .runLead && s.twin.partner then twinInt s.twin.tkie (updTwin (fun w => { w with partner := false }) s)
  else s

/-- R285, R286: a running shadow that has seen FAULT_N low takes the fault frame from its FRAME_CNT; the interfaces change
hands at their frame after next. -/
def yieldSeen (s : State) : State :=
  if s.twin.faultN && s.twin.paired && !s.twin.lead && !s.twin.retired && decide (effMode s = .runShadow) && s.twin.takeYield.isNone then
    let u := updTwin (fun w => { w with takeNext := none, takeYield := some s.frame.cnt, handOver := some ⟨s.frame.cnt + 1, true⟩ }) s
    if s.twin.takeNext.isSome then u else logFault 0x0B 0xFF 0 u
  else s

/-- R288: a lead that sees FAULT_N low without having pulled it releases its outputs and retires. -/
def retireLead (s : State) : State :=
  if s.twin.faultN && s.twin.paired && s.twin.lead && !s.twin.pull then
    let s := logFault 0x0B 0xFF 3 s
    let s := if effMode s = .runLead then setEff .runShadow s else s
    let s := if effMode s = .hold && s.mode.holdFrom = .runLead then { s with mode := { s.mode with holdFrom := .runShadow } } else s
    let s := updTwin (fun w => { w with yielded := true, cause := 3, tkf := s.frame.cnt % 2 ^ 32, lead := false }) (twinRetire s)
    twinInt s.twin.tkie s
  else s

/-- R32: a mode in which the chip that holds them drives its audio outputs; whether it drives test data or zeros does not
matter here. -/
def modeDrives : Mode → Bool
  | .reset | .loader | .load | .sleep => false
  | _ => true

/-- R273: TAKE, and TWIN_STAT.HOLDER: this chip drives the outputs: the holder of a pair, or a chip that stands alone and
has not retired, in a mode in which it drives them (log entry 42). -/
def takes (s : State) : Bool :=
  if s.twin.paired then s.twin.holder else !s.twin.retired && modeDrives (effMode s)

/-- R430: the lanes are in electrical idle: in RESET, and in LOADER until TWIN_CTL is first written. -/
def laneIdle (s : State) : Bool := s.mode.mode == .reset || (s.mode.mode == .loader && !s.twin.written)

/-- R284, R286, R291: this chip drives the audio outputs of an interface whose current frame is numbered m. -/
def holdsIface (w : Twin) (m : Option Nat) : Bool :=
  match w.handOver, m with
  | some h, some k => if h.at_ ≤ k then h.take else !h.take
  | _, _ => w.holder || (!w.paired && !w.retired)

/-- R32, R284: what the audio data outputs of an interface carry whose current frame is numbered m. R32 gives RUN_SHADOW high
impedance, and R286 and R291 let a holder drive until the frame in which an interface changes hands: the chip that is still
the holder after it has entered RUN_SHADOW drives on, its CV outputs too, and no frame is undriven (DESIGN CHOICE between
the two, log entry 41). -/
def audioDrive (s : State) (m : Option Nat) : OutDrive :=
  if !holdsIface s.twin m then .highZ
  else
    match effMode s with
    | .reset => .highZ | .loader => .highZ | .load => .highZ | .sleep => .highZ
    | .ready => .zero | .safe => .zero
    | .service => .test
    | .hold => if s.clocks.muted then .zero else .samples
    | .run => .samples | .runLead => .samples | .runShadow => .samples | .handover => .samples

end Sys2Proof.Machine
end

