-- ==== Sys2Proof/Machine/Tick.lean ====
section
/-! DEFINITION. Ticks: the frame watchdog, the frame tick, held ticks, expiry, relock, run entry, and the commands that
are those (R17 to R23, R249 to R255, R405). -/

namespace Sys2Proof.Machine

/-! ## The close of a window -/

/-- R85: what a slot becomes at the close of window f. -/
def slotEnd (f : Nat) (x : Slot) : Slot :=
  match x.fade with
  | some d => if d.from_ + d.n ≤ f then { x with cur := x.pend, pend := none, fade := none, killed := false } else x
  | none =>
    if x.killed then { x with cur := none, killed := false }
    else match x.cur with | some v => if v.ended then { x with cur := none } else x | none => x

/-- Apply a function to every slot that is listed, keeping the canonical form. -/
def mapSlots (f : Nat → Slot → Slot) (s : State) : State :=
  { s with slots := (Store.keys s.slots).foldl (fun m k => Store.upd Slot.free m k (f k)) s.slots }

/-- R416: the unit named in DOM_RST is held as a window closes. -/
def holdUnit (s : State) : State :=
  let i := s.flt.rstIndex
  let s := { s with flt := { s.flt with restart := .held } }
  if s.flt.rstKind then
    mapSlots (fun k x => if k / 256 = i then { x with cur := none, fade := none, pend := none, killed := false } else x) s
  else
    let s := stopTasks (fun k => k == 4 + i) s
    setEng i (let g := engAt s i
      { g with held := true, phase := if g.phase = .stopped then .stopped else .idle, saved := false, preReq := false, due := false, task := none, xf := none }) s

/-- R416: the unit rejoins. -/
def rejoinUnit (s : State) : State :=
  let s := { s with flt := { s.flt with restart := .none } }
  if s.flt.rstKind then s else setEng s.flt.rstIndex { engAt s s.flt.rstIndex with held := false } s

/-- R416: a domain restart as a window closes. -/
def restartClose (s : State) : State :=
  match s.flt.restart with
  | .asked => holdUnit s
  | .complete => rejoinUnit s
  | _ => s

/-- VC_PEAK: the charges as a window closes. -/
def chargePeaks (s : State) : State :=
  { s with clusters := s.clusters.mapIdx fun c x => { x with peak := max x.peak (chargeOf s c) } }

/-- R177: changes of BUS_MSEL take effect. -/
def meterChanges (s : State) : State :=
  { s with bus := { s.bus with meters := s.bus.meters.map fun m =>
      match m.next with
      | some (en, w, b) => { m with en := en, w := w, bus := b, next := none, peak := 0, ms := 0, clip := 0, sum := 0, count := 0, full := false }
      | none => m } }

/-- R389: the CV codes of the frame before are loaded at time t. -/
def cvLoads (t : Nat) (s : State) : State :=
  { s with cv := { s.cv with chans := s.cv.chans.mapIdx fun c x =>
      if (hcvOf s c).isSome then cvClose (cvBipolar s c && s.flt.vmid) t x else x } }

/-- R234, R235: lengths and delays set in an earlier window are in force. -/
def delayForce (s : State) : State :=
  { s with dly := { s.dly with
      lines := s.dly.lines.map fun kl => (kl.1, kl.2.map fun l => { l with cur := l.len })
      taps := s.dly.taps.map fun kt => (kt.1, kt.2.map fun t => { t with cur := t.d }) } }

/-! ## Alignment groups and numbering (R244, R248) -/

/-- R248: group g starts in frame f. -/
def startGroup (f g : Nat) (s : State) : State :=
  { s with audio := { s.audio with
      grps := updAt s.audio.grps g fun x => { x with started := true, trig := none, gstart := f % 2 ^ 32 }
      saps := s.audio.saps.mapIdx fun p x =>
        match hportOf s p with
        | some h => if h.group = some g then { x with iface := { x.iface with atTick := true } } else x
        | none => x } }

/-- R248: MODE of group g. -/
def grpModeOf (s : State) (g : Nat) : Nat := match s.hood with | some h => h.ports.grpMode.getD g 0 | none => 0

/-- R248: whether group g starts with the frame whose tick entered at t and is seen at t + 2; `opens`: it is the first of a running period. -/
def grpDue (s : State) (t g : Nat) (opens : Bool) : Bool :=
  let x := s.audio.grps.getD g AudGrp.empty
  !x.started && (if grpModeOf s g = 0 then opens else match x.trig with | some u => decide (u < t + 2) | none => false)

/-- R245, R267: the frame under way of a receiver or a PDM group, complete at its start, that has taken its number only now is
stored now; `s`: the state before. -/
def lateCapture (a b : Iface) (cur : List Int) : Iface :=
  match a.num, b.num with | none, some k => if b.stopped then b else b.capture k cur | _, _ => b
def capturedLate (s r : State) : State :=
  { r with audio := { r.audio with
      rx := r.audio.rx.mapIdx fun i x => if x.lock then { x with iface := lateCapture (rxAt s i).iface x.iface x.cur } else x
      pdm := r.audio.pdm.mapIdx fun k x => if x.stopped then x else { x with iface := lateCapture (pdmAt s k).iface x.iface x.cur } } }

/-- R244, R248: group starts, fixings and checks at frame f, whose tick is at t. `fresh`: every numbering is to be fixed. -/
def numberings (f t : Nat) (opens fresh : Bool) (s : State) : State :=
  let s := (List.range 4).foldl (fun s g => if grpDue s t g opens then startGroup f g s else s) s
  let s := if fresh then onIfaces (fun i => { i with atTick := true }) s else s
  capturedLate s (onIfaces (Iface.tick (rateOf s).cycles f t) s)

/-! ## Step 4 (R17, R160) -/

/-- What the voices of a group read besides their own state. -/
def voiceCtx (s : State) (h : Hood) (g : Nat) : VCtx :=
  let gr := s.groups[g]?
  { frame := s.frame.cnt, base := (rateOf s).base, bus := s.bus.val
    bp := match gr with | some x => x.bp | none => 0
    glfo := match gr with | some x => x.lfo.map (·.st.out) | none => []
    gctl := match gr with | some x => x.gctl | none => []
    curves := h.curves, shapers := h.shapers
    sets := h.place.filterMap fun kp => kp.2.map fun p => (kp.1, some p.set) }

/-- The lines a voice's first frame reads and that its start buffer or steal fetch does not hold (PHRAND with a deferral,
a VOICE_SET in the first frame's window) are fetched and there at once: whether they would miss is not stated (DESIGN
CHOICE, log entry 79). -/
def topUp (s : State) (t : Template) (v : Voice) : Voice :=
  let rb := regBases s t v.zone
  let v' := voiceInit (rateOf s).base t v
  { v' with osc := v'.osc.mapIdx fun n o =>
      fetchOsc s.dram (t.osc.getD n []) ((t.zones.getD v.zone []).getD n []) (rb.getD n 0) { o with planes := (v.osc.getD n o).planes } }

/-- That, for the voice of slot i if the frame is its first. -/
def topUpSlot (s : State) (i : Nat) : State :=
  let x := slotAt s i
  match x.cur with
  | some v =>
    (match templateOf s v.group with
     | some t => if v.first = s.frame.cnt ∧ !x.killed ∧ clusterServes s (i / 256) then setSlot i { x with cur := some (topUp s t v) } s else s
     | none => s)
  | none => s

/-! ## Lines that arrive, or do not (R126 to R131) -/

/-- A line buffer of a list of planes for each oscillator. -/
def lineIn (b : StartBuf) (l : LineAt) : Option Line :=
  match b[l.osc.toNat]? with
  | some o => (match o[l.plane.toNat]? with | some p => p[l.line.toNat]? | none => none)
  | none => none

/-- Set the state of a line buffer among the planes of an oscillator. -/
def setPlane (l : LineAt) (st : LineStat) (ps : List (List Line)) : List (List Line) :=
  updAt ps l.plane.toNat fun p => updAt p l.line.toNat fun x => { x with stat := st }

/-- Line buffers of a voice. -/
def voiceLines (v : Voice) : StartBuf := v.osc.map (·.planes)
def setLine (l : LineAt) (st : LineStat) (v : Voice) : Voice :=
  { v with osc := updAt v.osc l.osc.toNat fun o => { o with planes := setPlane l st o.planes } }

/-- The line buffer that a command names. -/
def ownedLine (s : State) (o : LineOwner) (l : LineAt) : Option Line :=
  match o with
  | .cur i => (slotAt s i.toNat).cur.bind fun v => lineIn (voiceLines v) l
  | .pend i => (slotAt s i.toNat).pend.bind fun v => lineIn (voiceLines v) l
  | .start n => (s.carder.store.find? fun e => e.seq == n).bind fun e => e.sbuf.bind fun b => lineIn b l

/-- Set its state. -/
def markLine (o : LineOwner) (l : LineAt) (st : LineStat) (s : State) : State :=
  match o with
  | .cur i => let x := slotAt s i.toNat; setSlot i.toNat { x with cur := x.cur.map (setLine l st) } s
  | .pend i => let x := slotAt s i.toNat; setSlot i.toNat { x with pend := x.pend.map (setLine l st) } s
  | .start n =>
    { s with carder := { s.carder with store := s.carder.store.map fun e =>
        if e.seq = n then { e with sbuf := e.sbuf.map fun b => updAt b l.osc.toNat (setPlane l st) } else e } }

/-- Whether a fetch into the line buffer is issued and has not arrived; `late`: or is late. -/
def lineWaits (s : State) (o : LineOwner) (l : LineAt) (late : Bool) : Bool :=
  match ownedLine s o l with | some x => x.stat == .inflight || (late && x.stat == .late) | none => false

/-- The cluster whose counters and faults the line concerns: none for a start buffer. -/
def ownerUnit (o : LineOwner) : Nat := match o with | .cur i => i.toNat / 256 | .pend i => i.toNat / 256 | .start _ => 0xFF
def countLine (o : LineOwner) (f : Cluster → Cluster) (s : State) : State :=
  match o with | .start _ => s | _ => updCluster (ownerUnit o) f s

/-- R130: a line misses its deadline; a start buffer's line counts when it becomes a slot's. -/
def lineLate (o : LineOwner) (l : LineAt) (s : State) : State :=
  if lineWaits s o l false then
    let s := markLine o l .late s
    match o with
    | .start _ => s
    | _ => raiseFault 2 (ownerUnit o) (countLine o (fun c => { c with late := satInc 255 c.late }) s)
  else s

/-- R130: what an error given with a tick says of the frame that begins. -/
def missLine (s : State) : FrameErr → State
  | .line i l => lineLate (.cur i) l s
  | _ => s

/-- R160, R171, R105: the voice-sample of slot i. -/
def slotSample (h : Hood) (s : State) (i : Nat) : State :=
  let x := slotAt s i
  match x.cur with
  | none => s
  | some v =>
    if x.killed || !clusterServes s (i / 256) then s
    else
      match templateOf s v.group with
      | none => s
      | some t =>
        let f := s.frame.cnt
        let fade := x.fade.map fun d => fadeGain d.n (f - d.from_)
        let r := voiceSample (voiceCtx s h v.group) s.dram t (regBases s t v.zone) fade v
        -- R128: the pending note's first lines are fetched after the victim's last voice-sample
        let last := match x.fade with | some d => d.from_ + d.n == f + 1 | none => false
        let pend := if last then x.pend.map fun p => (match templateOf s p.group with | some pt => withLines s pt (firstLines s pt p) p | none => p) else x.pend
        let s := setSlot i { x with cur := some r.voice, pend := pend } s
        let s := r.sends.foldl (fun s bv => addBus bv.1 bv.2 s) s
        updCluster (i / 256) (fun c => { c with
          osat := c.osat || r.flags.osat, fsat := c.fsat || r.flags.fsat, wsat := c.wsat || r.flags.wsat, msat := c.msat || r.flags.msat
          evict := satAdd 255 c.evict r.evict }) s

/-- R126, R130: the lines that the voices of the frame read are at hand, but for those that `errs` says have not arrived. -/
def firstReads (errs : List FrameErr) (s : State) : State := errs.foldl missLine ((Store.keys s.slots).foldl topUpSlot s)

/-- R150: the group LFOs of the frame as voices read them, then every voice. BP of the frame is the one before it advances. -/
def stepFour (s : State) : State :=
  match s.hood with
  | none => s
  | some h =>
    let after := s.groups.map (groupLfos (rateOf s).base)
    -- a voice reads BP as it stands before it advances
    let s := { s with groups := (after.zip s.groups).map fun (x : Group × Group) => { x.1 with bp := x.2.bp } }
    let s := (Store.keys s.slots).foldl (slotSample h) s
    { s with groups := (s.groups.zip after).map fun (x : Group × Group) => { x.1 with bp := x.2.bp }, engines := s.engines.map engTick }

/-! ## The frame tick -/

/-- R33, R150, R183: the first frame of a running period. -/
def openPeriod (f : Nat) (s : State) : State :=
  { s with
    frame := { s.frame with first := f, ran := true }
    twin := { s.twin with digest := 0, digestF := f - 1 }
    engines := s.engines.map fun g => { g with smp := RegBank.zero }
    groups := match s.hood with | some h => (s.groups.zip h.groups).map fun x => groupStart x.2 x.1 | none => s.groups }

/-- The tick of the next frame entered the synchroniser at t and its window closes at time c: what takes place before the events
of the window. -/
def openFrame (t c : Nat) (s : State) : State :=
  let f := openWindow s
  let opens := !s.frame.ran
  let s := { s with engines := s.engines.map xfClose }
  let s := if opens then openPeriod f s else cvLoads c s
  let s := { s with
    now := max s.now c
    frame := { s.frame with cnt := f, open_ := true, tickAt := c - 2 }
    clocks := { s.clocks with tick := some (f, t), prev := if opens then none else s.clocks.tick, heldAt := none } }
  let s := if opens then { s with twin := { s.twin with markAt := some t } } else s
  restartClose (mapSlots (fun _ => slotEnd f) (delayForce s))

/-- The tick of frame f entered the synchroniser at t; its window closes at time c, and steps 2 to 4 take place. -/
def startFrame (t c : Nat) (fresh : Bool) (errs : List FrameErr) (s : State) : State :=
  let f := openWindow s
  let opens := !s.frame.ran
  let s := chargePeaks (closeEvents f (openFrame t c s))
  let s := meterChanges s
  let s := boundary f (twinClose f s)
  let s := numberings f t opens (opens || fresh) s
  stepFour (firstReads errs (advanceList false s))

/-- R405, R276: whether the window that closes now ends the running period. -/
def leaves (s : State) : Bool := s.mode.stop || s.twin.stopSent || (s.twin.stopRx && decide (effMode s = .runShadow))

/-- R36, R177, R405, R416: at the close of a window, the Derku leaves for READY; the last frame's CV codes are loaded (log
entry 8). -/
def leaveAt (c : Nat) (s : State) : State :=
  let s := { s with now := max s.now c }
  enterReady (meterChanges (restartClose (if s.frame.ran then cvLoads c s else s)))

/-- The close of a window at time c, for a tick at t: the period ends, or the next frame starts; `errs`: what was given with the
tick. -/
def closeWindow (t c : Nat) (fresh : Bool) (errs : List FrameErr) (s : State) : State :=
  if framesRun s then (if leaves s then leaveAt c s else startFrame t c fresh errs s) else s

/-- An accepted tick that is not held. A fault among the errors seen in the frame is detected before what the carder still
accepts in it (R286; log entry 17). -/
def frameTick (t c : Nat) (errs : List FrameErr) (s : State) : State :=
  closeWindow t c false errs (drain c (finishFrame errs s))

/-! ## The watchdog (R249 to R252) -/

/-- R22: the latest cycle in which step 5 of a frame completes. -/
def stepFiveBound (r : Rate) : Nat := max (94 + 60 * r.voices) (266 + r.limit) + 16

/-- R23: whether a tick at t comes before step 5 of the frame under way has completed. -/
def tooEarly (t : Nat) (s : State) : Bool :=
  s.frame.open_ && decide (t < s.frame.tickAt + stepFiveBound (rateOf s)) && decide (t < s.frame.tickAt + Config.stepFiveCycle s.frame.cnt)

/-- R23: a held tick starts its frame at time c, in the cycle after step 5. -/
def startHeld (c : Nat) (s : State) : State :=
  match s.clocks.heldAt with
  | none => s
  | some t => frameTick t c [] { s with clocks := { s.clocks with heldAt := none } }

/-- Measure a tick of domain d. -/
def measure (d t : Nat) (s : State) : State :=
  if s.hood.isSome then updDom d (Domain.tick (domCycles s d) t) s else s

/-- R249: whether a tick at t is a glitch against the last accepted tick. -/
def isGlitch (t : Nat) (s : State) : Bool :=
  match s.clocks.acc with | some a => decide (t < a + glitchTime (rateOf s).cycles) | none => false

/-- R249: count a glitch. -/
def countGlitch (s : State) : State := { s with clocks := { s.clocks with glitch := satInc 255 s.clocks.glitch } }

/-- R250: consecutive inconsistent intervals, with the one that a tick at t ends. -/
def badRun (t : Nat) (s : State) : Nat :=
  match s.clocks.acc with | some a => if consistent (rateOf s).cycles (t - a) then 0 else s.clocks.bad + 1 | none => 0

/-- R250: the sixteenth inconsistent interval in a row. -/
def rateHold (t : Nat) (s : State) : State :=
  let s := clockFault s.clocks.src (raiseInt 7 { s with clocks := { s.clocks with rateF := true, rateN := satInc 255 s.clocks.rateN } })
  enterHold (t + 2) s

/-- R249, R250, R23: a tick of the domain that gives the ticks, in a running mode, before expiry. -/
def runTick (t : Nat) (errs : List FrameErr) (s : State) : State :=
  if isGlitch t s then countGlitch s
  else
    let s := match s.clocks.heldAt with | some _ => startHeld t s | none => s
    let bad := badRun t s
    let early := tooEarly t s
    let s1 := measure s.clocks.src t { s with clocks := { s.clocks with bad := bad } }
    if bad = 16 then rateHold t (if early then s1 else finishFrame errs s1)
    else if early then
      { s1 with clocks := { s1.clocks with acc := some t, heldAt := some t, held := satInc 255 s1.clocks.held } }
    else
      let s2 := frameTick t (t + 2) errs s1
      if framesRun s2 then { s2 with clocks := { s2.clocks with acc := some t } } else s2

/-- The expiry cycle, counted like every cycle of R22 from the one in which the last accepted tick entered the
synchroniser (DEDUCED, log entry 80). -/
def expiryAt (s : State) : Option Nat := s.clocks.acc.map fun a => a + expiryTime (rateOf s).cycles

/-- R251, R252: the watchdog expires at time t. -/
def expire (t : Nat) (s : State) : State :=
  let s := finishFrame [] (startHeld t s)
  if !framesRun s then s
  else
    let s := raiseInt 7 { s with clocks := { s.clocks with lossF := true, loss := satInc 255 s.clocks.loss } }
    let s := clockFault s.clocks.src s
    match (match s.hood with | some h => h.clocks.backup | none => none) with
    | some b =>
      if !s.clocks.switched && decide (16 ≤ (domAt s b).run) then
        { s with det := { s.det with hold := true }
                 clocks := { s.clocks with src := b, onBackup := true, switched := true, acc := (domAt s b).last } }
      else enterHold t s
    | none => enterHold t s

/-- R251: the expiry that a time t has passed takes place first. -/
def forceExpiry (t : Nat) (s : State) : State :=
  if framesRun s then (match expiryAt s with | some x => if x ≤ t then expire x s else s | none => s) else s

/-! ## READY and HOLD -/

/-- R405, R276, R64: the mode that a run entry at a tick gives. -/
def runMode (s : State) : Mode := if s.twin.paired then (if s.twin.lead then .runLead else .runShadow) else .run

/-- R405: a running mode is entered at the tick at t, and its first frame starts. -/
def enterRun (t : Nat) (errs : List FrameErr) (s : State) : State :=
  let s := setEff (runMode s) s
  let s := { s with
    mode := { s.mode with pend := none }
    det := { s.det with void_ := false }
    twin := { s.twin with hasRun := true, startReq := false, startSent := false, startRx := false }
    clocks := { s.clocks with acc := some t, bad := 0 } }
  closeWindow t (t + 2) true errs (drain (t + 2) s)

/-- R308: a window write is in progress. -/
def windowWriting (s : State) : Bool := s.host.wins.any fun w => w.busy && bitAt w.job 30

/-- R405, R276, R308: whether the tick at t is the one that enters the running mode. -/
def runDue (t : Nat) (s : State) : Bool :=
  !windowWriting s &&
  if s.twin.paired then (if s.twin.lead then s.twin.startSent else s.twin.startRx)
  else match s.mode.pend with | some p => decide (p < t + 2) | none => false

/-- A tick of the master domain in READY. -/
def readyTick (t : Nat) (errs : List FrameErr) (s : State) : State :=
  if runDue t s then enterRun t errs s
  else readyMark { s with clocks := { s.clocks with acc := some t } }

/-- R255: the candidates for relock. -/
def candidate (s : State) (d : Nat) : Bool :=
  match s.hood with | some h => d == h.clocks.master || h.clocks.backup == some d | none => false

/-- R255: of two candidates that complete in one cycle the master is taken: the tick at t of the master completes its
intervals, and the backup's tick of the same t has just started the frame. -/
def relockTie (d t : Nat) (s : State) : Bool :=
  s.clocks.relockAt == some t && s.clocks.onBackup && (match s.hood with | some h => d == h.clocks.master | none => false) &&
    decide (256 ≤ (domAt (measure d t s) d).relock)

/-- R255: the master gives the ticks in the backup's place. -/
def relockMaster (d t : Nat) (s : State) : State :=
  let s := measure d t s
  { s with clocks := { s.clocks with src := d, onBackup := false } }

/-- R255: relock on domain d with the tick at t. -/
def relock (d t : Nat) (s : State) : State :=
  let s := finishFrame [] s
  let m := match s.hood with | some h => h.clocks.master | none => 0
  let s := raiseInt 7 (setEff s.mode.holdFrom s)
  let s := { s with
    clocks := { s.clocks with src := d, onBackup := d != m, acc := some t, bad := 0, relockAt := some t }
    twin := { s.twin with markAt := some t } }
  closeWindow t (t + 2) true [] (drain (t + 2) (yieldSeen s))

/-- R255: a tick of domain d in HOLD. -/
def holdTick (d t : Nat) (s : State) : State :=
  let n := (rateOf s).cycles
  let early := match (domAt s d).last with | some l => decide (t < l + glitchTime n) | none => false
  if candidate s d && early then countGlitch s
  else
    let s := measure d t s
    if candidate s d && decide (256 ≤ (domAt s d).relock) then relock d t s else s

/-! ## Timer source edges (R362, R363, R369) -/

/-- R367: the modes in which auto-add applies. -/
def autoMode (m : Mode) : Bool := m == .loader || m == .ready || m == .safe || m == .service

/-- R369: timer n offers its template at a wrap. -/
def timerOffers (s : State) (n : Nat) : Bool := (timerTemplate s n).isSome && effMode s != .runShadow

/-- R363: timer n counts a source edge. -/
def countEdge (n : Nat) (s : State) : State := updTimer n (timerEdge (autoMode s.mode.mode) (timerOffers s n)) s

/-- R363, R369: a source edge of timer n; what it offers, the carder accepts as soon as it can, after what it could by now. -/
def sourceEdge (n : Nat) (s : State) : State :=
  if ctrlOn s then
    let u := countEdge n s
    if (timerAt u n).offer then offerTimer n (countEdge n (pump s)) else u
  else s

/-- R238, R259: the source of domain d gives a tick at t: a ball at any time, a port with its frame start, a receiver while it is
locked with the start of its frame. -/
def tickReal (s : State) (d t : Nat) : Bool :=
  match s.hood with
  | some h =>
    let i := h.clocks.index.getD d 0
    (match h.clocks.kind.getD d 0 with
     | 1 => (sapAt s i).iface.s0 == some t
     | 2 => (rxAt s i).lock && (rxAt s i).iface.s0 == some t
     | _ => true)
  | none => true

/-- R362: a tick of domain d is a source edge of the timers that select it, while frames run as the tick is seen. -/
def domTimers (d : Nat) (s : State) : State :=
  if framesRun s then
    (List.range 8).foldl (fun s n => if (timerAt s n).src = 2 ∧ (timerAt s n).dom = d then sourceEdge n s else s) s
  else s

/-! ## Ticks by mode -/

/-- A tick of the domain that gives the ticks. -/
def srcTick (t : Nat) (errs : List FrameErr) (s : State) : State :=
  if framesRun s then runTick t errs s
  else if effMode s = .hold then holdTick s.clocks.src t s
  else if effMode s = .ready then (if isGlitch t s then countGlitch s else readyTick t errs (measure s.clocks.src t s))
  else measure s.clocks.src t s

/-- A tick of domain d. A tick of a domain that has been found to give the ticks is a frame tick; one that the domain's source does
not give is none. -/
def anyTick (d t : Nat) (errs : List FrameErr) (s : State) : State :=
  -- R251, R287: what the cycle in which the tick is seen, and the one before it, bring comes first
  let own := decide (d = s.clocks.src)
  let s := retireLead (loseMarks (if own then t + 1 else t) (asrcForce t (later t (forceExpiry (t + 2) s))))
  if s.mode.mode = .reset ∨ s.mode.mode = .sleep ∨ tickReal s d t = false then s
  else
  let s := domTimers d (if framesRun s then s else drain t s)
  if relockTie d t s then relockMaster d t s
  else if d = s.clocks.src then srcTick t errs s
  else if effMode s = .hold then holdTick d t s
  else measure d t s

/-! ## The commands -/

/-- MASTER_TICK (R249): a tick of the domain that gives the ticks. -/
def execMasterTick (t : Nat) (errs : List FrameErr) (s : State) : Host.Outcome State Fault Refusal :=
  .next (anyTick s.clocks.src t errs s)

/-- DOMAIN_TICK (R238). -/
def execDomainTick (d : BitVec 2) (t : Nat) (s : State) : Host.Outcome State Fault Refusal := .next (anyTick d.toNat t [] s)

/-- HELD_TICK_START (R23): the held tick starts its frame at time t. -/
def execHeldTickStart (t : Nat) (s : State) : Host.Outcome State Fault Refusal :=
  if framesRun s then .next (startHeld t (later t s)) else .next (later t s)

/-- WATCHDOG_EXPIRY (R251): time t has come without a tick. -/
def execWatchdogExpiry (t : Nat) (s : State) : Host.Outcome State Fault Refusal := .next (later t (forceExpiry t s))

/-- R254: the outputs of HOLD carry zero from 8N cycles after its entry. -/
def muteHold (t : Nat) (s : State) : State :=
  if effMode s = .hold ∧ !s.clocks.muted ∧ s.clocks.holdAt + 8 * (rateOf s).cycles ≤ t then
    onIfaces (fun i => { i with shifted := i.shifted.map fun _ => 0, fill := true }) { s with clocks := { s.clocks with muted := true } }
  else s

/-- HOLD_OUTPUT_MUTE (R254). -/
def execHoldOutputMute (t : Nat) (s : State) : Host.Outcome State Fault Refusal := .next (muteHold t (later t s))

/-- RELOCK (R255): a tick of candidate d, which ends its 256th consistent interval. -/
def execRelock (d : BitVec 2) (t : Nat) (s : State) : Host.Outcome State Fault Refusal := .next (anyTick d.toNat t [] s)

/-- RUN_ENTRY (R405): the master tick that enters the running mode. -/
def execRunEntry (t : Nat) (s : State) : Host.Outcome State Fault Refusal := .next (anyTick s.clocks.src t [] s)

/-- LEAVE_RUNNING_MODE (R37): the tick whose window close ends the running period. -/
def execLeaveRunningMode (t : Nat) (s : State) : Host.Outcome State Fault Refusal := .next (anyTick s.clocks.src t [] s)

/-- TAKEOVER (R287): the master tick at whose window close the shadow takes over. -/
def execTakeover (t : Nat) (s : State) : Host.Outcome State Fault Refusal := .next (anyTick s.clocks.src t [] s)

/-- GROUP_START (R248): a group whose frame F_s has started fixes its numbering. -/
def execGroupStart (g : BitVec 2) (s : State) : Host.Outcome State Fault Refusal :=
  match s.clocks.tick with
  | some (f, t) =>
    if framesRun s && grpDue s t g.toNat (f == s.frame.first) then
      .next (onIfaces (fun i => if i.atTick then i.tick (rateOf s).cycles f t else i) (startGroup f g.toNat s))
    else .next s
  | none => .next s

/-- STEAL_FADE_END (R85): the last frame of a slot's fade has been computed. -/
def execStealFadeEnd (slot : BitVec 11) (s : State) : Host.Outcome State Fault Refusal :=
  let i := slot.toNat
  match (slotAt s i).fade with
  | some d => .next (if framesRun s && decide (d.from_ + d.n ≤ s.frame.cnt + 1) then setSlot i (slotEnd (s.frame.cnt + 1) (slotAt s i)) s else s)
  | none => .next s

/-- CROSSFADE_END (R228): the last frame of an engine's crossfade has been computed. -/
def execCrossfadeEnd (e : BitVec 4) (s : State) : Host.Outcome State Fault Refusal :=
  match (engAt s e.toNat).xf with
  | some x =>
    if x.k + 1 = 2 ^ x.logn then
      let s := if s.frame.open_ then finishEngine [] e.toNat s else s
      .next (setEng e.toNat (xfClose (engAt s e.toNat)) s)
    else .next s
  | none => .next s

/-- METER_WINDOW_END (R177). -/
def execMeterWindowEnd (m : BitVec 4) (s : State) : Host.Outcome State Fault Refusal :=
  .next { s with bus := { s.bus with meters := updAt s.bus.meters m.toNat meterEnd } }

end Sys2Proof.Machine
end

