-- ==== Sys2Proof/Machine/Modes.lean ====
section
/-! DEFINITION. Mode requests, domain restarts, the state a hood sets up, resets, SLEEP and wake (R79, R400 to R416). -/

namespace Sys2Proof.Machine

/-! ## The units that blocking configures (R74, R79) -/

/-- Those units at their reset values, with nothing held by the carder; FRAME_START, trims and readings stay. -/
def unitsReset (s : State) : State :=
  { s with
    frame := { s.frame with open_ := false, ran := false }
    carder := { s.carder with store := [], sets := List.replicate 15 [], seq := 0, wait := [] }
    det := Det.empty
    regions := [], slots := [], groups := [], clusters := List.replicate 8 Cluster.empty, bus := BusSt.empty
    engines := List.replicate 16 Engine.empty, dly := Delay.empty, clocks := Clocks.empty, audio := AudioSt.empty
    twin := { Twin.reset s.twin.strap with linkup := s.twin.linkup, faultN := s.twin.faultN, written := s.twin.written }
    rings := List.replicate 64 Ring.empty, sched := Sched.empty
    timers := List.replicate 8 Timer.empty, uarts := List.replicate 4 Uart.empty
    cv := { CvSt.empty with trim := s.cv.trim, mon := s.cv.mon }
    flt := { s.flt with restart := .none } }

/-- R79, R178, R179: an engine as its FULCODE and FULDATA give it. -/
def engInstall (h : HEngine) : Engine :=
  { Engine.empty with on := true, imem := h.imem, x := h.x, ya := h.ya, yb := h.yb, slen := h.slen, xb := h.xb, bgen := h.bgen }

/-- Engine e of a hood. -/
def engOfHood (s : State) (h : Hood) (e : Nat) : Engine :=
  if e < s.part.engines ∧ bitAt h.units.engines e then
    match Store.get none h.engines e with | some x => engInstall x | none => { Engine.empty with on := true }
  else Engine.empty

/-- R340: the descriptors of the engines' background tasks, in order of engine and then of task. -/
def engDescs (h : Hood) : List Desc :=
  h.engines.flatMap fun ke => match ke.2 with
    | some x => x.tasks.map fun t =>
        { Desc.free with state := .idle, prio := t.prio, tick := t.tick, host := t.host, ful := true, eng := ke.1, entry := t.entry }
    | none => []

/-- R340: the descriptors that the running firmware allocates. -/
def fwDescs (s : State) : List Desc :=
  (Config.firmwareTasks (BitVec.ofNat 32 (fwVersion s))).map fun t =>
    { Desc.free with state := .idle, cmask := t.1 % 16, prio := t.2.1 % 32, tick := t.2.2.1, host := t.2.2.2 }

/-- R340: the descriptors after blocking. -/
def blockDescs (s : State) (h : Hood) : Store Desc := Store.setRange Desc.free [] 0 ((engDescs h ++ fwDescs s).take 1024)

/-- R361, R381, R382, R410: firmware configures a UART that the hood has claimed; frame mode needs both rings (R376). -/
def claimUart (rx tx : Bool) (k : Option Claim) (a : Uart) : Uart :=
  match k with
  | some (.midi _) => Uart.forMidi
  | some (.dmx _) => if rx && tx then Uart.forDmx else a
  | none => a

/-- R79, R183, R270: the state on entry into READY after blocking or a wake, for the hood installed; a synchronising reset of every
PDM group is triggered. -/
def install (h : Hood) (s : State) : State :=
  let s := { unitsReset s with hood := some h }
  { s with
    uarts := s.uarts.mapIdx fun u a => claimUart (rxRing s u).isSome (txRing s u).isSome (Store.get none h.evmap.uarts u) a
    groups := h.groups.map groupInit
    engines := (List.range 16).map (engOfHood s h)
    dly := delayBack h s.dly
    clocks := { s.clocks with src := h.clocks.master }
    audio := { s.audio with
      tx := s.audio.tx.mapIdx fun x a => match Store.get none h.ports.tx x with | some p => { a with crcgen := p.crcgen, cs := p.cs } | none => a
      pdm := s.audio.pdm.mapIdx fun k g => match Store.get none h.ports.pdm k with
        | some p => { g with bank0 := pdmBank p p.bank0, bank1 := pdmBank p p.bank1, srst := true }
        | none => g
      since := s.now }
    sched := { s.sched with descs := blockDescs s h }
    cv := { s.cv with chans := s.cv.chans.mapIdx fun c x => match Store.get none h.cv c with | some e => Cv.init e | none => x }
    mode := { s.mode with mode := .ready, pend := none, rest := false, stop := false } }

/-! ## Domain restarts (R416) -/

/-- R416: what a restart is refused for, in the order of R15; HANDOVER is none of its modes. -/
def restartConds (s : State) (cluster : Bool) (i : Nat) (rsvd : Bool) : List (Bool × Err) :=
  let m := s.mode.mode
  [(if cluster then decide (i < 8) && !clusterOn s i else !engineOn s i, .absent),
   (!(m == .ready || m == .run || m == .runLead || m == .runShadow || m == .hold || m == .safe) || s.twin.paired || !dramOn s, .mode),
   (rsvd, .rsvd), (cluster && decide (7 < i), .range), (s.flt.restart != .none, .busy)]

/-- R416: a restart begins; in a mode without window closes the unit is held at once. -/
def restartBegin (cluster : Bool) (i : Nat) (s : State) : State :=
  let s := { s with flt := { s.flt with rstKind := cluster, rstIndex := i, restart := .asked } }
  if framesRun s then detFault s else holdUnit s

/-- R416: an engine reloaded from the hood copy: its registers and FUL_FLT are zero; the background region of X stays. -/
def engReload (h : HEngine) (g : Engine) : Engine :=
  let r := engRestore h g
  { r with
    imem := h.imem, smp := RegBank.zero, bg := RegBank.zero, lc := 0, ls := 0, le := 0, rc := 0, st := 0, pc := 0
    saveLc := 0, saveLs := 0, saveLe := 0, aOld := List.replicate 4 0, stOld := 0, late := [], br := none, phase := .idle
    preReq := false, due := false, saved := false, task := none, fltCode := 0, fltFrame := 0, fltPc := 0, xf := none }

/-- Reload engine e, where there is a hood. -/
def reloadEngine (e : Nat) (s : State) : State :=
  match hengOf s e with
  | some h => setEng e (engReload h (engAt s e)) s
  | none => s

/-- R416: the unit that is held has been reloaded. -/
def restartReload (s : State) : State :=
  let i := s.flt.rstIndex
  if s.flt.rstKind then updCluster i (fun c => { c with stopped := false }) s else reloadEngine i s

/-- R416: the reload completes; the unit rejoins at the next window close, or at once in a mode without them. -/
def restartDone (s : State) : State :=
  if s.flt.restart = .held then
    let s := restartReload s
    let s := { s with flt := { s.flt with restart := .complete } }
    if framesRun s then s else rejoinUnit s
  else s

/-- DOMAIN_RESTART_COMPLETE (R416). -/
def execDomainRestartComplete (s : State) : Host.Outcome State Fault Refusal := .next (restartDone s)

/-- R404: on leaving SAFE, what a fault stopped is restarted where there is a hood copy. -/
def restartStopped (s : State) : State :=
  if dramOn s then
    let s := (List.range 16).foldl (fun s e => if (engAt s e).phase = .stopped then reloadEngine e s else s) s
    { s with clusters := s.clusters.map fun c => { c with stopped := false } }
  else s

/-! ## Mode requests (R405) -/

/-- R421, R402: FLT_STAT.ACTIVE holds a condition. -/
def faultActive (s : State) : Bool := s.flt.thermal || s.flt.power != 0

/-- R405: in LOAD and HANDOVER every request is refused with E_BUSY. -/
def requestsBusy (s : State) : Bool := s.mode.mode == .load || s.mode.mode == .handover

/-- R405: a paired shadow that is not retired. -/
def pairedShadow (s : State) : Bool := s.twin.paired && !s.twin.lead

/-- R405: what a request is refused for, outside LOAD and HANDOVER. -/
def requestConds (s : State) (req : Nat) : List (Bool × Err) :=
  let m := s.mode.mode
  match req with
  | 1 => [(m != .ready || pairedShadow s || (s.twin.hasRun && !dramOn s), .mode), (s.mode.rest || s.mode.pend.isSome, .busy)]
  | 2 => [(!(inPeriod s || (m == .ready && s.mode.pend.isSome)) || pairedShadow s, .mode)]
  | 3 => [(!(m == .loader || m == .ready) || s.twin.paired, .mode), ((s.host.wins.any fun w => w.busy) || s.fw.stage != .idle, .busy)]
  | 4 => [(m != .ready || s.twin.paired, .mode)]
  | 5 => [(!(m == .safe || m == .service), .mode), (faultActive s, .busy)]
  | _ => [(true, .rsvd)]

/-- R405: the code of a mode request. -/
def requestErr (s : State) (req : Nat) : Err :=
  if requestsBusy s && decide (1 ≤ req) && decide (req ≤ 5) then .busy else Err.first (requestConds s req)

/-- R405, R276: a RUN is accepted. -/
def runAccept (s : State) : State :=
  { s with mode := { s.mode with pend := some s.now }, twin := { s.twin with startReq := s.twin.startReq || s.twin.paired } }

/-- R405, R276: a STOP is accepted. -/
def stopAccept (s : State) : State :=
  if s.mode.mode = .ready then
    { s with mode := { s.mode with pend := none }, twin := { s.twin with startReq := false, startSent := false } }
  else if effMode s = .hold then enterReady s
  else if s.twin.paired then updTwin (fun w => { w with stopReq := true }) s
  else { s with mode := { s.mode with stop := true } }

/-- R334: the CTRL domain is reset or powered down. -/
def loseMailboxes (s : State) : State :=
  { s with mbx := s.mbx.map mbxLose, fw := { s.fw with reqs := [], outs := [] } }

/-- R318: the bytes of a code bank. -/
def codeBytes (m : Memory) : List Byte := Memory.readN 0 m 0 (128 * 1024)

/-- R406, R408: SLEEP is entered, the engines stop (R200). Without DRAM in use its contents are lost. R408 does not say where
beside the hood copy the code copy lies: it is held apart from the DRAM bytes (DESIGN CHOICE, log entry 59). -/
def enterSleep (s : State) : State :=
  let keep := decide (s.mode.mode = .ready) && dramOn s
  let code := if s.fw.bank = 0 then s.fw.bank0 else s.fw.bank1
  let s := stopEngines (loseMailboxes s)
  { s with
    mode := { s.mode with
      mode := .sleep, pend := none, rest := false, wakeAt := none, hoodCopy := keep
      codeCopy := if keep then some code else none
      codeDigest := if keep then sha256 (codeBytes code) else [] }
    dram := if dramOn s then s.dram else [] }

/-- R200, R405: SERVICE is entered. -/
def enterService (s : State) : State :=
  let s := stopEngines s
  { s with mode := { s.mode with mode := .service, pend := none } }

/-- R404, R387, R221: READY is entered from SAFE or SERVICE. -/
def readyAccept (s : State) : State :=
  let safe := decide (s.mode.mode = .safe)
  let s := if safe then restartStopped s else s
  { s with
    mode := { s.mode with mode := .ready, rest := if safe then dramOn s else s.mode.rest }
    engines := s.engines.map fun g => { g with act := false }
    cv := { s.cv with chans := s.cv.chans.map fun c => { c with loaded := false } } }

/-- R405: an accepted request takes effect. -/
def requestDo (req : Nat) (s : State) : State :=
  match req with
  | 1 => runAccept s
  | 2 => stopAccept s
  | 3 => enterSleep s
  | 4 => enterService s
  | 5 => readyAccept s
  | _ => s

/-- MODE_STAT. -/
def modeCode : Mode → Nat
  | .reset => 0 | .loader => 1 | .load => 2 | .ready => 3 | .run => 4 | .runLead => 5 | .runShadow => 6 | .handover => 7
  | .hold => 8 | .safe => 9 | .sleep => 10 | .service => 11
def modeStat (s : State) : Nat :=
  place (modeCode s.mode.mode) 4 28 + (if s.mode.mode = .handover then place (modeCode s.mode.hoFrom) 4 24 else 0) +
    place (b2n s.mode.pend.isSome) 1 23 + place (b2n s.mode.rest) 1 22

/-- RESTORE_COMPLETE (R184): the fuller memories hold their FULDATA again. -/
def execRestoreComplete (s : State) : Host.Outcome State Fault Refusal :=
  if s.mode.rest then
    let back := fun (e : Nat) (g : Engine) =>
      match hengOf s e with
      | some h => if g.on then engRestore h g else g
      | none => g
    .next { s with engines := s.engines.mapIdx back, mode := { s.mode with rest := false } }
  else .next s

/-! ## Resets (R400, R401, R411, R412) -/

/-- R400: a power-on reset: retention is cleared, fuses are loaded, and the strap is sampled. -/
def powerOn (strap : Bool) (s : State) : State :=
  let s := if s.fw.stage = .confirm then confirmCut s else s
  { State.reset with
    part := s.part, now := s.now, use := s.use, flash := s.flash, fuses := s.fuses, pending := s.pending
    twin := Twin.reset strap
    cv := { CvSt.empty with trim := s.fuses.trim }
    fw := { State.reset.fw with bootAt := some s.now } }

/-- R401, R411: a pin, host full or watchdog reset, with the CAUSE it leaves. -/
def warmReset (cause : Nat) (strap : Bool) (s : State) : State :=
  let r := powerOn strap s
  { r with
    frame := { r.frame with start := s.frame.start }
    mode := { r.mode with cause := cause, crst := s.mode.crst, wdg := s.mode.wdg }
    flt := { r.flt with log := s.flt.log }
    mbx := s.mbx.map mbxLose
    cv := { r.cv with trim := s.cv.trim }
    tap := s.tap
    fw := { r.fw with result := if cause = 4 ∧ s.fw.stage = .trial then Err.incompat.code else 0 } }

/-- POWER_ON_RESET (R400). -/
def execPowerOnReset (strap : Bool) (s : State) : Host.Outcome State Fault Refusal := .next (powerOn strap s)

/-- PIN_RESET (R401): RESET_N has been low for `lowNs` nanoseconds; less than 1 us resets nothing. -/
def execPinReset (lowNs : Nat) (strap : Bool) (s : State) : Host.Outcome State Fault Refusal :=
  .next (if 1000 ≤ lowNs then warmReset 1 strap s else s)

/-- FIRST_WATCHDOG_EXPIRY (R412). -/
def execFirstWatchdogExpiry (s : State) : Host.Outcome State Fault Refusal :=
  if ctrlOn s then
    let s := { s with mode := { s.mode with wdg := satInc 255 s.mode.wdg, expired := true } }
    .next (coreRestart (logFault 0x09 0xFF 4 s))
  else .next s

/-- SECOND_WATCHDOG_EXPIRY (R412): the restarted firmware has not serviced the watchdog. -/
def execSecondWatchdogExpiry (strap : Bool) (s : State) : Host.Outcome State Fault Refusal :=
  .next (if ctrlOn s && s.mode.expired then warmReset 4 strap s else s)

/-- R414: the oldest entry of a ring that hardware consumes cannot be read: it is refused with E_CHECK, for the carder with a
reply and for a command ring in word 7. A UART takes no character from it. -/
def refuseEntry (r : Nat) (s : State) : State :=
  match hringOf s r, ringFront s r with
  | some h, some w =>
    match h.cons with
    | .carder => sendReply (.ring r) (refusedRec w .check) (ringPop r s)
    | .scheduler => ringDone r Err.check.code 0 s
    | .dram => ringDone r Err.check.code 0 (updRing r (fun x => { x with job := none }) s)
    | .uart => updUart h.uart (fun a => { a with txbad := true }) (ringPop r s)
    | _ => s
  | _, _ => s

/-- CONTROL_SRAM_UNCORRECTABLE (R58, R413, R414); `ring`: the ring whose oldest entry hardware was reading, if any. -/
def execControlSramUncorrectable (s : State) (ring : Option (BitVec 6) := none) : Host.Outcome State Fault Refusal :=
  if ctrlOn s then
    let s := match ring with | some r => refuseEntry r.toNat s | none => s
    let s := if inPeriod s then detFault s else s
    .next (coreRestart (logFault 0x06 0xFF 4 s))
  else .next s

/-! ## Power faults (R402, R414) -/

/-- DOMAIN_POWER_FAULT (R402): of a switched domain that is powered. -/
def execDomainPowerFault (d : BitVec 4) (s : State) : Host.Outcome State Fault Refusal :=
  let n := d.toNat
  if n != 0 && bitAt (poweredMask s) n && !bitAt s.flt.power n then
    .next (raiseFault 0x07 n { s with flt := { s.flt with power := s.flt.power + 2 ^ n } })
  else .next s

/-- DOMAIN_POWER_RECOVERY (R402). -/
def execDomainPowerRecovery (d : BitVec 4) (s : State) : Host.Outcome State Fault Refusal :=
  let n := d.toNat
  .next (if bitAt s.flt.power n then { s with flt := { s.flt with power := s.flt.power - 2 ^ n } } else s)

/-! ## Wake (R83, R407 to R410) -/

/-- 1.50 ms in core cycles (R409). -/
def wakeCycles : Nat := 1179648

/-- R407: whether a source wakes the Derku. -/
def wakes (s : State) : WakeSource → Bool
  | .uart u high => (uartAt s u.toNat).wake && (high || !s.mode.wakeFired.contains u.toNat)
  | _ => true

/-- R380: the wake detectors that are not re-armed once the source has woken the Derku. -/
def wakeFires (l : List Nat) : WakeSource → List Nat
  | .uart u _ => if l.contains u.toNat then l else l ++ [u.toNat]
  | _ => l

/-- WAKE_EVENT (R407, R409): the event is sampled at the wake instant t. -/
def execWakeEvent (src : WakeSource) (t : Nat) (s : State) : Host.Outcome State Fault Refusal :=
  let s := later t s
  .next (if s.mode.mode = .sleep ∧ s.mode.wakeAt.isNone ∧ wakes s src then
    { s with mode := { s.mode with wakeAt := some t, wakeFired := wakeFires s.mode.wakeFired src } } else s)

/-- R410: what a wake keeps, with every other register at its reset value. -/
def wakeKept (s : State) : State :=
  { State.reset with
    part := s.part, now := s.now, use := s.use, flash := s.flash, fuses := s.fuses, pending := s.pending
    frame := { State.reset.frame with start := s.frame.start }
    mode := { ModeSt.reset with cause := s.mode.cause, crst := s.mode.crst, wdg := s.mode.wdg, wakeFired := s.mode.wakeFired }
    flt := { FaultSt.empty with log := s.flt.log }
    mbx := s.mbx
    cv := { CvSt.empty with trim := s.cv.trim }
    twin := Twin.reset s.twin.strap
    tap := s.tap
    dramMb := s.dramMb, dram := s.dram
    fw := State.reset.fw }

/-- R82, R83: the hood copy in DRAM has the digest that is retained. -/
def hoodIntact (s : State) : Bool :=
  sha256 (Memory.readN 0 s.dram ((s.dramMb - s.block.copyMb) * 2 ^ 20) s.block.copyLen) == s.block.copyDigest

/-- R408, R410: the code copy, where it has the digest that is retained. -/
def codeIntact (s : State) : Option Memory :=
  match s.mode.codeCopy with
  | some m => if sha256 (codeBytes m) = s.mode.codeDigest then some m else none
  | none => none

/-- R165: a wake reads the head of every placement set again from its DRAM copy. -/
def placesAgain (s : State) (h : Hood) : Hood :=
  { h with place := h.place.map fun kp => (kp.1, kp.2.map fun p =>
      { p with set := (placeOf p.set.base (Memory.readN 0 s.dram p.set.base 2060)).set }) }

/-- R83, R409, R410, R417: the wake ends: both copies are read from DRAM, with outcomes e and c, and checked against their
retained digests; one that cannot be read fails its digest. -/
def wakeTo (e c : EccKind) (s : State) : State :=
  let k := raiseInt 2 (wakeKept s)
  let k := if s.mode.hoodCopy then countEcc e k else k
  let k := if s.mode.codeCopy.isSome then countEcc c k else k
  let lost := s.mode.hoodCopy && (!hoodIntact s || e == .uncorrectable)
  match s.hood, (if c = .uncorrectable then none else codeIntact s) with
  | some h, some m =>
    if s.mode.hoodCopy && !lost then
      install (placesAgain s h) { k with
        block := { k.block with digest := s.block.digest, copyMb := s.block.copyMb, copyLen := s.block.copyLen, copyDigest := s.block.copyDigest }
        fw := { k.fw with
          bank := s.fw.bank, bootAt := none, rom := s.fw.rom
          bank0 := if s.fw.bank = 0 then m else []
          bank1 := if s.fw.bank = 0 then [] else m } }
    else { k with block := { k.block with result := if lost then Err.check.code else 0 }, fw := { k.fw with bootAt := some s.now } }
  | _, _ => { k with block := { k.block with result := if lost then Err.check.code else 0 }, fw := { k.fw with bootAt := some s.now } }

/-- WAKE_END (R409): 1.50 ms after the wake instant. -/
def execWakeEnd (t : Nat) (hood code : EccKind) (s : State) : Host.Outcome State Fault Refusal :=
  let s := later t s
  match s.mode.wakeAt with
  | some u => .next (if s.mode.mode = .sleep ∧ u + wakeCycles ≤ t then wakeTo hood code s else s)
  | none => .next s

end Sys2Proof.Machine
end

