-- ==== Sys2Proof/Machine/Windows.lean ====
section
/-! DEFINITION. Windows: targets, checks, transfers and voice records (R61, R82, R306 to R309). -/

namespace Sys2Proof.Machine

/-! ## Fields of WIN_CMD -/

def cmdDir (v : Nat) : Bool := bitAt v 30
def cmdTgt (v : Nat) : Nat := bits v 27 24
def cmdEng (v : Nat) : Nat := bits v 23 20
def cmdLen (v : Nat) : Nat := bits v 4 0

/-! ## Protected areas of DRAM (R61, R62, R82) -/

/-- DRAM bytes in use. -/
def dramBytes (s : State) : Nat := s.dramMb * 2 ^ 20

/-- Whether two byte ranges meet. -/
def meets (a n b m : Nat) : Bool := decide (a < b + m) && decide (b < a + n)

/-- R82: the range meets the hood copy region. -/
def inCopy (s : State) (a n : Nat) : Bool := meets a n (dramBytes s - s.block.copyMb * 2 ^ 20) (s.block.copyMb * 2 ^ 20)

/-- R62: the range meets a deferred region that is enabled. -/
def inEnabled (s : State) (a n : Nat) : Bool :=
  match s.hood with
  | some h => h.dram.regions.any fun kr =>
      match kr.2 with | some r => r.deferred && s.regions.contains kr.1 && meets a n r.base r.size | none => false
  | none => false

/-- Bytes of the gain field and head of a placement set's DRAM copy (R165). -/
def placeBytes : Nat := 4096 + 32 * 1024 * 128

/-- R61: the range meets a region read by voices, placement or the delay streamer, deferred ones not enabled apart. -/
def inRead (s : State) (a n : Nat) : Bool :=
  match s.hood with
  | some h =>
    (h.dram.regions.any fun kr =>
      match kr.2 with | some r => !(r.deferred && !s.regions.contains kr.1) && meets a n r.base r.size | none => false) ||
    (h.place.any fun kp => match kp.2 with | some p => meets a n p.set.base placeBytes | none => false) ||
    meets a n h.dram.streamer ((h.dram.lines.map fun kl => match kl.2 with | some l => 4 * l.lmax | none => 0).sum)
  | none => false

/-! ## Voice records (R309) -/

/-- The slot field STATE. -/
def slotStateCode (x : Slot) : Nat := match x.state with | .free => 0 | .pending => 1 | .sounding => 2 | .fading => 3

/-- R309: word of oscillator n. -/
def recOsc (s : State) (v : Voice) (n : Nat) : Nat :=
  match templateOf s v.group, v.osc[n]? with
  | some t, some o =>
    let m := oscModel (t.osc.getD n [])
    if m = 0 then 0 else if m = 3 then o.pos / 2 ^ 32 % 2 ^ 32 else o.phase
  | _, _ => 0

/-- The number of the first frame whose voices are not computed yet: those of FRAME_CNT are computed as the frame starts. -/
def framesDone (s : State) : Nat := s.frame.cnt + 1

/-- R309: word k of the record of slot i. -/
def recRead (s : State) (i k : Nat) : Nat :=
  let x := slotAt s i
  let own := match x.pend with | some p => some p | none => x.cur
  match own with
  | none => if k = 0 then place x.gen 8 16 else 0
  | some o =>
    if k = 0 then
      place (slotStateCode x) 2 30 + place (b2n o.released) 1 29 + place (b2n o.detached) 1 28 + place x.gen 8 16 + place o.group 6 0
    else if k = 1 then (if o.mapped then place o.use 8 24 + place o.tag 24 0 else 0)
    else if k = 2 then o.first % 2 ^ 32
    else if k = 3 then o.first / 2 ^ 32 % 2 ^ 32
    else if k = 13 then place o.cost 8 16 + (match x.fade with | some d => place (d.from_ + d.n - framesDone s) 8 0 | none => 0)
    else
      match x.cur with
      | none => 0
      | some v =>
        if k = 4 then unsigned 32 v.ga
        else if 5 ≤ k ∧ k ≤ 8 then recOsc s v (k - 5)
        else if 9 ≤ k ∧ k ≤ 12 then unsigned 32 (v.env.getD (k - 9) envInit).e
        else 0

/-- R309: write word k of a voice's record. -/
def recSet (t : Template) (k : Nat) (w : Word) (v : Voice) : Voice :=
  if 5 ≤ k ∧ k ≤ 8 then
    let n := k - 5
    let m := oscModel (t.osc.getD n [])
    { v with osc := updAt v.osc n fun o =>
        if m = 0 then o else if m = 3 then { o with pos := w.toNat * 2 ^ 32 + o.pos % 2 ^ 32 } else { o with phase := w.toNat } }
  else if 9 ≤ k ∧ k ≤ 12 then { v with env := updAt v.env (k - 9) fun e => { e with e := w.toInt, e0 := w.toInt } }
  else v

/-- R309: a window write of word k of the record of slot i. -/
def recWrite (i k : Nat) (w : Word) (s : State) : State :=
  let x := slotAt s i
  match x.cur with
  | some v => (match templateOf s v.group with | some t => setSlot i { x with cur := some (recSet t k w v) } s | none => s)
  | none => s

/-! ## Targets (R306) -/

/-- Word at byte address a of a target. -/
def tgtRead (s : State) (tgt e a : Nat) : Word :=
  let g := engAt s e
  match tgt with
  | 1 => Memory.readW 0 s.dram a
  | 2 => Store.get 0 g.x (a / 4)
  | 3 => Store.get 0 g.ya (a / 4)
  | 4 => Store.get 0 g.yb (a / 4)
  | 5 => let w := (Store.get 0 g.imem (a / 8)).toNat
         BitVec.ofNat 32 (if a / 4 % 2 = 0 then w else w / 2 ^ 32)
  | 6 => BitVec.ofNat 32 (recRead s (a / 64) (a / 4 % 16))
  | _ => 0

/-- Store a word at byte address a of a target. -/
def tgtWrite (tgt e a : Nat) (w : Word) (s : State) : State :=
  let g := engAt s e
  match tgt with
  | 1 => { s with dram := Memory.writeW 0 s.dram a w }
  | 2 => setEng e { g with x := Store.set 0 g.x (a / 4) w } s
  | 3 => setEng e { g with ya := Store.set 0 g.ya (a / 4) w } s
  | 4 => setEng e { g with yb := Store.set 0 g.yb (a / 4) w } s
  | 6 => recWrite (a / 64) (a / 4 % 16) w s
  | _ => s

/-- R306: bytes of a target. -/
def tgtSize (s : State) (tgt : Nat) : Nat :=
  if tgt = 1 then dramBytes s else if tgt = 2 then 0x20000 else if tgt = 6 then 2048 * 64 else 0x10000

/-- R61: a write of n bytes at a of a target is into an area that the rule names. -/
def inArea (s : State) (tgt a n : Nat) : Bool := tgt == 2 || tgt == 3 || tgt == 4 || tgt == 6 || (tgt == 1 && inRead s a n)

/-! ## The checks (R307) -/

/-- R307: the modes in which a window transfers. -/
def winMode (m : Mode) : Bool := !(m == .reset || m == .sleep)

/-- The words of a voice record that a transfer of len words at a touches, by slot and word. -/
def recWords (a len : Nat) : List (Nat × Nat) := (List.range len).map fun i => ((a + 4 * i) / 64, (a / 4 + i) % 16)

/-- R306, R307: the reserved bits of WIN_CMD. -/
def cmdRsvd (v : Nat) : Bool := bits v 29 28 != 0 || bits v 19 8 != 0 || bits v 6 5 != 0

/-- R306: the targets that are memories of engine ENG. -/
def engTgt (tgt : Nat) : Bool := decide (2 ≤ tgt) && decide (tgt ≤ 5)

/-- R307: what a command v with GO = 1 on a window with address a is refused for; HOLD is no running mode for R61 (log entry 74). -/
def winConds (s : State) (busy : Bool) (v a : Nat) : List (Bool × Err) :=
  let tgt := cmdTgt v
  let len := cmdLen v
  let eng := engTgt tgt
  let recs := if tgt = 6 then recWords a len else []
  [(eng && !engineOn s (cmdEng v), .absent),
   (recs.any fun x => decide (x.1 < 2048) && !clusterOn s (x.1 / 256), .absent),
   (tgt == 1 && !memOn s, .absent),
   (!winMode s.mode.mode, .mode),
   (cmdDir v && (tgt == 5 || (recs.any fun x => decide (x.2 < 5) || decide (12 < x.2))), .mode),
   (cmdDir v && framesRun s && detHood s && inArea s tgt a (4 * len), .mode),  -- R61: HOLD is no running mode (log entry 74)
   (cmdDir v && tgt == 1 && (inCopy s a (4 * len) || inEnabled s a (4 * len)), .mode),
   (tgt == 0 || decide (6 < tgt) || cmdRsvd v || (!eng && cmdEng v != 0), .rsvd),
   (len == 0 || decide (16 < len) || a % 4 != 0 || decide (tgtSize s tgt < a + 4 * len), .range),
   (recs.any fun x => decide (2047 < x.1) || decide ((rateOf s).voices ≤ x.1 % 256), .range),
   (busy || decide (s.mode.mode = .load), .busy)]

/-! ## Transfers (R308) -/

/-- R307: GO is accepted for window w. -/
def winStart (w v : Nat) (s : State) : State := updWin w (fun x => { x with busy := true, job := v }) s

/-- R308, R417: the transfer of window w moves its words and completes; `ecc`: what was met in them, for an on-chip memory
a parity error (`uncorrectable`). An uncorrectable DRAM error is a fault (R58), and so is for VALID a write into one of
R61's areas in HOLD, which the running period includes (log entry 74). -/
def winComplete (w : Nat) (ecc : EccKind) (s : State) : State :=
  let x := winAt s w
  if !x.busy then s
  else
    let tgt := cmdTgt x.job
    let e := cmdEng x.job
    let len := cmdLen x.job
    let s := if tgt = 1 then useEcc ecc s else s
    let s :=
      if cmdDir x.job then
        let void := inPeriod s && inArea s tgt x.addr (4 * len)
        let s := (List.range len).foldl (fun s i => tgtWrite tgt e (x.addr + 4 * i) (x.buf.getD i 0) s) s
        if void then voidDet (fun d => { d with winwrite := true }) s else s
      else
        let got := (List.range len).map fun i => tgtRead s tgt e (x.addr + 4 * i)
        updWin w (fun x => { x with buf := got ++ x.buf.drop len }) s
    updWin w (fun x => { x with busy := false, done := true, code := if ecc = .uncorrectable then Err.check.code else 0 }) s

/-- WINDOW_TRANSFER_COMPLETE (R308). -/
def execWindowTransferComplete (w : BitVec 3) (ecc : EccKind) (s : State) : Host.Outcome State Fault Refusal :=
  .next (winComplete w.toNat ecc s)

end Sys2Proof.Machine
end

