-- ==== Sys2Proof/Machine/HoodChecks.lean ====
section
/-! DEFINITION. Step 12 of *Pass 1 checks*: what the body of each section is refused for, by itself and against the other
sections (R76), over the decoded structure image. -/

namespace Sys2Proof.Machine

/-- The first condition that holds, in the order given (R76: the order of R15 does not apply). -/
def firstOf : List (Bool × Err) → Err
  | [] => .ok
  | (b, e) :: t => if b then e else firstOf t

/-- Values present in a store of optional entries. -/
def someOf {α : Type} (m : Store (Option α)) : List (Nat × α) := m.filterMap fun kv => kv.2.map fun v => (kv.1, v)

/-- Whether two elements of a list, at different places, satisfy a test. -/
def anyPair {α : Type} (p : α → α → Bool) : List α → Bool
  | [] => false
  | a :: t => t.any (p a) || anyPair p t

/-! ## Clocks, memory and rings -/

/-- R239. -/
def clocksBad (c : HClocks) : Bool :=
  (List.range 4).any (fun d => c.sync.getD d false && c.domRate.getD d .r96 != c.rate) || c.domRate.getD c.master .r96 != c.rate ||
  (match c.backup with | some b => b == c.master || !c.sync.getD b false || c.domRate.getD b .r96 != c.rate | none => false)

/-- Bytes that the delay lines need (R232). -/
def streamerBytes (d : HDram) : Nat := ((someOf d.lines).map fun kl => 4 * kl.2.lmax).sum

/-- R437: base and size of every region, of the streamer region and of each PLACE copy. -/
def dramSpans (h : Hood) : List (Nat × Nat) :=
  ((someOf h.dram.regions).map fun kr => (kr.2.base, kr.2.size)) ++
  (if streamerBytes h.dram = 0 then [] else [(h.dram.streamer, streamerBytes h.dram)]) ++
  ((someOf h.place).map fun kp => (kp.2.set.base, placeBytes))

/-- R232: bounds of lines and taps. -/
def streamerBad (d : HDram) : Bool :=
  decide (512 * 2 ^ 20 < streamerBytes d) ||
  ((someOf d.lines).any fun kl => decide (127 < kl.1) || decide (15 < kl.2.owner) || kl.2.lmax % 16 != 0 || decide (kl.2.lmax < 16) ||
    decide (384000 < kl.2.lmax) || !delayIn kl.2.lmax kl.2.len) ||
  ((someOf d.taps).any fun kt => decide (255 < kt.1) ||
    (match Store.get none d.lines kt.2.line with
     | some l => l.owner != kt.2.owner || (kt.2.d != 0 && !delayIn l.lmax kt.2.d)
     | none => true))

/-- R437: regions, and what may not overlap or reach the hood copy of `copy` MB. -/
def regionsBad (h : Hood) (copy : Nat) : Bool :=
  ((someOf h.dram.regions).any fun kr => decide (255 < kr.1)) ||
  ((dramSpans h).any fun x => x.1 % 65536 != 0 || decide ((h.hdr.dramMin - copy) * 2 ^ 20 < x.1 + x.2)) ||
  ((someOf h.dram.regions).any fun kr => kr.2.size % 65536 != 0) ||
  anyPair (fun a b => meets a.1 a.2 b.1 b.2) (dramSpans h)

/-- Endpoints that a ring type allows as producer and as consumer (R324). -/
def ringProd (ty : Nat) (e : EndPt) : Bool :=
  let host := e == .host || e == .spi || e == .cores
  if ty = 2 then e == .carder else if ty = 3 then e == .carder || e == .cores else if ty = 5 then e == .uart else host
def ringCons (ty : Nat) (e : EndPt) : Bool :=
  let host := e == .host || e == .spi || e == .cores
  if ty = 1 then e == .carder else if ty = 4 then e == .scheduler else if ty = 6 then e == .uart else if ty = 7 then e == .dram else host

/-- R320. -/
def ringConds (r : HRings) : List (Bool × Err) :=
  let l := (someOf r.rings).map (·.2)
  [(anyPair (fun a b => meets a.base (2 ^ a.size) b.base (2 ^ b.size)) l, .format),
   (l.any (fun x => decide (1 ≤ x.type) && decide (x.type ≤ 7) && (!ringProd x.type x.prod || !ringCons x.type x.cons)), .format),
   (l.any (fun x => x.type == 0 || decide (7 < x.type)), .rsvd),
   (l.any (fun x => decide (x.size < 4) || decide (12 < x.size) || decide (6144 < x.base + 2 ^ x.size)), .range)]

/-! ## Ports (R241, R256, R263, R266, R269) -/

/-- R241: a port. BCLK at +2 % is at most 50.2 MHz. -/
def portBad (c : HClocks) (p : HPort) : Bool :=
  let rate := c.domRate.getD p.domain .r96
  decide (2 < p.slotw) || decide (2 < p.wlen) || decide (widthOf p.slotw < widthOf p.wlen) ||
  (p.format == 3 && (rate == .r176 || rate == .r192)) || decide (50200000 * 100 < frameLength p * rate.hz * 102)

/-- R263: the ratios of an output rate, as RATIO codes. -/
def pdmRate (r : Rate) (ratio : Nat) : Bool :=
  match r with
  | .r44 => ratio == 1 || ratio == 2 | .r48 => ratio == 1 || ratio == 2
  | .r88 => ratio == 0 || ratio == 1 | .r96 => ratio == 0 || ratio == 1
  | _ => false

/-- R256: a domain whose interfaces pass through the ASRC. -/
def asyncDomain (c : HClocks) (d : Nat) : Bool := !c.sync.getD d false

/-- R256, R263: channels that pass through the ASRC; every microphone of an asynchronous group counts. -/
def asrcChannels (c : HClocks) (p : HPorts) : Nat :=
  let two := fun (h : HAes) => b2n h.busA.isSome + b2n h.busB.isSome
  (((someOf p.saps).filter fun x => asyncDomain c x.2.domain).map fun x => x.2.ins.length + x.2.outs.length).sum +
  (((someOf p.rx).filter fun x => asyncDomain c x.2.domain).map fun x => two x.2).sum +
  (((someOf p.tx).filter fun x => asyncDomain c x.2.domain).map fun x => two x.2).sum +
  (((someOf p.pdm).filter fun x => asyncDomain c x.2.domain).map fun x => x.2.carried.length).sum

/-- Conditions on PORTS. R263 assigns a line to one group, and R264 gives the microphones that a line carries: a line in two
groups and an assigned microphone on no line of its group are out of range (DEDUCED, log entry 55). -/
def portsConds (u : HUnits) (c : HClocks) (p : HPorts) : List (Bool × Err) :=
  let pdm := someOf p.pdm
  let tail := fun (x : HPdm) (ws : Words) => (ws.drop (presetTaps x.preset / 2)).any (fun w => w != 0) || decide (64 < ws.length)
  [(pdm.any fun x => x.2.preset == 3 || tail x.2 x.2.bank0 || tail x.2 x.2.bank1, .rsvd),
   ((someOf p.saps).any fun x => portBad c x.2, .range),
   (decide (64 < asrcChannels c p), .range),
   (pdm.any fun x => !pdmRate (c.domRate.getD x.2.domain .r96) x.2.ratio || (x.2.lines != 0 && !bitAt u.pdm x.1), .range),
   (anyPair (fun x y => Nat.land x.2.lines y.2.lines != 0) pdm || (pdm.any fun x => x.2.mics.any fun m => !micOnLine x.2.lines m.1), .range),
   ((someOf p.saps).any fun x => x.2.group.isSome && asyncDomain c x.2.domain, .range),
   (pdm.any fun x => x.2.dck != 0 && (decide (x.2.dck < 10) || decide (16 < x.2.dck)), .range)]

/-! ## Voice templates -/

/-- R106: an oscillator record n, reserved fields. -/
def oscRsvd (n : Nat) (r : Words) : Bool :=
  let m := oscModel r
  decide (5 < m) || (m == 5 && decide (1 < oscShape r)) || (m != 1 && m != 5 && oscShape r != 0) ||
  Words.fld r 0 23 20 != 0 || Words.fld r 0 7 0 != 0 || Words.fld r 5 31 24 != 0 || Words.u r 10 != 0 || Words.u r 11 != 0 ||
  (m != 2 && (Words.fld r 0 25 25 != 0 || Words.u r 3 != 0)) ||
  (m != 4 && (Words.fld r 0 19 16 != 0 || Words.u r 6 != 0 || Words.u r 7 != 0 || Words.u r 8 != 0 || Words.u r 9 != 0)) ||
  ((List.range 4).any fun j => oscPmsrc r j && decide (j ≤ n)) ||
  ((List.range 3).any fun i => decide (3 < n + 1 + i) && Words.u r (7 + i) != 0) ||
  (m != 3 && Words.fld r 0 15 8 != 0)

/-- R106: its ranges. -/
def oscRange (r : Words) : Bool :=
  (oscModel r == 3 && (Words.fld r 0 15 8 == 0 || decide (128 < Words.fld r 0 15 8))) || decide (255 * 65536 < Words.fld r 5 23 0)

/-- R122: a sample record. -/
def sampleRsvd (z : Words) : Bool := Words.fld z 0 23 18 != 0 || Words.fld z 0 13 0 != 0 || decide (1 < Words.fld z 0 15 14)
def sampleRange (z : Words) : Bool :=
  let st := Words.u z 2
  let en := Words.u z 5
  decide (en ≤ st) || decide (2 ^ 28 ≤ st) || en == 0 || decide (2 ^ 28 < en) || Words.u z 1 % 64 != 0 || Words.u z 7 == 0 ||
  (smpLoop z && (decide (Words.u z 3 < st) || Words.u z 4 != en || decide (Words.u z 4 < Words.u z 3 + 64)))

/-- R133, R137: chain and filter records. -/
def chainRsvd (r : Words) : Bool := decide (1 < Words.fld r 0 31 30) || Words.fld r 0 29 8 != 0
def filtRsvd (r : Words) : Bool :=
  let ty := Words.fld r 0 31 30
  let mode := Words.fld r 0 29 27
  (ty == 1 && decide (5 < mode)) || (ty == 2 && decide (3 < mode)) || (ty == 3 && mode != 0) || Words.fld r 0 24 0 != 0 ||
  (ty != 3 && (Words.fld r 0 25 25 != 0 || Words.u r 3 != 0))
def filtRange (r : Words) : Bool :=
  decide (0x7F000000 < Words.u r 2) || (Words.fld r 0 31 30 == 3 && (Words.u r 3 == 0 || decide (0x7FFFFFFF < Words.u r 3)))

/-- R143, R145, R148: shaper, envelope and LFO records. -/
def shaperRsvd (r : Words) : Bool := Words.fld r 0 26 0 != 0
def shaperRange (r : Words) : Bool := decide (0x7FFFFFFF < Words.u r 1)
def envRsvd (r : Words) : Bool := Words.fld r 0 31 30 == 3 || Words.fld r 0 17 0 != 0 || Words.u r 7 != 0
def envRange (r : Words) : Bool := decide (0x7FFFFFFF < Words.u r 6)
def lfoSync (r : Words) : Bool := Words.fld r 0 28 28 == 1
def lfoRsvd (r : Words) : Bool :=
  decide (5 < Words.fld r 0 31 29) || Words.fld r 0 25 16 != 0 || Words.u r 3 != 0 || (!lfoSync r && Words.fld r 0 15 0 != 0)
def lfoRange (r : Words) : Bool := lfoSync r && Words.fld r 0 15 0 == 0

/-- R156: a listed source code. -/
def sourceCode (c : Nat) : Bool :=
  decide (c ≤ 6) || (decide (8 ≤ c) && decide (c ≤ 0x0E)) || (decide (0x10 ≤ c) && decide (c ≤ 0x16)) ||
  (decide (0x18 ≤ c) && decide (c ≤ 0x47))

/-- R155: an inactive route. -/
def routeOff (r : Words) : Bool := Words.fld r 0 31 24 == 0 || Words.fld r 0 15 8 == 0

/-- R155: reserved codes and bits of a route. -/
def routeRsvd (r : Words) : Bool :=
  (routeOff r && (Words.u r 0 != 0 || Words.u r 1 != 0)) || Words.fld r 0 3 0 != 0 || !sourceCode (Words.fld r 0 31 24) ||
  !sourceCode (Words.fld r 0 23 16) || (Words.fld r 0 15 8 != 0 && !destCode (Words.fld r 0 15 8)) || decide (6 < Words.fld r 0 7 4)

/-- A half of a word of a record, higher half first. -/
def halfOf (r : Words) (w k : Nat) : Nat := if k % 2 = 0 then Words.fld r (w + k / 2) 31 16 else Words.fld r (w + k / 2) 15 0

/-- The eight direct buses, the two auxiliary buses and the eight bus sources of a template (R164). -/
def directBus (t : Template) (k : Nat) : Nat := halfOf t.place 4 k
def auxBus (t : Template) (k : Nat) : Nat := halfOf t.send 0 k
def busSource (t : Template) (k : Nat) : Nat := halfOf t.send 3 k

/-- R157: a bus source that the template does not declare. -/
def sourceAbsent (t : Template) (c : Nat) : Bool := decide (0x40 ≤ c) && decide (c ≤ 0x47) && busSource t (c - 0x40) == 0xFFFF

/-- The template is in direct mode. -/
def placeDirect (t : Template) : Bool := Words.fld t.place 0 31 31 == 1

/-- R158: the template's stage uses a destination. -/
def destUsed (t : Template) (c : Nat) : Bool :=
  let osc := fun (k : Nat) => t.osc.getD k []
  if c ≤ 4 then oscModel (osc (c - 1)) != 0 && !(oscModel (osc (c - 1)) == 5 && oscShape (osc (c - 1)) == 0)
  else if c ≤ 8 then oscModel (osc (c - 5)) == 1 && oscShape (osc (c - 5)) == 1
  else if c ≤ 0x0C then oscModel (osc (c - 9)) == 2
  else if c ≤ 0x10 then oscModel (osc (c - 0x0D)) == 4
  else if c ≤ 0x16 then oscModel (osc (pmdPair c).1) == 4 && oscPmsrc (osc (pmdPair c).1) (pmdPair c).2
  else if c ≤ 0x1A then true
  else if c ≤ 0x1C then Words.fld (t.filt.getD (c - 0x1B) []) 0 31 30 != 0
  else if c ≤ 0x1E then Words.fld (t.filt.getD (c - 0x1D) []) 0 31 30 != 0
  else if c = 0x1F then Words.fld t.shaper 0 31 31 == 1
  else if c ≤ 0x3F then true
  else if c ≤ 0x42 then !lfoSync (t.lfo.getD (c - 0x40) [])
  else if c ≤ 0x4A then !placeDirect t
  else if c ≤ 0x52 then placeDirect t && directBus t (c - 0x4B) != 0xFFFF
  else auxBus t (c - 0x53) != 0xFFFF

/-- R155, R157, R158: a route's ranges. -/
def routeRange (t : Template) (r : Words) : Bool :=
  !routeOff r && (sourceAbsent t (Words.fld r 0 31 24) || sourceAbsent t (Words.fld r 0 23 16) || !destUsed t (Words.fld r 0 15 8))

/-- R164: placement and send records. -/
def placeRsvd (t : Template) : Bool :=
  Words.fld t.place 0 24 0 != 0 ||
  (if placeDirect t then Words.fld t.place 0 30 28 != 0 else (List.range 12).any fun i => Words.u t.place (4 + i) != 0)
def busNumber (b : Nat) : Bool := decide (b ≤ 511) || b == 0xFFFF
def placeRange (t : Template) : Bool :=
  decide (Words.s t.place 2 < -2 ^ 30) || decide (2 ^ 30 < Words.s t.place 2) || decide (Words.s t.place 3 < 0) ||
  (placeDirect t && (List.range 8).any fun k => !busNumber (directBus t k)) ||
  ((List.range 2).any fun k => !busNumber (auxBus t k)) || ((List.range 8).any fun k => !busNumber (busSource t k))

/-- Reserved fields of a template. -/
def templateRsvd (t : Template) : Bool :=
  ((List.range 4).any fun n => oscRsvd n (t.osc.getD n [])) || chainRsvd t.chain || t.filt.any filtRsvd || shaperRsvd t.shaper ||
  t.env.any envRsvd || t.lfo.any lfoRsvd || t.routes.any routeRsvd || placeRsvd t ||
  (t.zones.any fun z => z.any fun r => !r.isEmpty && sampleRsvd r)

/-- Ranges of a template that need no other section. -/
def templateRange (t : Template) : Bool :=
  t.osc.any oscRange || decide (2 < (t.osc.filter fun r => oscModel r == 2 || oscModel r == 3).length) || t.filt.any filtRange ||
  shaperRange t.shaper || t.env.any envRange || t.lfo.any lfoRange || t.routes.any (routeRange t) || placeRange t ||
  (t.zones.any fun z => z.any fun r => !r.isEmpty && sampleRange r)

/-- Whether bytes [o, o+n) lie inside a declared region. -/
def inRegion (h : Hood) (k o n : Nat) : Bool := match Store.get none h.dram.regions k with | some r => decide (o + n ≤ r.size) | none => false

/-- R123: bytes that a sample record's data occupy. -/
def sampleBytes (z : Words) : Nat := smpFrame z * ((if smpLoop z then Words.u z 4 else Words.u z 5) + 8)

/-- R173: a bus that voices may write, or read. -/
def sendsBad (h : Hood) (t : Template) : Bool :=
  ((List.range 2).any fun k => auxBus t k != 0xFFFF && !h.buses.voiceOut.contains (auxBus t k)) ||
  (placeDirect t && (List.range 8).any fun k => directBus t k != 0xFFFF && !h.buses.voiceOut.contains (directBus t k)) ||
  ((List.range 8).any fun k => busSource t k != 0xFFFF && !h.buses.voiceIn.contains (busSource t k))

/-- References of a template to other sections (R76). -/
def templateRefs (h : Hood) (t : Template) : List (Bool × Err) :=
  [(t.osc.any fun r => oscModel r == 2 && !inRegion h (Words.fld r 3 31 24) (Words.fld r 3 23 0 * 0x200000) 0x200000, .range),
   (t.zones.any fun z => z.any fun r => !r.isEmpty && !inRegion h (Words.fld r 0 31 24) (Words.u r 1) (sampleBytes r), .range),
   (decide (2 ≤ Words.fld t.shaper 0 30 27) && (Store.get [] h.shapers (Words.fld t.shaper 0 30 27)).isEmpty, .range),
   (t.env.any fun r => [Words.fld r 0 29 26, Words.fld r 0 25 22, Words.fld r 0 21 18].any fun c =>
      decide (4 ≤ c) && (Store.get [] h.curves c).isEmpty, .range),
   (!placeDirect t && (Store.get none h.place (Words.fld t.place 0 30 28)).isNone, .range),
   (sendsBad h t, .format)]

/-! ## Groups, tables, engines, CV outputs -/

/-- R86, R150, R152: a group's settings by themselves. -/
def groupRange (g : HGroup) : Bool :=
  decide (2048 < g.limit) || decide (g.limitMax < g.limit) || decide (15 < g.priority) || g.mask == 0 || decide (255 < g.maskMax) ||
  Nat.land g.mask g.maskMax != g.mask || decide (3 < g.policy) || decide (3 < g.fade) || !keysOk g.keys || g.gctl.length != 16 || g.lfo.length != 16

/-- R86: a group against UNITS, CLOCKS and VTEMPL. -/
def groupRefs (h : Hood) (g : HGroup) : Bool :=
  decide (h.templates.length ≤ g.template) || Nat.land g.maskMax h.units.clusters != g.maskMax ||
  decide (h.clocks.rate.voices * ((List.range 8).filter fun c => bitAt g.maskMax c).length < g.limitMax)

/-- R146: a hood curve. -/
def curveBad (k : List Int) : Bool :=
  k.length != 257 || k.getD 0 1 != 0 || k.getD 256 0 != 2 ^ 31 || (List.range 256).any fun i => decide (k.getD (i + 1) 0 < k.getD i 0)

/-- R143, R146: TABLES. -/
def tablesBad (h : Hood) : Bool :=
  (h.curves.any fun kc => decide (kc.1 < 4) || decide (15 < kc.1) || curveBad kc.2) ||
  (h.shapers.any fun kc => decide (kc.1 < 2) || decide (15 < kc.1) || kc.2.length != 1025)

/-- R194: SLEN of a FULCODE, and its size (R178). -/
def codeBad (r : Rate) (e : HEngine) : Bool :=
  (e.slen != 0 && (decide (e.slen < 5) || decide (r.limit < e.slen))) || (e.imem.any fun kv => decide (8191 < kv.1))

/-- R179: a FULDATA. -/
def dataBad (e : HEngine) : Bool :=
  e.xb % 256 != 0 || decide (32768 < e.xb) || (e.x.any fun kv => decide (32767 < kv.1)) ||
  (e.ya.any fun kv => decide (16383 < kv.1)) || (e.yb.any fun kv => decide (16383 < kv.1))

/-- R384, R386: a CVIO entry of channel c. -/
def cvBad (s : State) (c : Nat) (x : HCv) : Bool :=
  decide (15 < c) || decide (x.tol < 1) || decide (255 < x.tol) || decide (x.cnt < 1) || decide (15 < x.cnt) || decide (511 < x.bus) ||
  decide (3 < x.span) || (decide (2 ≤ x.span) != cvBipolar s c) || decide (2 ^ 31 ≤ x.inc) || decide (0xFFFF < x.code) ||
  decide (0xFFFF < x.amp) || decide (0xFFFF < x.center)

/-! ## EVMAP and PATHS -/

/-- R51, R381, R382: EVMAP: 64 words in an atomic group, a LEAD of 2 to 255. -/
def evmapBad (e : HEvmap) : Bool :=
  let leadBad := fun (n : Nat) => decide (n < 2) || decide (255 < n)
  (e.atoms.any fun a => decide (64 < a.length)) ||
  ((someOf e.uarts).any fun u => match u.2 with
    | .midi l => l.any fun m => leadBad m.lead
    | .dmx l => l.any fun m => leadBad m.lead)

/-- R339: kind and unit of a path's end, and its reserved bits. -/
def endKind (w : Word) : Nat := bits w.toNat 31 28
def endUnit (w : Word) : Nat := bits w.toNat 27 24
def endRsvd (w : Word) : Bool := bits w.toNat 23 16 != 0

/-- R339: a path's ends; an input is no CV output, and an output no microphone. -/
def pathBad (p : HPath) : Bool :=
  !(endKind p.input == 1 || endKind p.input == 2 || endKind p.input == 3) || !(endKind p.output == 1 || endKind p.output == 2 || endKind p.output == 4) ||
  decide (p.max < p.min) || decide (0xFFFF < p.max)

/-! ## Buses and placement sets -/

/-- R173: BUSES. -/
def busesBad (b : HBuses) : Bool :=
  anyPair (fun x y => x == y) b.portIn ||
  (b.portIn.any fun x => b.voiceOut.contains x || (b.engOut.any fun y => y.1 == x) || (b.sets.any fun y => y.2 == x)) ||
  anyPair (fun x y => x.1 != y.1 && x.2 == y.2) b.sets

/-- The cell array's words of a PLACE section (R165). -/
def cellWords (bs : List Byte) : Words := bytesWords (1024 * 128 * 8) (bs.drop 4096)

/-- R165: two pairs of one cell with the same set-bus and nonzero gains. -/
def cellTwice (c : Words) : Bool := anyPair (fun a b => pairBus a == pairBus b && pairGain a != 0 && pairGain b != 0) c

/-- The cells of a list of pairs. -/
def cellsOf : Nat → Words → List Words
  | 0, _ => []
  | n + 1, ws => ws.take 8 :: cellsOf n (ws.drop 8)

/-- R165: a PLACE section by itself. -/
def placeConds (p : HPlace) : List (Bool × Err) :=
  let w0 := leNat (p.data.take 4)
  let ws := cellWords p.data
  [(p.data.length != placeBytes, .format),
   (w0 / 512 != 0 || (ws.any fun w => bits w.toNat 25 16 != 0) || !zeroBytes ((p.data.drop 2060).take 2036), .rsvd),
   (w0 % 64 != 0 || decide (448 < w0), .range),
   (p.set.da.any fun x => decide (x < 0), .range),
   (p.set.aa.any fun x => decide (x < 1), .range),
   (ws.any fun w => decide (0x8000 < pairGain w), .range),
   ((cellsOf (1024 * 128) ws).any cellTwice, .range)]

/-- R165: its set-bus range against BUSES. -/
def placeRefs (h : Hood) (i : Nat) (p : HPlace) : Bool :=
  (List.range 64).any fun b => !h.buses.sets.contains (i, p.set.setbase + b)

/-! ## Sections -/

/-- Step 12, own part, of a section of a type and an instance; `copy`: MB of the hood copy region. -/
def bodyConds (s : State) (h : Hood) (copy ty inst : Nat) : List (Bool × Err) :=
  match ty with
  | 0x02 => [(clocksBad h.clocks, .range)]
  | 0x03 => [(streamerBad h.dram || regionsBad h copy, .range)]
  | 0x04 => ringConds h.rings
  | 0x05 => portsConds h.units h.clocks h.ports
  | 0x06 => [(busesBad h.buses, .format)]
  | 0x07 => [(h.templates.any templateRsvd, .rsvd), (h.templates.any templateRange, .range)]
  | 0x08 => [(h.groups.any (fun g => g.lfo.any fun i => decide (5 < i.shape)), .rsvd), (decide (64 < h.groups.length) || h.groups.any groupRange, .range)]
  | 0x09 => [(evmapBad h.evmap, .range)]
  | 0x0A => [(tablesBad h, .range)]
  | 0x0B => (match Store.get none h.engines inst with | some e => [(codeBad h.clocks.rate e, .range)] | none => [])
  | 0x0C => (match Store.get none h.engines inst with | some e => [(dataBad e, .range)] | none => [])
  | 0x0D => [((someOf h.cv).any fun kc => cvBad s kc.1 kc.2, .range)]
  | 0x0E => [(h.paths.any fun p => endRsvd p.input || endRsvd p.output, .rsvd), (h.paths.any pathBad, .range)]
  | 0x0F => (match Store.get none h.place inst with | some p => placeConds p | none => [])
  | _ => []

/-! ## References between sections (R76)

A unit that the variant has and UNITS does not enable is refused here; one that the variant lacks is left to step 14 (R7).
R76 gives a failed reference no code of its own: E_RANGE (DESIGN CHOICE, log entry 55). -/

/-- A unit n of a kind of which the variant has `have_` and UNITS enables those of a mask. -/
def notEnabledUnit (have_ mask n : Nat) : Bool := decide (n < have_) && !bitAt mask n

/-- R238: a domain's source port or receiver that PORTS does not give. -/
def clockRefs (h : Hood) : Bool :=
  (List.range 4).any fun d =>
    let i := h.clocks.index.getD d 0
    match h.clocks.kind.getD d 0 with
    | 1 => (Store.get none h.ports.saps i).isNone
    | 2 => (Store.get none h.ports.rx i).isNone
    | _ => false

/-- R232: owners of lines and taps. -/
def dramOwners (d : HDram) : List Nat := ((someOf d.lines).map fun x => x.2.owner) ++ ((someOf d.taps).map fun x => x.2.owner)

/-- Buses of an AES3 interface. -/
def aesBuses (x : HAes) : List Nat := x.busA.toList ++ x.busB.toList

/-- PORTS against UNITS and BUSES. -/
def portRefs (p : Part) (h : Hood) : List (Bool × Err) :=
  let q := h.ports
  let u := h.units
  [((someOf q.saps).any (fun x => notEnabledUnit 8 u.saps x.1) || (someOf q.rx).any (fun x => notEnabledUnit p.aes u.rx x.1) ||
     (someOf q.tx).any (fun x => notEnabledUnit p.aes u.tx x.1), .range),
   ((someOf q.saps).any fun x => x.2.ins.any fun m => !h.buses.portIn.contains m.bus, .range),
   ((someOf q.saps).any fun x => x.2.outs.any fun m => !h.buses.portOut.contains m.bus, .range),
   ((someOf q.rx).any fun x => (aesBuses x.2).any fun n => !h.buses.portIn.contains n, .range),
   ((someOf q.tx).any fun x => (aesBuses x.2).any fun n => !h.buses.portOut.contains n, .range),
   ((someOf q.pdm).any fun x => x.2.mics.any fun m => !h.buses.portIn.contains m.2, .range)]

/-- BUSES against UNITS, CVIO and PLACE. -/
def busRefs (p : Part) (h : Hood) : Bool :=
  ((h.buses.engOut ++ h.buses.engIn).any fun x => notEnabledUnit p.engines h.units.engines x.2) ||
  (h.buses.cv.any fun x => decide (x.1 < p.cvs) && (Store.get none h.cv x.1).isNone) ||
  (h.buses.sets.any fun x => (Store.get none h.place x.1).isNone)

/-- What an event or a parameter word of EVMAP names: a group, an engine with its tap or line, a CV channel, a region. -/
def evmapRef (p : Part) (h : Hood) (op target w4 : Nat) : Bool :=
  if op ≤ 7 then decide (h.groups.length ≤ target)
  else if op ≤ 12 then
    decide (15 < target) || notEnabledUnit p.engines h.units.engines target ||
    (op == opDelaySet &&
      (if w4 / 2 ^ 28 = 0 then (Store.get none h.dram.taps (w4 % 2 ^ 28)).isNone else (Store.get none h.dram.lines (w4 % 2 ^ 28)).isNone))
  else if op = opCvSet then decide (15 < target) || (decide (target < p.cvs) && (Store.get none h.cv target).isNone)
  else op == opRegionEnable && (Store.get none h.dram.regions target).isNone

/-- The events and the parameter words of EVMAP, as opcode, TARGET and word 4. -/
def evmapNames (e : HEvmap) : List (Nat × Nat × Nat) :=
  let ev := fun (r : EvRec) => (evOp r, evTarget r, Words.u r 4)
  ((someOf e.templates).map fun x => ev x.2) ++
  ((someOf e.uarts).flatMap fun u => match u.2 with | .midi l => l.map (fun m => ev m.rec_) | .dmx l => l.map (fun m => ev m.rec_)) ++
  (e.atoms.flatMap fun a => a.map fun x => (x.op, x.target, x.w4))

/-- R339: an end of a path whose interface PORTS does not give; `rx`: the end is an input. -/
def endAbsent (h : Hood) (rx : Bool) (w : Word) : Bool :=
  if endKind w = 1 then (Store.get none h.ports.saps (endUnit w)).isNone
  else if endKind w = 2 then (Store.get none (if rx then h.ports.rx else h.ports.tx) (endUnit w)).isNone
  else false

/-- R339: the end may pass through the ASRC. -/
def endAsync (h : Hood) (rx : Bool) (w : Word) : Bool :=
  if endKind w = 1 then (match Store.get none h.ports.saps (endUnit w) with | some x => asyncDomain h.clocks x.domain | none => false)
  else if endKind w = 2 then
    (match Store.get none (if rx then h.ports.rx else h.ports.tx) (endUnit w) with | some x => asyncDomain h.clocks x.domain | none => false)
  else endKind w == 3 && (someOf h.ports.pdm).any fun x => asyncDomain h.clocks x.2.domain

/-- R339: MIN and MAX are equal except on an ASRC path. -/
def pathRefs (h : Hood) : Bool :=
  h.paths.any fun p => endAbsent h true p.input || endAbsent h false p.output ||
    (p.min != p.max && !endAsync h true p.input && !endAsync h false p.output)

/-- Step 12, cross-section part, of a section. -/
def refConds (p : Part) (h : Hood) (ty inst : Nat) : List (Bool × Err) :=
  match ty with
  | 0x02 => [(clockRefs h, .range)]
  | 0x03 => [((dramOwners h.dram).any fun e => notEnabledUnit p.engines h.units.engines e, .range)]
  | 0x05 => portRefs p h
  | 0x06 => [(busRefs p h, .range)]
  | 0x07 => h.templates.flatMap (templateRefs h)
  | 0x08 => [(h.groups.any (groupRefs h), .range)]
  | 0x09 => [((evmapNames h.evmap).any fun x => evmapRef p h x.1 x.2.1 x.2.2, .range)]
  | 0x0D => [((someOf h.cv).any fun kc => kc.2.bsrc && !h.buses.cv.contains (kc.1, kc.2.bus), .range)]
  | 0x0E => [(pathRefs h, .range)]
  | 0x0F => (match Store.get none h.place inst with | some p => [(placeRefs h inst p, .range)] | none => [])
  | 0x10 => [(h.payload.any fun x => x.1 == inst && !inRegion h inst 0 x.2.length, .range)]
  | _ => []

/-- R256, step 13: an interface routes a channel through the ASRC. -/
def usesAsrc (h : Hood) : Bool := asrcChannels h.clocks h.ports != 0

/-- R1, R7, step 14: the types of section that name a unit which the variant lacks. -/
def unitAbsent (p : Part) (h : Hood) : List (Nat × Bool) :=
  let u := h.units
  let q := h.ports
  [(0x01, decide (2 ^ p.clusters ≤ u.clusters) || decide (2 ^ p.engines ≤ u.engines) || decide (2 ^ 8 ≤ u.saps) || decide (2 ^ p.aes ≤ u.rx) ||
     decide (2 ^ p.aes ≤ u.tx) || decide (2 ^ 4 ≤ u.pdm) || (u.twin && !p.twin)),
   (0x02, (List.range 4).any fun d => h.clocks.kind.getD d 0 == 2 && decide (p.aes ≤ h.clocks.index.getD d 0)),
   (0x03, (dramOwners h.dram).any fun e => decide (p.engines ≤ e)),
   (0x05, ((someOf q.saps).any fun x => decide (8 ≤ x.1)) || ((someOf q.rx).any fun x => decide (p.aes ≤ x.1)) ||
     ((someOf q.tx).any fun x => decide (p.aes ≤ x.1)) || ((someOf q.pdm).any fun x => decide (4 ≤ x.1) || decide (2 ^ p.pdmLines ≤ x.2.lines))),
   (0x06, ((h.buses.engOut ++ h.buses.engIn).any fun x => decide (p.engines ≤ x.2)) || (h.buses.cv.any fun x => decide (p.cvs ≤ x.1))),
   (0x09, (evmapNames h.evmap).any fun x =>
     (decide (8 ≤ x.1) && decide (x.1 ≤ 12) && decide (p.engines ≤ x.2.1)) || (x.1 == opCvSet && decide (p.cvs ≤ x.2.1))),
   (0x0D, (someOf h.cv).any fun kc => decide (p.cvs ≤ kc.1))]

end Sys2Proof.Machine
end

