-- ==== Sys2Proof/Machine/Blocking.lean ====
section
/-! DEFINITION. Blocking: its start, the HOOD_FIFO, pass 1 with its fifteen steps, and pass 2 (R66 to R82). -/

namespace Sys2Proof.Machine

/-! ## Reading the image (R75) -/

/-- The bytes that the source has written in this pass. -/
def sentBytes (s : State) : List Byte := wordBytes (s.block.got ++ s.block.fifo)

/-- n bytes of the image from offset off, if the source has supplied them; past LENGTH an image that is complete has zeros. -/
def imgGet (s : State) (off n : Nat) : Option (List Byte) :=
  if s.block.src = 0 then some (Memory.readN 0xFF s.flash (s.block.qaddr * 65536 + off) n)
  else
    let bs := sentBytes s
    if off + n ≤ bs.length then some ((bs.drop off).take n)
    else if s.block.need then none
    else some (((bs ++ List.replicate (off + n) 0).drop off).take n)

/-- R75: whether more words are expected, after those taken: LENGTH is the third word. -/
def needWords (ws : Words) : Bool := decide (ws.length < 3) || decide (4 * ws.length < Words.u ws 2)

/-- The loader takes k words from the FIFO. -/
def fifoTake (k : Nat) (s : State) : State :=
  let b := s.block
  if b.fifo.isEmpty || k == 0 then s
  else { s with block := { b with
    got := b.got ++ b.fifo.take k, fifo := b.fifo.drop k, emptyAt := if b.fifo.length ≤ k then s.now else b.emptyAt } }

/-! ## The header and the directory (R66 to R71) -/

/-- The header field at an offset. -/
def hdrWord (h : List Byte) (off : Nat) : Nat := leNat ((h.drop off).take 4)

/-- An entry of the section directory (R69). -/
structure DirEnt where
  type : Nat
  inst : Nat
  rsvd : Nat
  off : Nat
  size : Nat
  crc : Nat
  digest : List Byte
  deriving DecidableEq, Repr, Inhabited

/-- Bytes of n directory entries, padded. -/
def dirLen (n : Nat) : Nat := 64 * ceilDiv (48 * n) 64

/-- An entry from its 48 bytes. -/
def dirEnt (bs : List Byte) : DirEnt :=
  let w := fun (i : Nat) => hdrWord bs (4 * i)
  ⟨bits (w 0) 31 24, bits (w 0) 23 16, bits (w 0) 15 0, w 1, w 2, w 3, (bs.drop 16).take 32⟩

/-- n entries of a directory. -/
def dirEnts : Nat → List Byte → List DirEnt
  | 0, _ => []
  | n + 1, bs => dirEnt bs :: dirEnts n (bs.drop 48)

/-- The next multiple of 64. -/
def up64 (n : Nat) : Nat := 64 * ceilDiv n 64

/-- R67: the fields that a header gives. -/
def hdrOf (h : List Byte) : HHeader :=
  { ver := hdrWord h 0x10, level := hdrWord h 0x14, parts := hdrWord h 0x18, ownsig := bitAt (hdrWord h 0x1C) 2
    twin := bitAt (hdrWord h 0x1C) 1, det := bitAt (hdrWord h 0x1C) 0, fwMin := hdrWord h 0x20, dramMin := hdrWord h 0x24 }

/-! ## Verdicts -/

/-- What pass 1 finds: it waits for words of the image, fails with a code at an entry and an offset, or passes. -/
inductive Verdict where
  | wait
  | fail (e : Err) (entry off : Nat)
  | pass
  deriving DecidableEq, Repr

/-- The verdict of checks in order, each with its code, entry and offset, and what follows when none fails. -/
def checks : List (Bool × Err × Nat × Nat) → Verdict → Verdict
  | [], v => v
  | (b, e, k, o) :: t, v => if b then .fail e k o else checks t v

/-- Two verdicts in order. -/
def Verdict.andThen (a b : Verdict) : Verdict := match a with | .pass => b | _ => a

/-- Step 1 (R67). -/
def step1 (h : List Byte) : Verdict :=
  let w := hdrWord h
  checks
    [(w 0 != 0x48445657, .format, 0xFF, 0), (w 4 / 2 ^ 16 != 1, .format, 0xFF, 4), (w 0x14 / 2 ^ 8 != 0, .format, 0xFF, 0x14),
     (w 0x18 / 2 ^ 4 != 0, .format, 0xFF, 0x18), (w 0x1C / 2 ^ 3 != 0, .format, 0xFF, 0x1C),
     (!zeroBytes ((h.drop 0x28).take 16), .format, 0xFF, 0x28), (w 0x14 == 0, .format, 0xFF, 0x14),
     (!(w 0x24 == 0 || w 0x24 == 1024 || w 0x24 == 2048 || w 0x24 == 4096), .format, 0xFF, 0x24)] .pass

/-- Steps 2 and 3. -/
def step23 (h : List Byte) : Verdict :=
  let w := hdrWord h
  checks
    [(w 0x3C != crc32 (h.take 0x3C), .check, 0xFF, 0x3C), (w 8 % 64 != 0 || decide (0x08000000 < w 8), .format, 0xFF, 8),
     (w 0xC == 0 || decide (128 < w 0xC), .format, 0xFF, 0xC)] .pass

/-- Step 4. -/
def step4 (h dir : List Byte) : Verdict := checks [(hdrWord h 0x38 != crc32 dir, .check, 0xFF, 0x38)] .pass

/-- Step 5 (R71 to R73): the signature block b at offset sb, over the signed message m. -/
def step5 (s : State) (h m b : List Byte) (sb : Nat) : Verdict :=
  let key := hdrWord b 0
  let own := bitAt (hdrWord h 0x1C) 2
  let okey := imgPart b 0x44 64
  let osig := imgPart b 0x84 64
  let dg := sha256 m
  checks
    [(decide (3 < key), .format, 0xFF, sb), (!zeroBytes (imgPart b 0xC4 60), .format, 0xFF, sb + 0xC4),
     (!own && !zeroBytes okey, .format, 0xFF, sb + 0x44), (!own && !zeroBytes osig, .format, 0xFF, sb + 0x84),
     (bitAt s.fuses.toolRevoked key, .security, 0xFF, sb),
     (!ecdsaVerify (Config.toolKey key) dg (imgPart b 4 64), .security, 0xFF, sb + 4),
     (s.fuses.lock && !own, .security, 0xFF, 0x1C), (s.fuses.lock && sha256 okey != s.fuses.owner, .security, 0xFF, sb + 0x44),
     (own && !ecdsaVerify okey dg osig, .security, 0xFF, sb + 0x84)] .pass

/-- Steps 6 to 8. -/
def step678 (s : State) (h : List Byte) : Verdict :=
  checks
    [(!bitAt (hdrWord h 0x18) s.part.bit, .absent, 0xFF, 0x18), (decide (behavLevel < hdrWord h 0x14), .incompat, 0xFF, 0x14),
     (decide (fwVersion s < hdrWord h 0x20), .incompat, 0xFF, 0x20)] .pass

/-- R69: the entries from number k on; each section begins at `pos`, after the type and instance `prev`. -/
def dirOrder (k pos prev : Nat) : List DirEnt → List (Bool × Err × Nat × Nat)
  | [] => []
  | e :: t =>
    let o := 64 + 48 * k
    let n := e.type * 256 + e.inst
    (e.rsvd != 0 || decide (n < prev), .format, 0xFF, o) :: (e.off != pos, .format, 0xFF, o + 4) :: dirOrder (k + 1) (up64 (e.off + e.size)) n t

/-- End of the last section. -/
def dirEnd (es : List DirEnt) (first : Nat) : Nat := es.foldl (fun _ e => e.off + e.size) first

/-- R69: the padding after a section is zero. R81 ends step 10 before the sections arrive and bounds the time of a failure by
the bytes up to the failing item, so each stretch of padding is examined after the section that it follows. R436 lists no
padding byte: ENTRY and OFFSET are those of a part of the image outside the sections, 0xFF and the start of the padding
(DESIGN CHOICE, log entry 57). -/
def padding (s : State) (e : DirEnt) : Verdict :=
  let a := e.off + e.size
  match imgGet s a (up64 a - a) with
  | none => .wait
  | some bs => if zeroBytes bs then .pass else .fail .format 0xFF a

/-- Step 9 (R69), apart from the padding between sections. -/
def step9 (h dir : List Byte) (es : List DirEnt) (first : Nat) : Verdict :=
  let e := dirEnd es first
  let len := hdrWord h 8
  checks (dirOrder 0 first 0 es ++ [(decide (len < e) || decide (e + 63 < len), .format, 0xFF, 8),
    (!zeroBytes (dir.drop (48 * es.length)), .format, 0xFF, 64 + 48 * es.length)]) .pass

/-- R70: a type of which there is one instance. -/
def singleType (t : Nat) : Bool := !(t == 0x0B || t == 0x0C || t == 0x0F || t == 0x10)

/-- R70: whether a directory holds a type, and an entry of a type and an instance. -/
def hasType (es : List DirEnt) (t : Nat) : Bool := es.any fun e => e.type == t
def hasEnt (es : List DirEnt) (t i : Nat) : Bool := es.any fun e => e.type == t && e.inst == i

/-- R70: what entry number k is refused for; `seen`: the entries before it. The failing field is TYPE and INSTANCE, in the
directory (R436). -/
def presence (s : State) (dram : Nat) (seen : List DirEnt) (k : Nat) (e : DirEnt) : List (Bool × Err × Nat × Nat) :=
  let eng := e.type == 0x0B || e.type == 0x0C
  [((eng && decide (e.inst ≤ 15) && decide (s.part.engines ≤ e.inst)) || (e.type == 0x0D && s.part.cvs == 0), .absent, 0xFF, 64 + 48 * k),
   (e.type == 0 || decide (0x10 < e.type) || hasEnt seen e.type e.inst || (singleType e.type && e.inst != 0) || (eng && decide (15 < e.inst)) ||
     (e.type == 0x0F && decide (7 < e.inst)) || ((e.type == 3 || e.type == 0x0F || e.type == 0x10) && dram == 0), .format, 0xFF, 64 + 48 * k)]

/-- R70, R76: the entries in directory order. -/
def presences (s : State) (dram : Nat) : List DirEnt → Nat → List DirEnt → List (Bool × Err × Nat × Nat)
  | _, _, [] => []
  | seen, k, e :: t => presence s dram seen k e ++ presences s dram (seen ++ [e]) (k + 1) t

/-- Step 10 (R70, R76). What no field of the image holds, such as a missing type, has OFFSET 0 (log entry 57). -/
def step10 (s : State) (h : List Byte) (es : List DirEnt) : Verdict :=
  let hd := hdrOf h
  let bad := [1, 2, 4, 6, 0x0E].any (fun t => !hasType es t) || hasType es 3 != (hd.dramMin != 0) || hasType es 7 != hasType es 8 ||
    (es.any fun e => e.type == 0x0C && !hasEnt es 0x0B e.inst)
  checks (presences s hd.dramMin [] 0 es ++ [(bad, .format, 0xFF, 0), (hd.twin && !hd.det, .format, 0xFF, 0x1C)]) .pass

/-! ## The sections -/

/-- Bytes of a section. -/
def secBytes (s : State) (e : DirEnt) : Option (List Byte) := imgGet s e.off e.size

/-- Step 11 for entry number k. -/
def step11 (k : Nat) (e : DirEnt) (bs : List Byte) : Verdict :=
  checks [(e.crc != crc32 bs, .check, k, 0), (e.digest != sha256 bs, .check, k, 0)] .pass

/-- R82: bytes of the hood copy: the image up to the end of the last on-chip section. -/
def copyBytes (es : List DirEnt) (first : Nat) : Nat := dirEnd (es.filter fun e => decide (e.type ≤ 0x0E)) first

/-- R82: size of its region in MB; none without DRAM. -/
def copyMbOf (dram : Nat) (es : List DirEnt) (first : Nat) : Nat := if dram = 0 then 0 else ceilDiv (copyBytes es first) (2 ^ 20)

/-- R318: a type whose section is held in the configuration area of control SRAM. -/
def sramType (t : Nat) : Bool := [1, 2, 3, 4, 5, 6, 9, 0x0D, 0x0E].contains t

/-- The first entry, from number k, at which the sections of certain types pass a total; `sum`: bytes before it. -/
def tooMuch (p : Nat → Bool) (limit : Nat) : Nat → Nat → List DirEnt → Option Nat
  | _, _, [] => none
  | k, sum, e :: t =>
    let n := if p e.type then sum + e.size else sum
    if limit < n then some k else tooMuch p limit (k + 1) n t

/-- R82, R318: sections that are too large together: the one that passes a limit. -/
def sizesBad (es : List DirEnt) (dram : Nat) : Option Nat :=
  match tooMuch sramType (24 * 1024) 0 0 es with
  | some k => some k
  | none => if dram = 0 then none else tooMuch (fun t => decide (t ≤ 0x0E)) (8 * 2 ^ 20) 0 0 es

/-- OFFSET of an item in an encoding that the spec does not define: a free value. -/
def freeOff (s : State) : Nat := (Config.freeWord s.use).toNat % 2 ^ 24

/-- Steps 11 and 12, own part, section by section from number k (R76), each with its padding. `bad`: an entry whose encoding is malformed. -/
def sections (s : State) (hd : Hood) (copy : Nat) (bad : Option (Nat × Err)) : Nat → List DirEnt → Verdict
  | _, [] => .pass
  | k, e :: t =>
    match secBytes s e with
    | none => .wait
    | some bs =>
      let own := firstOf (bodyConds s hd copy e.type e.inst)
      let enc := match bad with | some x => if x.1 = k then x.2 else .ok | none => .ok
      (step11 k e bs).andThen
        ((checks [(enc != .ok, enc, k, freeOff s), (own != .ok, own, k, freeOff s)] .pass).andThen
          ((padding s e).andThen (sections s hd copy bad (k + 1) t)))

/-- Step 12, cross-section part. -/
def crossRefs (s : State) (hd : Hood) : Nat → List DirEnt → List (Bool × Err × Nat × Nat)
  | _, [] => []
  | k, e :: t => let c := firstOf (refConds s.part hd e.type e.inst); (c != .ok, c, k, freeOff s) :: crossRefs s hd (k + 1) t

/-- Number of the first entry of a type; 0xFF without one. -/
def entryOf (es : List DirEnt) (t : Nat) : Nat := let k := es.findIdx fun e => e.type == t; if k < es.length then k else 0xFF

/-- Steps 13 to 15. -/
def step131415 (s : State) (hd : Hood) (es : List DirEnt) : Verdict :=
  let off := es.findIdx fun e => (e.type == 0x0B || e.type == 0x0C) && decide (e.inst < s.part.engines) && !bitAt hd.units.engines e.inst
  checks
    ([(hd.hdr.det && usesAsrc hd, .format, entryOf es 5, freeOff s)] ++
     (unitAbsent s.part hd).map (fun x => (x.2, Err.absent, entryOf es x.1, freeOff s)) ++
     [(decide (off < es.length), .format, off, freeOff s)]) .pass

/-! ## The structure (R436) -/

/-- PLACE and PAYLOAD sections of an image, whose bytes the spec defines. -/
def placesOf (s : State) (b : Hood) (es : List DirEnt) : Store (Option HPlace) :=
  es.foldl (fun m e =>
    if e.type = 0x0F then
      let base := match Store.get none b.place e.inst with | some p => p.set.base | none => 0
      Store.set none m e.inst (some (placeOf base ((secBytes s e).getD [])))
    else m) []
def payloadsOf (s : State) (es : List DirEnt) : List (Nat × List Byte) :=
  (es.filter fun e => e.type == 0x10).map fun e => (e.inst, (secBytes s e).getD [])

/-- R79, R179: an engine of the hood: a FULCODE alone has no data and all of X as its sample region. -/
def engineOf (b : Hood) (es : List DirEnt) (i : Nat) : Option HEngine :=
  if hasEnt es 0x0B i then
    (Store.get none b.engines i).map fun x => if hasEnt es 0x0C i then x else { x with x := [], xb := 32768, ya := [], yb := [] }
  else none

/-- The structure that an image describes: the header and the sections whose bytes the spec defines from the image, the
others as their decoding `b` gives them, and nothing of a section that is not there (log entry 50). -/
def structureOf (s : State) (h : List Byte) (es : List DirEnt) (b : Hood) : Hood :=
  let has := hasType es
  { b with
    hdr := hdrOf h
    dram := if has 3 then b.dram else Hood.empty.dram
    ports := if has 5 then b.ports else Hood.empty.ports
    templates := if has 7 then b.templates else []
    groups := if has 8 then b.groups else []
    evmap := if has 9 then b.evmap else Hood.empty.evmap
    curves := if has 0x0A then b.curves else []
    shapers := if has 0x0A then b.shapers else []
    engines := (List.range 16).foldl (fun m i => Store.set none m i (engineOf b es i)) []
    cv := if has 0x0D then b.cv else []
    place := placesOf s b es
    payload := payloadsOf s es }

/-! ## Pass 1 -/

/-- The parts of an image that every later check needs: header, padded directory, signature block. -/
def imgHead (s : State) : Option (List Byte) := imgGet s 0 64
def imgDir (s : State) (h : List Byte) : Option (List Byte) := imgGet s 64 (dirLen (hdrWord h 0xC))
def imgSig (s : State) (h : List Byte) : Option (List Byte) := imgGet s (64 + dirLen (hdrWord h 0xC)) 256

/-- Offset of the first section. -/
def firstSection (h : List Byte) : Nat := 64 + dirLen (hdrWord h 0xC) + 256

/-- Steps 9 and 10 for a header and a directory. -/
def pass1Dir (s : State) (h dir : List Byte) : Verdict :=
  let es := dirEnts (hdrWord h 0xC) dir
  (step9 h dir es (firstSection h)).andThen (step10 s h es)

/-- Steps 11 to 15 for a header, a directory and a decoding. -/
def pass1Body (s : State) (b : Hood) (bad : Option (Nat × Err)) (h dir : List Byte) : Verdict :=
  let es := dirEnts (hdrWord h 0xC) dir
  let hd := structureOf s h es b
  let dram := hd.hdr.dramMin
  (sections s hd (copyMbOf dram es (firstSection h)) bad 0 es).andThen <|
  let big := sizesBad es dram
  (checks [(big.isSome, .range, big.getD 0, freeOff s)] .pass).andThen <|
  (checks (crossRefs s hd 0 es) .pass).andThen (step131415 s hd es)

/-- R76: steps 1 to 10, and then what `next` makes of header and directory. -/
def pass1Then (s : State) (next : List Byte → List Byte → Verdict) : Verdict :=
  match imgHead s with
  | none => .wait
  | some h =>
    (step1 h).andThen <| (step23 h).andThen <|
    match imgDir s h with
    | none => .wait
    | some dir =>
      (step4 h dir).andThen <|
      match imgSig s h with
      | none => .wait
      | some sig =>
        (step5 s h (h ++ dir) sig (64 + dir.length)).andThen <| (step678 s h).andThen <| (pass1Dir s h dir).andThen (next h dir)

/-- R76: pass 1. -/
def pass1Verdict (s : State) (b : Hood) (bad : Option (Nat × Err)) : Verdict := pass1Then s (pass1Body s b bad)

/-- R81: STAGE while pass 1 waits for words: step 10 is complete or not. -/
def pass1Stage (s : State) : Nat := if pass1Then s (fun _ _ => .pass) = .pass then 2 else 1

/-! ## Starting and ending (R74, R77, R78) -/

/-- R74: what a write of BLOCK_CTL.START is refused for, apart from LOAD itself. -/
def startConds (s : State) (p : Port) (v : Nat) : List (Bool × Err) :=
  let src := bits v 25 24
  let m := s.mode.mode
  [((src == 1 && p == .spi) || (src == 2 && p == .host), .security),
   (!(m == .loader || m == .load || m == .ready), .mode), (src == 3, .rsvd), (m == .load, .busy)]

/-- R74: blocking starts; no engine runs in LOAD (R200). What becomes of a RUN that waits in READY is not stated: it is
dropped, also where pass 1 fails and READY returns (DESIGN CHOICE, log entry 53). -/
def startBlocking (v : Nat) (s : State) : State :=
  let src := bits v 25 24
  let from_ := s.mode.mode
  let s := stopEngines s
  { s with
    mode := { s.mode with mode := .load, pend := none }
    block := { s.block with
      src := src, qaddr := bits v 15 0, from_ := from_, stage := 1, need := src != 0, fifo := [], got := [], emptyAt := s.now
      head := [], body := none } }

/-- The block's record of an end with a code. -/
def blockEnd (e : Err) (entry off : Nat) (b : Block) : Block :=
  { b with stage := 0, need := false, fifo := [], got := [], result := e.code, failEntry := entry, failOff := min off 0xFFFFFF }

/-- R77: pass 1 fails: the Derku returns to the mode in which blocking began, the hood unchanged. -/
def failPass1 (e : Err) (entry off : Nat) (s : State) : State :=
  raiseInt 2 (used { s with mode := { s.mode with mode := s.block.from_ }, block := blockEnd e entry off s.block })

/-- R78: pass 2 fails: LOADER with no hood loaded, every switched domain off. -/
def failPass2 (e : Err) (entry off : Nat) (s : State) : State :=
  let s := unitsReset s
  raiseInt 2 (used { s with
    mode := { s.mode with mode := .loader }, hood := none, dramMb := 0, dram := []
    block := { blockEnd e entry off s.block with head := [], body := none, digest := [], copyMb := 0, copyLen := 0, copyDigest := [] } })

/-- R78: pass 1 has passed: the units that blocking configures are given up. -/
def beginPass2 (h dir : List Byte) (b : Hood) (s : State) : State :=
  let body := structureOf s h (dirEnts (hdrWord h 0xC) dir) b
  let s := unitsReset s
  { s with
    hood := none
    block := { s.block with
      stage := 3, need := false, fifo := [], got := [], head := h ++ dir, body := some body, digest := []
      copyMb := 0, copyLen := 0, copyDigest := [] } }

/-- PASS_1 (R76): `body`: what the sections' encoding says; `bad`: an entry whose encoding is malformed, with its code. -/
def execPass1 (body : Hood) (bad : Option (Nat × Err)) (s : State) : Host.Outcome State Fault Refusal :=
  if s.mode.mode = .load ∧ (s.block.stage = 1 ∨ s.block.stage = 2) then
    match pass1Verdict s body bad with
    | .wait => .next (fifoTake 1024 { s with block := { s.block with stage := pass1Stage s } })
    | .fail e k o => .next (failPass1 e k o s)
    | .pass =>
      match imgHead s with
      | some h => (match imgDir s h with | some dir => .next (beginPass2 h dir body s) | none => .next s)
      | none => .next s
  else .next s

/-! ## Pass 2 (R78, R82) -/

/-- R431: the DRAM sizes that there are. -/
def dramSize (mb : Nat) : Bool := mb == 1024 || mb == 2048 || mb == 4096

/-- R78 step 1: the DRAM is trained and its density read. -/
def trainErr (b : Hood) (dramMb : Nat) (trained : Bool) : Err :=
  if b.hdr.dramMin = 0 then .ok else if !trained || !dramSize dramMb then .check else if dramMb < b.hdr.dramMin then .range else .ok

/-- R78 step 2: the image is read again and compared; each section's CRC and DIGEST are recomputed. -/
def again (s : State) : Nat → List DirEnt → Verdict
  | _, [] => .pass
  | k, e :: t =>
    match secBytes s e with
    | none => .wait
    | some bs => (match step11 k e bs with | .fail c n _ => .fail c n (freeOff s) | v => v.andThen (again s (k + 1) t))

/-- R78 step 2. -/
def installVerdict (s : State) : Verdict :=
  let head := s.block.head
  let n := head.length
  match imgGet s 0 n with
  | none => .wait
  | some bs => if bs = head then again s 0 (dirEnts (hdrWord head 0xC) (head.drop 64)) else .fail .check 0xFF (freeOff s)

/-- R78, R82, R437: what pass 2 writes to DRAM: PLACE copies, PAYLOAD sections and the hood copy. -/
def dramImage (s : State) (b : Hood) (copy : Nat) (img : List Byte) : Memory :=
  let m := (someOf b.place).foldl (fun m kp => Memory.writeN 0 m kp.2.set.base kp.2.data) s.dram
  let m := b.payload.foldl (fun m kp =>
    match Store.get none b.dram.regions kp.1 with | some r => Memory.writeN 0 m r.base kp.2 | none => m) m
  Memory.writeN 0 m ((s.dramMb - copy) * 2 ^ 20) img

/-- R78: the structure is installed and the initial state is set up (R79); the digest of the hood copy is retained (R82). -/
def finishBlocking (s : State) : State :=
  match s.block.body with
  | none => s
  | some b =>
    let head := s.block.head
    let es := dirEnts (hdrWord head 0xC) (head.drop 64)
    let first := firstSection head
    let copy := copyMbOf b.hdr.dramMin es first
    let img := (imgGet s 0 (copyBytes es first)).getD []
    let s := if b.hdr.dramMin = 0 then { s with dramMb := 0, dram := [] } else { s with dram := dramImage s b copy img }
    let s := { s with block := { blockEnd .ok s.block.failEntry s.block.failOff s.block with
      head := [], body := none, digest := sha256 (head.take (64 + dirLen (hdrWord head 0xC))), copyMb := copy
      copyLen := if copy = 0 then 0 else img.length
      copyDigest := if copy = 0 then [] else sha256 img } }
    raiseInt 2 (install b s)

/-- R78, R81: pass 2 goes on from its install step; the next PASS_2 is its step 3. -/
def pass2Install (s : State) : State :=
  match installVerdict s with
  | .wait => fifoTake 1024 s
  | .fail e k o => failPass2 e k o s
  | .pass => { s with block := { s.block with stage := 5, need := false } }

/-- PASS_2 (R78): `dramMb` and `trained`: what training finds; a density that the interface does not allow (R431) is a failure
of training. It is given once for steps 1 and 2, again while the image is awaited, and once for step 3 (log entry 58). -/
def execPass2 (dramMb : Nat) (trained : Bool) (s : State) : Host.Outcome State Fault Refusal :=
  if s.mode.mode = .load then
    match s.block.body with
    | none => .next s
    | some b =>
      if s.block.stage = 3 then
        let e := trainErr b dramMb trained
        if e = .ok then
          .next (pass2Install { s with
            dramMb := if b.hdr.dramMin = 0 then 0 else dramMb
            block := { s.block with stage := 4, need := s.block.src != 0, emptyAt := s.now } })
        else .next (failPass2 e 0xFF (freeOff s) s)
      else if s.block.stage = 5 then .next (finishBlocking s)
      else .next (pass2Install s)
  else .next s

/-! ## The FIFO (R75) -/

/-- Words of HOOD_FIFO. -/
def fifoWords : Nat := 1024

/-- R75: what a write of HOOD_FIFO is refused for. -/
def fifoConds (s : State) : List (Bool × Err) :=
  [(decide (s.mode.mode ≠ .load) || !s.block.need, .mode), (decide (fifoWords ≤ s.block.fifo.length), .full)]

/-- R75: a word enters the FIFO. -/
def fifoPut (w : Word) (s : State) : State :=
  let b := s.block
  { s with block := { b with fifo := b.fifo ++ [w], need := needWords (b.got ++ b.fifo ++ [w]) } }

/-- What the loader has taken from the FIFO by now is not stated: a free value. -/
def fifoDrain (s : State) : State := fifoTake (Config.freeNat s.use % (s.block.fifo.length + 1)) (used s)

/-- 1.0 s in core cycles (R75). -/
def secondCycles : Nat := 786432000

/-- HOOD_FIFO_STARVATION (R75): the FIFO has been empty for 1.0 s while NEED = 1. -/
def execHoodFifoStarvation (t : Nat) (s : State) : Host.Outcome State Fault Refusal :=
  let s := later t s
  let b := s.block
  if s.mode.mode = .load ∧ b.need = true ∧ b.fifo.isEmpty = true ∧ b.emptyAt + secondCycles ≤ t then
    .next (if b.stage ≤ 2 then failPass1 .format 0xFF (freeOff s) s else failPass2 .format 0xFF (freeOff s) s)
  else .next s

end Sys2Proof.Machine
end

