-- ==== Sys2Proof/Machine/CvCmds.lean ====
section
/-! DEFINITION. Events of the CV outputs and of the monitoring converter (R391 to R396, R420, R421). -/

namespace Sys2Proof.Machine

/-- R391, R393: a time of a channel that has passed by t is over. -/
def timeOver (t : Nat) (u : Option Nat) : Option Nat := match u with | some x => if x ≤ t then none else u | none => none

/-- SINE_GENERATOR_UPDATE (R392): an edge of REFCLK/128. -/
def execSineGeneratorUpdate (t : Nat) (s : State) : Host.Outcome State Fault Refusal :=
  let s := later t s
  if framesRun s then
    .next { s with cv := { s.cv with chans := s.cv.chans.mapIdx fun c x =>
      if (hcvOf s c).isSome && x.gen then cvUpdate (cvBipolar s c && s.flt.vmid) t x else x } }
  else .next s

/-- SPAN_CHANGE_END (R391). -/
def execSpanChangeEnd (c : BitVec 4) (t : Nat) (s : State) : Host.Outcome State Fault Refusal :=
  .next (updCv c.toNat (fun x => { x with spanUntil := timeOver t x.spanUntil }) (later t s))

/-- DEGLITCH_END (R393). -/
def execDeglitchEnd (c : BitVec 4) (t : Nat) (s : State) : Host.Outcome State Fault Refusal :=
  .next (updCv c.toNat (fun x => { x with holdUntil := timeOver t x.holdUntil }) (later t s))

/-! ## The monitoring converter -/

/-- R395, R396: the reading of channel c is compared, where the rules allow it. -/
def monitorChannel (c reading t : Nat) (s : State) : State :=
  match hcvOf s c with
  | some h =>
    if !cvClamped s c && monCompared t (cvAt s c) then
      updCv c (fun x => { monCompare h (cvHolds s) reading { x with dac := drivenCode s c } with dac := x.dac }) s
    else s
  | none => s

/-- R420: VMID is in its range. -/
def vmidOk (reading : Nat) : Bool := decide (1800 ≤ reading) && decide (reading ≤ 1924)

/-- R414, R420: class 0x0C: the clamps of the bipolar channels close, with their bits set. -/
def vmidFault (s : State) : State :=
  raiseFault 0x0C 0xFF { s with
    flt := { s.flt with vmid := true }
    cv := { s.cv with chans := s.cv.chans.mapIdx fun c x =>
      if (hcvOf s c).isSome && cvBipolar s c then { x with fault := true, faultClamp := true } else x } }

/-- R420: slot 17. -/
def monitorVmid (reading : Nat) (s : State) : State :=
  if vmidOk reading then
    let n := min 16 (s.flt.vgood + 1)
    { s with flt := { s.flt with vgood := n, vbad := 0, vmid := s.flt.vmid && decide (n < 16) } }
  else
    let n := min 16 (s.flt.vbad + 1)
    let first := decide (n = 16) && !s.flt.vmid
    let s := { s with flt := { s.flt with vbad := n, vgood := 0 } }
    if first then vmidFault s else s

/-- 160 and 150 degrees in 1/16 degree (R421). -/
def shutdownTemp : Int := 2560
def recoverTemp : Int := 2400

/-- R420, R421: slot 19. -/
def monitorTemp (reading : Nat) (s : State) : State :=
  let x := Config.temperature reading
  let hot := if shutdownTemp ≤ x then min 16 (s.flt.hot + 1) else 0
  let trip := decide (hot = 16) && !s.flt.thermal
  let s := { s with flt := { s.flt with
      temp := x, tmax := max s.flt.tmax x, hot := hot, thermal := (s.flt.thermal || trip) && decide (recoverTemp ≤ x) } }
  if trip then raiseFault 0x08 0xFF s else s

/-- MONITOR_SLOT (R394): slot i has given a reading at time t; the converter runs while ANA is powered. -/
def execMonitorSlot (i : Nat) (reading : BitVec 12) (t : Nat) (s : State) : Host.Outcome State Fault Refusal :=
  let s := later t s
  if 20 ≤ i then .fault (.illFormed "MONITOR_SLOT")
  else if bitAt (poweredMask s) 11 then
    let n := reading.toNat
    let s := { s with cv := { s.cv with mon := setAt s.cv.mon i n } }
    .next (if i < 16 then monitorChannel i n t s else if i = 17 then monitorVmid n s else if i = 19 then monitorTemp n s else s)
  else .next s

end Sys2Proof.Machine
end

