-- ==== Sys2Proof/Machine/AudioCmds.lean ====
section
/-! DEFINITION. Commands of the audio interfaces: port frames, stops and restarts, alignment triggers, the ASRC, and the
AES3 receivers and transmitters (chapter 11). -/

namespace Sys2Proof.Machine

/-- The audio I/O is powered. -/
def audioOn (s : State) : Bool := s.mode.mode != .reset && s.mode.mode != .sleep

/-! ## Serial audio ports (R240 to R248) -/

/-- R243: port p stops. -/
def sapStop (p : Nat) (s : State) : State :=
  raiseInt 8 (updSap p (fun x => { x with iface := { x.iface with stopped := true, good := 0, num := none, fix := none, atTick := false, shifted := x.iface.shifted.map fun _ => 0 }, sent := [], before := [] }) s)

/-- R243: port p has seen no frame start for 1.2 N cycles at time t, with N of its domain's rate. -/
def sapStopDue (s : State) (p t : Nat) : Bool :=
  let i := (sapAt s p).iface
  let n := match hportOf s p with | some h => domCycles s h.domain | none => (rateOf s).cycles
  !i.stopped && decide (i.s0.getD s.audio.since + expiryTime n ≤ t)

/-- R243: port p restarts, with its numbering to be fixed at the next tick. -/
def sapRestart (p : Nat) (s : State) : State :=
  raiseInt 8 (updSap p (fun x => { x with iface := { x.iface with stopped := false, good := 0, atTick := true } }) s)

/-- R240, R242: samples of the mapped input slots of a frame, from its BCLK cycles. -/
def slotSamples (h : HPort) (cyc : List PinCycle) : List Int := h.ins.map fun m => slotIn (widthOf h.wlen) (slotWord h cyc m.line m.slot)

/-- R243, R245, R254, R256: what port p stores of the frame that ended; a port with no input slot is no input interface, and one
of an asynchronous domain gives its samples to the ASRC. -/
def sapStore (h : HPort) (ok : Bool) (cyc : List PinCycle) (s : State) (i : Iface) : Iface :=
  if ok && !h.ins.isEmpty && grpStarted s h then
    if syncDomain s h.domain then
      (match i.num with | some k => if framesRun s then i.capture k (slotSamples h cyc) else i | none => i)
    else { i with asrc := slotSamples h cyc }
  else i

/-- R246, R254, R256, R404: what an output interface of n channels (none: no output interface) sends from the start of its frame. Without frames and
outside HOLD it sends zero; in HOLD it repeats; an asynchronous one sends what the ASRC gives, zero while that is unlocked (R257). -/
def sendFrame (d n : Nat) (on : Bool) (s : State) (i : Iface) : Iface :=
  let dead := !syncDomain s d && !(domAt s d).lock
  if effMode s = .hold then { i with shifted := if s.clocks.muted || dead then i.shifted.map fun _ => 0 else i.shifted, fill := true }
  else if !framesRun s || !on then { i with shifted := List.replicate n 0, fill := true }
  else if syncDomain s d then
    match i.num with
    | some m => if n = 0 then i else i.shift m
    | none => { i with shifted := List.replicate n 0, fill := true }
  else if !dead then { i with shifted := (List.range n).map fun c => (Config.asrcOut (s.use + c) c i.asrc).toInt, fill := false }
  else { i with shifted := List.replicate n 0, fill := true }

/-- A frame start at t of an interface of domain d, whether or not it numbers its frames. -/
def startIface (d t : Nat) (s : State) (i : Iface) : Iface :=
  if syncDomain s d && inPeriod s then i.start (rateOf s).cycles t s.clocks.tick s.clocks.prev else { i with s1 := i.s0, s0 := some t, num := none }

/-- PORT_FRAME of a serial audio port: a frame start at t, which ends a frame of `bclk` cycles with the pins given. While the port is
stopped it counts and captures nothing else (R243). -/
def sapFrame (h : HPort) (p t bclk : Nat) (cyc : List PinCycle) (s : State) : State :=
  let s := if sapStopDue s p t then sapStop p s else s
  let s := if (sapAt s p).iface.stopped && decide (16 ≤ (sapAt s p).iface.good) then sapRestart p s else s
  let i := (sapAt s p).iface
  let ok := bclk == frameLength h
  let wrong := i.s0.isSome && !ok
  if i.stopped then
    updSap p (fun x => { x with
      framerr := if wrong then satInc 255 x.framerr else x.framerr
      iface := { x.iface with good := if ok && i.s0.isSome then i.good + 1 else 0, s1 := i.s0, s0 := some t } }) s
  else
    let i := if i.s0.isSome then sapStore h ok cyc s i else i
    let j := sendFrame h.domain h.outs.length (grpStarted s h) s (startIface h.domain t s i)
    let clamp := j.shifted.any fun v => (slotOut (widthOf h.wlen) v).2
    used (updSap p (fun x => { x with
      iface := j, framerr := if wrong then satInc 255 x.framerr else x.framerr, osat := x.osat || clamp
      before := x.sent, sent := sentWords h j.shifted }) s)

/-! ## AES3 transmitters (R262) -/

/-- A block start that is due takes place. -/
def txBlockDue (x : Nat) (s : State) : State := updTx x (fun a => if a.due then aesTxBlock a else a) s

/-- PORT_FRAME of a transmitter: a frame start at t. -/
def txFrame (h : HAes) (x t : Nat) (s : State) : State :=
  let s := txBlockDue x s
  let a := txAt s x
  let j := sendFrame h.domain 2 true s (startIface h.domain t s a.iface)
  let due := if syncDomain s h.domain then (match j.num with | some m => m % 192 == 0 | none => false) else a.pll && a.count % 192 == 0
  used (updTx x (fun a => { a with
    iface := j, due := due, count := if a.pll then a.count + 1 else a.count, pos := if due then 0 else (a.pos + 1) % 192 }) s)

/-- PORT_FRAME (R240, R243, R246, R262): of a port, with its pins in the BCLK cycles from the frame start before, cycle 0 of the
frame that ends, to the new one; pins in which no frame starts are none. -/
def execPortFrame (i : IfaceId) (t : Nat) (rise fall : List (BitVec 3)) (s : State) : Host.Outcome State Fault Refusal :=
  let s := later t s
  let cyc := pinCycles rise fall
  if audioOn s then
    match i with
    | .sap p =>
      (match hportOf s p.toNat with
       | some h => (match frameCycles h cyc with | some n => .next (sapFrame h p.toNat t n cyc s) | none => .next s)
       | none => .next s)
    | .tx x => (match htxOf s x.toNat with | some h => .next (txFrame h x.toNat t s) | none => .next s)
  else .next s

/-- PORT_STOP (R243): time t has come without a frame start. -/
def execPortStop (p : BitVec 3) (t : Nat) (s : State) : Host.Outcome State Fault Refusal :=
  let s := later t s
  .next (if audioOn s && (hportOf s p.toNat).isSome && sapStopDue s p.toNat t then sapStop p.toNat s else s)

/-- PORT_RESTART (R243): sixteen frames of correct length have been seen. -/
def execPortRestart (p : BitVec 3) (t : Nat) (s : State) : Host.Outcome State Fault Refusal :=
  let s := later t s
  let i := (sapAt s p.toNat).iface
  .next (if audioOn s && (hportOf s p.toNat).isSome && i.stopped && decide (16 ≤ i.good) then sapRestart p.toNat s else s)

/-- R248: a trigger of MODE m is seen at t by every armed group that has not started. -/
def triggerGroups (m t : Nat) (s : State) : State :=
  { s with audio := { s.audio with
      grps := s.audio.grps.mapIdx fun g x =>
        if grpModeOf s g == m && x.arm && !x.started && x.trig.isNone then { x with trig := some t } else x } }

/-- SYNC_START_TRIGGER (R248). -/
def execSyncStartTrigger (t : Nat) (s : State) : Host.Outcome State Fault Refusal := .next (triggerGroups 1 t (later t s))

/-- AES_TX_BLOCK_START (R262). -/
def execAesTxBlockStart (x : BitVec 2) (s : State) : Host.Outcome State Fault Refusal := .next (txBlockDue x.toNat s)

/-- AES_TX_PLL_LOCK (R262). -/
def execAesTxPllLock (x : BitVec 2) (s : State) : Host.Outcome State Fault Refusal :=
  .next (if audioOn s && (htxOf s x.toNat).isSome then updTx x.toNat (fun a => if a.pll then a else { a with pll := true, count := 0 }) s else s)

/-! ## The ASRC (R257) -/

/-- ASRC_LOCK (R257). -/
def execAsrcLock (d : BitVec 2) (s : State) : Host.Outcome State Fault Refusal := .next (asrcDue d.toNat s)

/-- ASRC_UNLOCK (R257). -/
def execAsrcUnlock (d : BitVec 2) (t : Nat) (s : State) : Host.Outcome State Fault Refusal := .next (asrcLost t d.toNat (later t s))

/-! ## AES3 receivers (R259 to R261) -/

/-- R311: change receiver r; a change of LOCK or NONAUD is an audio interrupt. -/
def rxChange (r : Nat) (f : AesRx → AesRx) (s : State) : State :=
  let a := rxAt s r
  let b := f a
  let s := updRx r (fun _ => b) s
  if a.lock != b.lock || a.nonaud != b.nonaud then raiseInt 8 s else s

/-- R244, R245: the numbering of a received frame that starts at t, and its capture. -/
def rxNumber (h : HAes) (t : Nat) (s : State) (a : AesRx) : AesRx :=
  if !a.lock then a
  else
    let i := startIface h.domain t s a.iface
    { a with iface :=
        if syncDomain s h.domain then (match i.num with | some k => if framesRun s then i.capture k a.cur else i | none => i)
        else { i with asrc := a.cur } }

/-- AES_FRAME_RECEIVE (R259 to R261). -/
def execAesFrameReceive (r : BitVec 2) (t : Nat) (a b : BitVec 28) (f : AesMarks) (s : State) : Host.Outcome State Fault Refusal :=
  let s := later t s
  match hrxOf s r.toNat with
  | some h =>
    .next (if audioOn s then rxChange r.toNat (fun x => rxNumber h t s (aesFrame a b f.z f.violation f.missing x)) s else s)
  | none => .next s

/-- AES_LOCK (R259). -/
def execAesLock (r : BitVec 2) (s : State) : Host.Outcome State Fault Refusal :=
  .next (if (hrxOf s r.toNat).isSome then rxChange r.toNat (fun x => if x.lock then x else aesDue x) s else s)

/-- AES_UNLOCK (R259). -/
def execAesUnlock (r : BitVec 2) (s : State) : Host.Outcome State Fault Refusal :=
  .next (if (hrxOf s r.toNat).isSome then rxChange r.toNat (fun x => if x.lock then aesDue x else x) s else s)

/-- AES_BLOCK_COMPLETE (R260). -/
def execAesBlockComplete (r : BitVec 2) (s : State) : Host.Outcome State Fault Refusal :=
  .next (if (hrxOf s r.toNat).isSome then rxChange r.toNat aesBlock s else s)

/-- NONAUDIO_RELEASE (R261). -/
def execNonaudioRelease (r : BitVec 2) (s : State) : Host.Outcome State Fault Refusal :=
  .next (if (hrxOf s r.toNat).isSome then
      rxChange r.toNat (fun x => if aesQuiet x then { x with nonaud := false, quiet := 0 } else x) s
    else s)

end Sys2Proof.Machine
end

