-- ==== Sys2Proof/Machine/PdmCmds.lean ====
section
/-! DEFINITION. Commands of the PDM groups (chapter 12). Those that are register writes are in PortCmds. -/

namespace Sys2Proof.Machine

/-- R311: change PDM group k; a change of STOP or VALID is an audio interrupt. -/
def pdmChange (k : Nat) (f : Pdm → Pdm) (s : State) : State :=
  let a := pdmAt s k
  let b := f a
  let s := updPdm k (fun _ => b) s
  if a.stopped != b.stopped || a.valid != b.valid then raiseInt 8 s else s

/-- R271: VALID becomes 1 at the frame start of sample S. -/
def pdmSettle (h : HPdm) (g : Pdm) : Pdm :=
  if !g.stopped && !g.valid && decide (presetSettle h.preset ≤ g.settle) then { g with valid := true } else g

/-- R272: the group has completed no output sample for 1.2 N cycles at time t. -/
def pdmStopDue (s : State) (h : HPdm) (k t : Nat) : Bool :=
  !(pdmAt s k).stopped && decide ((pdmAt s k).iface.s0.getD s.audio.since + expiryTime (domCycles s h.domain) ≤ t)

/-- R272: the group stops. -/
def pdmHalt (g : Pdm) : Pdm := { g with stopped := true, valid := false, stops := satInc 255 g.stops, iface := { g.iface with num := none } }

/-- R267 to R271: an output sample of a group completes at t: FRZ and bank changes apply, the samples of the frame that
starts here are formed, numbered and captured. -/
def pdmOutput (h : HPdm) (t : Nat) (rise fall : List (BitVec 16)) (s : State) (g : Pdm) : Pdm :=
  let g := { g with iface := startIface h.domain t s g.iface }
  let g := pdmSettle h g
  let r := pdmSample h g rise fall
  let g := pdmSwap { r.1 with settle := min (presetSettle h.preset) (g.settle + 1), frz := s.audio.frz, cur := r.2 }
  { g with iface :=
      if syncDomain s h.domain then (match g.iface.num with | some m => if framesRun s then g.iface.capture m r.2 else g.iface | none => g.iface)
      else { g.iface with asrc := r.2 } }

/-- A synchronising reset that has been triggered takes place (R270); a bank change waits for its boundary, and a stop for its
edges (R268, R272). -/
def pdmResetDue (h : HPdm) (g : Pdm) : Pdm := if g.srst then pdmReset h g else g

/-- PDM_OUTPUT_SAMPLE (R267), with the levels of the data lines at the R rising and the R falling edges of the sample: a stopped
group delivers nothing. -/
def execPdmOutputSample (k : BitVec 2) (t : Nat) (rise : List (BitVec 16)) (s : State) (fall : List (BitVec 16) := []) : Host.Outcome State Fault Refusal :=
  let s := later t s
  match hpdmOf s k.toNat with
  | some h =>
    if audioOn s then
      let s := if pdmStopDue s h k.toNat t then pdmChange k.toNat pdmHalt s else s
      .next (if (pdmAt s k.toNat).stopped then s else pdmChange k.toNat (pdmOutput h t rise fall s) s)
    else .next s
  | none => .next s

/-- PDM_SETTLED (R271). -/
def execPdmSettled (k : BitVec 2) (s : State) : Host.Outcome State Fault Refusal :=
  match hpdmOf s k.toNat with
  | some h => .next (pdmChange k.toNat (pdmSettle h) s)
  | none => .next s

/-- SYNCHRONISING_RESET (R270). -/
def execSynchronisingReset (k : BitVec 2) (s : State) : Host.Outcome State Fault Refusal :=
  match hpdmOf s k.toNat with
  | some h => .next (if audioOn s then pdmChange k.toNat (pdmResetDue h) s else s)
  | none => .next s

/-- PDM_STOP (R272): time t has come without an output sample. -/
def execPdmStop (k : BitVec 2) (t : Nat) (s : State) : Host.Outcome State Fault Refusal :=
  let s := later t s
  match hpdmOf s k.toNat with
  | some h => .next (if audioOn s && pdmStopDue s h k.toNat t then pdmChange k.toNat pdmHalt s else s)
  | none => .next s

/-- PDM_RESTART (R272): a stopped group has seen `edges` rising edges of its clock. -/
def execPdmRestart (k : BitVec 2) (edges : Nat) (s : State) : Host.Outcome State Fault Refusal :=
  match hpdmOf s k.toNat with
  | some h =>
    .next (if audioOn s && (pdmAt s k.toNat).stopped && decide (16 * pdmRatio h.ratio ≤ edges) then
        pdmChange k.toNat (fun g => { pdmReset h g with stopped := false, iface := { (pdmReset h g).iface with s0 := some s.now } }) s
      else s)
  | none => .next s

end Sys2Proof.Machine
end

