-- ==== Sys2Proof/Machine/Rings.lean ====
section
/-! DEFINITION. Ring indices (R321, R322) and transfers between ring memory and DRAM (R326, R328, R329). -/

namespace Sys2Proof.Machine

/-! ## Index writes -/

/-- The endpoint that an agent is. -/
def agentEnd : Agent → EndPt
  | .port .host => .host
  | .port .spi => .spi
  | .firmware => .cores

/-- R322: what a write of HEAD is refused for. -/
def headErr (s : State) (who : EndPt) (r : Nat) (v : HWord) : Err :=
  match hringOf s r with
  | none => .absent
  | some h =>
    let x := ringState s r
    Err.first [(h.prod != who, .mode), (decide (2 ^ h.size - ringCount x < (v - x.head).toNat), .full)]

/-- R322: what a write of TAIL is refused for. -/
def tailErr (s : State) (who : EndPt) (r : Nat) (v : HWord) : Err :=
  match hringOf s r with
  | none => .absent
  | some h =>
    let x := ringState s r
    Err.first [(h.cons != who, .mode), (decide (ringCount x < (v - x.tail).toNat), .range)]

/-- R321, R322, R325: HEAD moves; a write of the current value has no effect. -/
def setHead (r : Nat) (v : HWord) (s : State) : State :=
  updRing r (fun x => if v = x.head then x else { x with head := v, seen := x.head, at_ := s.now }) s

/-- R321, R322: TAIL moves. -/
def setTail (r : Nat) (v : HWord) (s : State) : State := updRing r (fun x => { x with tail := v }) s

/-! ## BULK rings -/

def bulkOp (w : Words) : Nat := Words.fld w 0 31 24
def bulkRing (w : Words) : Nat := Words.u w 1
def bulkDram (w : Words) : Nat := Words.u w 2
def bulkLen (w : Words) : Nat := Words.u w 3

/-- Bytes of ring memory (R319). -/
def ringBytes : Nat := 0x30000

/-- R328: what a request is refused for. -/
def bulkErr (s : State) (w : Words) : Err :=
  let a := bulkRing w
  let d := bulkDram w
  let n := bulkLen w
  Err.first
    [(!memOn s, .absent),
     (bulkOp w == 1 && (inCopy s d n || inEnabled s d n || (framesRun s && detHood s && inRead s d n)), .mode),
     ((bulkOp w != 1 && bulkOp w != 2) || Words.fld w 0 23 0 != 0 || !([4, 5, 6].all fun i => Words.u w i == 0), .rsvd),
     (a % 32 != 0 || d % 64 != 0 || n % 64 != 0 || decide (n < 64) || decide (65536 < n) || decide (ringBytes < a + n) ||
       decide (dramBytes s < d + n), .range)]

/-- R328: every word of a request is moved. -/
def bulkMove (w : Words) (s : State) : State :=
  if bulkOp w = 1 then
    { s with dram := Memory.writeN 0 s.dram (bulkDram w) (Memory.readN 0 s.ringMem (bulkRing w) (bulkLen w)) }
  else
    { s with ringMem := Memory.writeN 0 s.ringMem (bulkRing w) (Memory.readN 0 s.dram (bulkDram w) (bulkLen w)) }

/-- The oldest request of BULK ring r. -/
def bulkFront (s : State) (r : Nat) : Option Words :=
  match hringOf s r with | some h => if h.type = 7 then ringFront s r else none | none => none

/-- R329: the DRAM controller takes the oldest request of ring r, if it has not taken it yet. -/
def bulkTake (r : Nat) (s : State) : State :=
  match bulkFront s r, (ringState s r).job with
  | some w, none =>
    let e := bulkErr s w
    updRing r (fun x => { x with job := some e.code }) (if e = .ok then bulkMove w s else s)
  | _, _ => s

/-- A request of ring r with operation op is taken. -/
def bulkStart (op r : Nat) (s : State) : State :=
  match bulkFront s r with | some w => if bulkOp w = op then bulkTake r s else s | none => s

/-- R326, R329, R417: the request that was taken is complete; `ecc`: what its read, of DRAM or of ring memory, met. -/
def bulkDone (r : Nat) (ecc : EccKind) (s : State) : State :=
  match (ringState s r).job with
  | none => s
  | some code =>
    let bad := decide (ecc = .uncorrectable) && code == 0
    let dramRead := match bulkFront s r with | some w => bulkOp w == 2 | none => false
    let s :=
      if code ≠ 0 then s
      else if dramRead then useEcc ecc s
      else
        match ecc with
        | .clean => s
        | .corrected => countSram 1 s
        | .uncorrectable => if inPeriod s then detFault s else s
    updRing r (fun x => { x with job := none }) (ringDone r (if bad then Err.check.code else code) 0 s)

/-- BULK_TO_DRAM (R328). -/
def execBulkToDram (r : BitVec 6) (s : State) : Host.Outcome State Fault Refusal := .next (bulkStart 1 r.toNat s)
/-- BULK_FROM_DRAM (R328). -/
def execBulkFromDram (r : BitVec 6) (s : State) : Host.Outcome State Fault Refusal := .next (bulkStart 2 r.toNat s)
/-- BULK_COMPLETE (R329). -/
def execBulkComplete (r : BitVec 6) (ecc : EccKind) (s : State) : Host.Outcome State Fault Refusal :=
  .next (bulkDone r.toNat ecc (bulkTake r.toNat s))

end Sys2Proof.Machine
end

