-- ==== Sys2Proof/Machine/UartCmds.lean ====
section
/-! DEFINITION. UARTs and their rings, and what firmware's MIDI and DMX services make of the characters (R371 to R382). -/

namespace Sys2Proof.Machine

/-- FRAME_CNT as read: FRAME_START in READY (R33). -/
def frameReg (s : State) : Nat := if effMode s = .ready then s.frame.start else s.frame.cnt

/-! ## Rings -/

/-- R376: complete entries of UART u go to its UART_RX ring while it has room. -/
def drainRx : Nat → Nat → State → State
  | 0, _, s => s
  | n + 1, u, s =>
    match rxRing s u, uartEntry (uartAt s u) with
    | some r, some e => if ringFull s r then s else drainRx n u (ringPush r e.1 (updUart u (fun _ => e.2) s))
    | _, _ => s

/-- Drain what the queue of UART u holds. -/
def drainUart (u : Nat) (s : State) : State := drainRx (uartAt s u).rxq.length u s

/-- Change UART u, where it is powered, and drain it. -/
def onUart (u : Nat) (f : Uart → Uart) (s : State) : State := if ctrlOn s then drainUart u (updUart u f s) else s

/-- R376: entries of the UART_TX ring are taken until one gives the transmitter something to send. -/
def refillTx : Nat → Nat → State → State
  | 0, _, s => s
  | n + 1, u, s =>
    if (uartAt s u).items.isEmpty then
      match txRing s u with
      | some r => (match ringFront s r with | some e => refillTx n u (ringPop r (updUart u (uartTakeEntry e) s)) | none => s)
      | none => s
    else s

/-- R371, R376: the transmitter of UART u completes what it sends and takes the next item. -/
def transmit (u : Nat) (s : State) : State :=
  let n := match txRing s u with | some r => ringCount (ringState s r) | none => 0
  updUart u uartSendNext (refillTx n u s)

/-! ## The commands -/

/-- RECEIVE_CHARACTER (R372): samples 7, 8 and 9 of each bit. -/
def execReceiveCharacter (u : BitVec 2) (samples : List (BitVec 3)) (s : State) : Host.Outcome State Fault Refusal :=
  .next (onUart u.toNat (uartReceive (frameReg s) samples) s)

/-- BREAK (R374): the line has been low for one character time. -/
def execBreak (u : BitVec 2) (s : State) : Host.Outcome State Fault Refusal :=
  .next (onUart u.toNat (fun a =>
    let a := a.setLow true
    if a.en && !a.silent && !a.ignores then uartBreak (frameReg s) a else a) s)

/-- DEAD_LINE (R374): the line is still low after 256 bit times, or 1.0 s in frame mode. -/
def execDeadLine (u : BitVec 2) (s : State) : Host.Outcome State Fault Refusal :=
  .next (onUart u.toNat uartDead s)

/-- RX_ENTRY_IDLE_CLOSE (R376): the line has been high for two character times. -/
def execRxEntryIdleClose (u : BitVec 2) (s : State) : Host.Outcome State Fault Refusal :=
  .next (onUart u.toNat (fun a => uartClose false (a.setLow false)) s)

/-- DMX_BREAK (R378): a low of `lowUs` microseconds and, unless the line is still low, a following high of `highUs`. -/
def execDmxBreak (u : BitVec 2) (lowUs : Nat) (highUs : Option Nat) (s : State) : Host.Outcome State Fault Refusal :=
  .next (onUart u.toNat (uartDmxBreak lowUs highUs) s)

/-- DMX_PACKET_TIMEOUT (R378): the line has been high for 1.0 s. -/
def execDmxPacketTimeout (u : BitVec 2) (s : State) : Host.Outcome State Fault Refusal :=
  .next (onUart u.toNat (fun a =>
    let a := a.setLow false
    if a.mode && !a.ignores then uartPacketEnd a else a) s)

/-- UART_RX_REARM (R374): the line has been high for 16 samples. -/
def execUartRxRearm (u : BitVec 2) (s : State) : Host.Outcome State Fault Refusal :=
  .next (onUart u.toNat (fun a => { a with silent := false, low := false }) s)

/-- TRANSMIT_CHARACTER (R371). -/
def execTransmitCharacter (u : BitVec 2) (s : State) : Host.Outcome State Fault Refusal :=
  .next (if ctrlOn s && (uartAt s u.toNat).en then transmit u.toNat s else s)

/-! ## MIDI (R381) -/

/-- What UART u is claimed for. -/
def claimOf (s : State) (u : Nat) : Option Claim := match s.hood with | some h => Store.get none h.evmap.uarts u | none => none
/-- The MIDI map of UART u, where it is claimed for MIDI. -/
def midiMap (s : State) (u : Nat) : Option (List MidiMap) := match claimOf s u with | some (.midi m) => some m | _ => none
/-- The DMX map of UART u, where it is claimed for DMX. -/
def dmxMap (s : State) (u : Nat) : Option (List DmxMap) := match claimOf s u with | some (.dmx m) => some m | _ => none

/-- R381: the frame that a 15-bit FSTAMP names: the last one not after the present. -/
def stampFrame (now fst : Nat) : Nat := now - (now + 2 ^ 15 - fst) % 2 ^ 15

/-- Replace bits [lo+w-1:lo] of a word. -/
def putField (x : Word) (v w lo : Nat) : Word :=
  BitVec.ofNat 32 (x.toNat - bits x.toNat (lo + w - 1) lo * 2 ^ lo + place v w lo)

/-- An event with the bytes of a message put where the map says. -/
def mapFields (bs : List Nat) (fs : List MapField) (r : EvRec) : EvRec :=
  fs.foldl (fun r f => setAt r f.word (putField (r.getD f.word 0) (bs.getD f.byte_ 0) f.width f.lo)) r

/-- An event with its stamp (R381). -/
def stamped (frame : Nat) (r : EvRec) : EvRec := setAt (setAt r 2 (BitVec.ofNat 32 frame)) 3 (BitVec.ofNat 32 (frame / 2 ^ 32))

/-- The map's entry for a message. -/
def midiEntry (m : List MidiMap) (msg : List Nat) : Option MidiMap :=
  m.find? fun e => msg.head? == some e.status && (match e.data1 with | some d => msg[1]? == some d | none => true)

/-- R279, R381: firmware offers an event, except on a shadow; its control core is core 0. -/
def fwOffer (r : EvRec) (s : State) : State := if effMode s = .runShadow then s else offer (.core 0) r s

/-- R381: a message that the parser has completed. -/
def midiMessage (u : Nat) (m : List MidiMap) (fst : Nat) (msg : List Nat) (s : State) : State :=
  let count := fun (f : Midi → Midi) => updUart u fun a => { a with midi := f a.midi }
  match midiEntry m msg with
  | none => count (fun p => { p with unmapped := (p.unmapped + 1) % 2 ^ 32 }) s
  | some e =>
    let r := stamped (stampFrame (frameReg s) fst + e.lead) (mapFields msg e.fields e.rec_)
    let late := (effStamp s r).2 && acceptErr s (.core 0) r == .ok && effMode s != .runShadow
    count (fun p => { p with late := if late then (p.late + 1) % 2 ^ 32 else p.late }) (fwOffer r s)

/-- One queue entry through the parser. -/
def midiByte (u : Nat) (m : List MidiMap) (fst : Nat) (w : HWord) (s : State) : State :=
  let q := midiChar w (uartAt s u).midi
  let s := updUart u (fun a => { a with midi := q.1 }) s
  match q.2 with | some msg => midiMessage u m fst msg s | none => s

/-- The queue entries of a UART_RX ring entry. -/
def entryChars (e : Words) : List HWord :=
  (List.range (Words.fld e 0 3 0)).map fun k => (e.getD (1 + k / 2) 0 >>> (16 * (k % 2))).setWidth 16

/-! ## DMX (R382) -/

/-- The events of a packet with start code 0. -/
def dmxEvents (m : List DmxMap) (fst : Nat) (slots : List Nat) (s : State) : State :=
  m.foldl (fun s e =>
    match slots[e.slot]? with
    | some v => fwOffer (stamped (stampFrame (frameReg s) fst + e.lead) (mapFields [v] e.fields e.rec_)) s
    | none => s) s

/-- A UART_TX entry with free contents (R376): COUNT, FIRST and LAST, and the bytes. -/
def freeTxEntry (s : State) : Words :=
  let w := Config.freeWord s.use
  BitVec.ofNat 32 (1 + bits w.toNat 4 0 % 28 + 2 ^ 8 * bits w.toNat 9 8) :: (List.range 7).map fun i => Config.freeWord (s.use + 1 + i)

/-- R382: firmware answers an RDM request that is addressed to the device. Neither the device's address nor the answer is
stated: how many UART_TX entries firmware writes, of those that fit, and what they hold are free values (log entry 37). -/
def rdmSend (r : Nat) : Nat → State → State
  | 0, s => s
  | n + 1, s => rdmSend r n (if ringFull s r then s else ringPush r (freeTxEntry s) { s with use := s.use + 8 })
def rdmAnswer (u : Nat) (s : State) : State :=
  match txRing s u, hringOf s ((txRing s u).getD 0) with
  | some r, some h => rdmSend r (Config.freeNat s.use % (2 ^ h.size + 1)) { s with use := s.use + 1 }
  | _, _ => s

/-- R382: one UART_RX entry of a UART claimed for DMX. -/
def dmxEntry (u : Nat) (m : List DmxMap) (e : Words) (s : State) : State :=
  let cs := (entryChars e).map fun w => bits w.toNat 7 0
  let d := (uartAt s u).dmx
  let slots := (if Words.fld e 0 5 5 = 1 then [] else d.slots) ++ cs
  if Words.fld e 0 4 4 = 1 then
    let code := slots.getD 0 0
    let s := updUart u (fun a => { a with dmx := { d with
        packets := (d.packets + 1) % 2 ^ 32, ckerrs := if Words.fld e 0 16 16 = 1 then (d.ckerrs + 1) % 2 ^ 32 else d.ckerrs
        lastCode := code, lastSlots := slots.length - 1, slots := [] } }) s
    if code = 0 then dmxEvents m (Words.fld e 0 31 17) slots s
    else if code = 0xCC ∧ Words.fld e 0 16 16 = 0 then rdmAnswer u s else s
  else updUart u (fun a => { a with dmx := { d with slots := slots } }) s

/-- R381, R382: firmware works through one entry of the UART_RX ring of UART u. -/
def serveEntry (u : Nat) (e : Words) (s : State) : State :=
  match midiMap s u, dmxMap s u with
  | some m, _ => (entryChars e).foldl (fun s w => midiByte u m (Words.fld e 0 31 17) w s) s
  | _, some m => dmxEntry u m e s
  | _, _ => s

/-- R323, R381, R382: firmware has worked through the n oldest entries of ring r, a UART_RX ring. -/
def serveEntries (r : Nat) : Nat → State → State
  | 0, s => s
  | n + 1, s =>
    match hringOf s r, ringFront s r with
    | some h, some e => serveEntries r n (ringPop r (serveEntry h.uart e s))
    | _, _ => s

/-- A TAIL write of firmware: entries of a claimed UART's ring have been worked through. -/
def fwTail (r : Nat) (v : HWord) (s : State) : State :=
  match hringOf s r with
  | some h => if h.type = 5 then drainUart h.uart (serveEntries r (v - (ringState s r).tail).toNat s) else setTail r v s
  | none => s

/-- R376: a TAIL write of a port; the room it makes in a UART_RX ring is filled from the receive queue. -/
def portTail (r : Nat) (v : HWord) (s : State) : State :=
  match hringOf s r with
  | some h => if h.type = 5 then drainUart h.uart (setTail r v s) else setTail r v s
  | none => setTail r v s

end Sys2Proof.Machine
end

