-- ==== Sys2Proof/Machine/Services.lean ====
section
/-! DEFINITION. The Ilukin services of firmware: requests, refusals and replies (R337 to R339, R354 to R360, R381,
R382, R405), and the start of firmware (R352, R353). -/

namespace Sys2Proof.Machine

/-! ## Requests (R337) -/

def reqService (m : Words) : Nat := Words.fld m 0 23 16
def reqFunc (m : Words) : Nat := Words.fld m 0 15 8

/-- Service numbers. -/
def svcInfo : Nat := 1
def svcLatency : Nat := 2
def svcMode : Nat := 3
def svcMidi : Nat := 4
def svcDmx : Nat := 5
def svcFuse : Nat := 0x10
def svcUpdate : Nat := 0x11

/-- R338: a known service and function; the functions of FUSE are not defined. -/
def svcKnown (v f : Nat) : Bool :=
  (v == svcInfo && f == 1) || (v == svcLatency && (f == 1 || f == 2)) || (v == svcMode && (f == 1 || f == 2)) ||
  (v == svcMidi && (f == 1 || f == 2)) || (v == svcDmx && f == 1) || v == svcFuse || (v == svcUpdate && decide (1 ≤ f) && decide (f ≤ 7))

/-- Words 2 to 7 from word i on are zero. -/
def argsZero (m : Words) (i : Nat) : Bool := (List.range 8).all fun k => decide (k < i) || Words.u m k == 0

/-- R338: the argument layout of a function. -/
def argsOk (m : Words) : Bool :=
  let v := reqService m
  let f := reqFunc m
  if v = svcFuse then true
  else if v = svcLatency ∧ f = 2 then argsZero m 3
  else if v = svcMode ∧ f = 2 then Words.fld m 2 31 4 == 0 && argsZero m 3
  else if v = svcMidi ∧ f = 2 then Words.fld m 2 7 2 == 0 && Words.fld m 2 31 13 == 0
  else if v = svcMidi ∨ v = svcDmx then Words.fld m 2 31 2 == 0 && argsZero m 3
  else if v = svcUpdate ∧ f = 1 then argsZero m 3
  else if v = svcUpdate ∧ f = 2 then argsZero m 5
  else if v = svcUpdate ∧ f = 4 then Words.fld m 4 31 1 == 0 && argsZero m 5
  else argsZero m 2

/-! ## What each service refuses -/

/-- R338: the modes in which a service is served. -/
def svcMode_ (s : State) (v : Nat) : Bool :=
  let m := s.mode.mode
  (m != .loader || v == svcInfo || v == svcUpdate || v == svcFuse) && (v != svcLatency || !(m == .loader || m == .load))

/-- R354: the stages in which a function of UPDATE is allowed. -/
def updStageOk (st : UpdStage) (f : Nat) : Bool :=
  match f with
  | 1 => st == .idle | 2 => st == .download | 3 => st == .download | 4 => st == .verified | 5 => st == .trial
  | 6 => st == .download || st == .verified | _ => true

/-- Bytes of ring memory end here (R354). -/
def loadBad (s : State) (m : Words) : Bool :=
  let off := Words.u m 2
  let a := Words.u m 3
  let n := Words.u m 4
  a % 32 != 0 || off % 64 != 0 || n % 64 != 0 || decide (n < 64) || decide (8192 < n) || decide (s.fw.length < off + n) ||
  decide (ringBytes < a + n)

/-- R354: every 64-byte block below LENGTH has been loaded. -/
def allLoaded (s : State) : Bool := (List.range (s.fw.length / 64)).all fun i => Store.get false s.fw.loaded i

/-- R354, R356: conditions on UPDATE. -/
def updConds (s : State) (c : Nat) (m : Words) : List (Bool × Err) :=
  let f := reqFunc m
  [(!updStageOk s.fw.stage f, .mode), (f == 4 && !hoMode s, .mode),
   (f != 7 && s.fw.stage != .idle && (s.fw.chan != c || s.fw.waiting.isSome), .busy),
   (f == 1 && !imgLength (Words.u m 2), .range), (f == 2 && loadBad s m, .range), (f == 3 && !allLoaded s, .format)]

/-- The UART that a MIDI or DMX request names. -/
def reqUart (m : Words) : Nat := Words.fld m 2 1 0

/-- R381: the bytes of a SEND find no room. -/
def sendFull (s : State) (m : Words) : Bool :=
  let u := reqUart m
  match txRing s u with
  | some r => ringFull s r
  | none => decide ((uartAt s u).size < (uartAt s u).txq.length + Words.fld m 2 12 8)

/-- R381: conditions on MIDI. -/
def midiConds (s : State) (m : Words) : List (Bool × Err) :=
  let n := Words.fld m 2 12 8
  let send := reqFunc m == 2
  [(send && (n == 0 || decide (20 < n)), .range), ((midiMap s (reqUart m)).isNone, .notFound), (send && sendFull s m, .full)]

/-- What a known function of a service is refused for by its own chapter. -/
def svcConds (s : State) (c : Nat) (m : Words) : List (Bool × Err) :=
  let v := reqService m
  if v = svcLatency then
    [(reqFunc m == 2 && decide ((match s.hood with | some h => h.paths.length | none => 0) ≤ Words.u m 2), .range)]
  else if v = svcMode then
    (let e := requestErr s (Words.fld m 2 3 0); [(reqFunc m == 2 && e != .ok, e)])
  else if v = svcMidi then midiConds s m
  else if v = svcDmx then [((dmxMap s (reqUart m)).isNone, .notFound)]
  else if v = svcFuse then [(!(s.mode.mode == .loader || s.mode.mode == .ready) || s.fuses.lock, .mode)]
  else if v = svcUpdate then updConds s c m
  else []

/-- R338: the code with which firmware answers request m on channel c. -/
def reqErr (s : State) (c : Nat) (m : Words) : Err :=
  let v := reqService m
  let known := svcKnown v (reqFunc m)
  let base : List (Bool × Err) :=
    [(v == svcFuse && decide (c < 8), .security), (!svcMode_ s v, .mode),
     (Words.fld m 0 31 28 != 1 || Words.fld m 0 27 24 != 0 || Words.u m 1 != 0, .rsvd), (!known, .notFound), (known && !argsOk m, .format)]
  Err.first (base ++ if known then svcConds s c m else [])

/-! ## Serving -/

/-- Firmware serves the oldest request of channel c: what it refuses is answered, what is of service v and function f has
its effect. -/
def serve (c : Nat) (p : Words → Bool) (eff : Words → State → State) (s : State) : State :=
  if fwServes s then
    let s := sendWaiting c s
    match (fwReqs s c).head? with
    | none => s
    | some m =>
      let e := reqErr s c m
      if e ≠ .ok then answer c m e [] s else if p m then eff m s else s
  else s

/-- Requests of a service and a function. -/
def isReq (v f : Nat) (m : Words) : Bool := reqService m == v && reqFunc m == f

/-- HOOD_VER. -/
def hoodVer (s : State) : Nat := match s.hood with | some h => h.hdr.ver | none => 0

/-- INFO (R339). -/
def execInfo (c : BitVec 4) (s : State) : Host.Outcome State Fault Refusal :=
  .next (serve c.toNat (isReq svcInfo 1) (fun m s => answer c.toNat m .ok [fwVersion s, hoodVer s, Config.loaderVersion.toNat] s) s)

/-- Paths of the hood (R55). -/
def pathsOf (s : State) : List HPath := match s.hood with | some h => h.paths | none => []

/-- LATENCY_COUNT (R339). -/
def execLatencyCount (c : BitVec 4) (s : State) : Host.Outcome State Fault Refusal :=
  .next (serve c.toNat (isReq svcLatency 1) (fun m s => answer c.toNat m .ok [(pathsOf s).length] s) s)

/-- R339: results of LATENCY FUNC 0x02. -/
def pathArgs (p : HPath) : List Nat := [0, p.input.toNat, p.output.toNat, place p.max 16 16 + place p.min 16 0]

/-- LATENCY_PATH (R339). -/
def execLatencyPath (c : BitVec 4) (s : State) : Host.Outcome State Fault Refusal :=
  .next (serve c.toNat (isReq svcLatency 2) (fun m s =>
    match (pathsOf s)[Words.u m 2]? with | some p => answer c.toNat m .ok (pathArgs p) s | none => s) s)

/-- MODE_STATUS (R405). -/
def execModeStatus (c : BitVec 4) (s : State) : Host.Outcome State Fault Refusal :=
  .next (serve c.toNat (isReq svcMode 1) (fun m s => answer c.toNat m .ok [modeStat s] s) s)

/-- R405: a mode request through a channel: the reply reports acceptance. -/
def chanRequest (c req : Nat) (s : State) : State :=
  serve c (fun m => isReq svcMode 2 m && Words.fld m 2 3 0 == req) (fun m s => requestDo req (answer c m .ok [] s)) s

/-! ## Fuses (R73) -/

/-- Bytes of two lists, or-ed: a fuse is never unblown. -/
def orBytes (a b : List Byte) : List Byte := a.mapIdx fun i x => x ||| b.getD i 0

/-- R73: the owner lock: the key fuses first, the lock fuse last. -/
def blowOwner (digest : List Byte) (s : State) : State :=
  { s with fuses := { s.fuses with owner := orBytes s.fuses.owner digest, lock := true } }

/-- OWNER_LOCK (R73): `digest`: the SHA-256 of the owner's key that the request gives. -/
def execOwnerLock (c : BitVec 4) (digest : List Byte) (s : State) : Host.Outcome State Fault Refusal :=
  .next (serve c.toNat (fun m => reqService m == svcFuse) (fun m s => answer c.toNat m .ok [] (blowOwner digest s)) s)

/-! ## UPDATE (R354 to R360) -/

/-- UPD_STAT. -/
def updStat (s : State) : Nat :=
  let w := s.fw
  place w.stage.code 3 29 + place (b2n w.rom) 1 28 + place w.bank 1 27 + place (b2n w.floorbad) 1 26 + place (b2n w.resumed) 1 25 +
    place (b2n w.done) 1 24 + place w.result 8 16 + place w.chan 4 0

/-- BEGIN (R354). -/
def updBegin (c : Nat) (m : Words) (s : State) : State :=
  let s := setBank (idleBank s) [] s
  answer c m .ok [] (updFw (fun w => { w with stage := .download, chan := c, length := Words.u m 2, loaded := [] }) s)

/-- BEGIN (R354). -/
def execBegin (c : BitVec 4) (s : State) : Host.Outcome State Fault Refusal :=
  .next (serve c.toNat (isReq svcUpdate 1) (updBegin c.toNat) s)

/-- R354: bytes staged in ring memory are copied into the idle bank. -/
def updLoad (c : Nat) (m : Words) (s : State) : State :=
  let off := Words.u m 2
  let n := Words.u m 4
  let b := idleBank s
  let s := setBank b (Memory.writeN 0 (bankOf s b) off (Memory.readN 0 s.ringMem (Words.u m 3) n)) s
  answer c m .ok [] (updFw (fun w => { w with loaded := Store.setRange false w.loaded (off / 64) (List.replicate (n / 64) true) }) s)

/-- LOAD (R354). -/
def execLoad (c : BitVec 4) (s : State) : Host.Outcome State Fault Refusal :=
  .next (serve c.toNat (isReq svcUpdate 2) (updLoad c.toNat) s)

/-- R355: what VERIFY finds of the image that was loaded. -/
def verifyErr (s : State) : Err :=
  let bs := Memory.readN 0 (bankOf s (idleBank s)) 0 s.fw.length
  let e := if imgWord bs 8 = s.fw.length then imgCheck bs s.fuses.fwRevoked (verFloor s) else .format
  if e ≠ .ok then e else imgFits s bs

/-- VERIFY (R355). -/
def updVerify (c : Nat) (m : Words) (s : State) : State :=
  let e := verifyErr s
  answer c m e [] (endUpdate e (if e = .ok then .verified else .idle) s)

/-- VERIFY (R355). -/
def execVerify (c : BitVec 4) (s : State) : Host.Outcome State Fault Refusal :=
  .next (serve c.toNat (isReq svcUpdate 3) (updVerify c.toNat) s)

/-- R356, R359: a request that is answered when it ends. -/
def hold (c : Nat) (m : Words) (s : State) : State :=
  updFw (fun w => { w with waiting := some m, reqs := Store.set [] w.reqs c ((fwReqs s c).drop 1) }) s

/-- R356: the activation waits for its boundary: Fa, or the next one. -/
def updActivate (c : Nat) (m : Words) (s : State) : State :=
  hold c m (updFw (fun w => { w with actAt := some (if Words.fld m 4 0 0 = 1 then none else some (Words.u64 m 2)) }) s)

/-- ACTIVATE (R356). -/
def execActivate (c : BitVec 4) (s : State) : Host.Outcome State Fault Refusal :=
  .next (serve c.toNat (isReq svcUpdate 4) (updActivate c.toNat) s)

/-- CONFIRM (R359): the confirmation begins. -/
def execConfirm (c : BitVec 4) (s : State) : Host.Outcome State Fault Refusal :=
  .next (serve c.toNat (isReq svcUpdate 5) (fun m s => hold c.toNat m (updFw (fun w => { w with stage := .confirm }) s)) s)

/-- R359: slot, floor record and fuses are written; or the slot reads back wrong. -/
def confirmDone (ok : Bool) (s : State) : State :=
  if ok then
    let bs := runningImage s
    let ver := imgWord bs 0x0C
    endUpdate .ok .idle (replyWaiting .ok (blowEpoch (epochOf ver) (writeFloor ver (writeSlot bs s))))
  else
    let n := (runningImage s).length
    endUpdate .check .trial (replyWaiting .check { writeSlot (freeBytes n s) s with use := s.use + n })

/-- CONFIRM_END (R359). -/
def execConfirmEnd (ok : Bool) (s : State) : Host.Outcome State Fault Refusal :=
  .next (if s.fw.stage = .confirm then confirmDone ok s else s)

/-- ABORT (R354). -/
def updAbort (c : Nat) (m : Words) (s : State) : State :=
  let s := setBank (idleBank s) [] s
  answer c m .ok [] (updFw (fun w => { w with stage := .idle, chan := 0, loaded := [] }) s)

/-- ABORT (R354). -/
def execAbort (c : BitVec 4) (s : State) : Host.Outcome State Fault Refusal :=
  .next (serve c.toNat (isReq svcUpdate 6) (updAbort c.toNat) s)

/-- STATUS (R354). -/
def execStatus (c : BitVec 4) (s : State) : Host.Outcome State Fault Refusal :=
  .next (serve c.toNat (isReq svcUpdate 7) (fun m s => answer c.toNat m .ok [updStat s, fwVersion s, verFloor s, imgVersion s] s) s)

/-! ## Boot (R352, R353) -/

/-- R352: the image of the boot slot; only its header when that gives no length. -/
def bootImage (s : State) : List Byte :=
  let n := leNat (Memory.readN 0xFF s.flash 8 4)
  Memory.readN 0xFF s.flash 0 (if imgLength n then n else 256)

/-- R353: a confirmation that was cut short is completed. -/
def resumeConfirm (ver : Nat) (s : State) : State :=
  let floor := decide (vRec s < ver)
  let fuses := ver == vRec s && decide (s.fuses.epoch < epochOf ver)
  if floor || fuses then
    updFw (fun w => { w with resumed := true }) (blowEpoch (epochOf ver) (if floor then writeFloor ver s else s))
  else s

/-- R352: the loader has checked the boot image: it starts it, or stays. -/
def bootDone (s : State) : State :=
  let bs := bootImage s
  let e := imgCheck bs s.fuses.fwRevoked (verFloor s)
  let s := updFw (fun w => { w with bootAt := none, floorbad := (floorInUse s).isNone }) s
  if e = .ok then
    resumeConfirm (imgWord bs 0x0C) (updFw (fun w => { w with rom := false, bank := 0, bank0 := Memory.writeN 0 [] 0 bs }) s)
  else updFw (fun w => { w with rom := true, result := e.code }) s

/-- FIRMWARE_START (R352). -/
def execFirmwareStart (t : Nat) (s : State) : Host.Outcome State Fault Refusal :=
  let s := later t s
  .next (if s.fw.bootAt.isSome then bootDone s else s)

/-! ## MIDI and DMX (R381, R382) -/

/-- MIDI_STATS (R381). -/
def execMidiStats (c : BitVec 4) (s : State) : Host.Outcome State Fault Refusal :=
  .next (serve c.toNat (isReq svcMidi 1) (fun m s =>
    let p := (uartAt s (reqUart m)).midi
    answer c.toNat m .ok [p.parsed, p.unmapped, p.late, p.discarded] s) s)

/-- R381: bytes of a SEND. -/
def sendBytes (m : Words) : List Byte := (wordBytes (m.drop 3)).take (Words.fld m 2 12 8)

/-- R376, R381: the bytes go to the UART_TX ring, or to the queue of a UART without one. -/
def midiSend (m : Words) (s : State) : State :=
  let u := reqUart m
  let bs := sendBytes m
  match txRing s u with
  | some r => ringPush r (BitVec.ofNat 32 bs.length :: bytesWords 7 (bs ++ List.replicate 28 0)) s
  | none => updUart u (fun a => { a with txq := a.txq ++ bs }) s

/-- MIDI_SEND (R381). -/
def execMidiSend (c : BitVec 4) (s : State) : Host.Outcome State Fault Refusal :=
  .next (serve c.toNat (isReq svcMidi 2) (fun m s => answer c.toNat m .ok [] (midiSend m s)) s)

/-- DMX_STATUS (R382). -/
def execDmxStatus (c : BitVec 4) (s : State) : Host.Outcome State Fault Refusal :=
  .next (serve c.toNat (isReq svcDmx 1) (fun m s =>
    let d := (uartAt s (reqUart m)).dmx
    answer c.toNat m .ok [d.packets, d.ckerrs, place d.lastSlots 10 16 + place d.lastCode 8 0] s) s)

end Sys2Proof.Machine
end

