-- ==== Sys2Proof/Machine/TimerCmds.lean ====
section
/-! DEFINITION. Timer events: source edges, wraps, matches and captures (R361 to R369). -/

namespace Sys2Proof.Machine

/-- R362: timer n counts core/8 or REFCLK. The edges of the other two sources are the ticks of a domain and the edges of
the timer's ball, which have commands of their own. -/
def clocked (s : State) (n : Nat) : Bool := decide ((timerAt s n).src < 2)

/-- Whether the next source edge of a timer gives a count pulse. -/
def pulseNext (m : Timer) : Bool := m.run && (prescale m.div m.acc).1

/-- TIMER_SOURCE_EDGE (R363): an edge of core/8 or REFCLK. -/
def execTimerSourceEdge (n : BitVec 3) (s : State) : Host.Outcome State Fault Refusal :=
  .next (if clocked s n.toNat then sourceEdge n.toNat s else s)

/-- TIMER_WRAP (R364): the source edge whose count pulse wraps the timer. -/
def execTimerWrap (n : BitVec 3) (s : State) : Host.Outcome State Fault Refusal :=
  let m := timerAt s n.toNat
  .next (if clocked s n.toNat && pulseNext m && m.cnt == 0 then sourceEdge n.toNat s else s)

/-- COMPARE_MATCH (R366): the source edge whose count pulse leaves CNT equal to CMP. -/
def execCompareMatch (n : BitVec 3) (s : State) : Host.Outcome State Fault Refusal :=
  let m := timerAt s n.toNat
  .next (if clocked s n.toNat && pulseNext m && (timerCount false m).cnt == m.cmp then sourceEdge n.toNat s else s)

/-- CAPTURE (R362, R368): an edge of the timer's ball: a source edge where SRC and EDGE select it, and a capture. -/
def execCapture (n : BitVec 3) (rising : Bool) (s : State) : Host.Outcome State Fault Refusal :=
  if ctrlOn s then
    let m := timerAt s n.toNat
    let s := if m.out = 0 ∧ m.src = 3 ∧ edgeSelects m.edge rising then sourceEdge n.toNat s else s
    .next (updTimer n.toNat (fun m =>
      let m := if m.out = 0 then { m with pin := rising } else m
      if m.out = 0 && capSelects m.cape rising then timerCapture (frameReg s) m else m) s)
  else .next s

end Sys2Proof.Machine
end

