-- ==== Sys2Proof/Machine/TwinCmds.lean ====
section
/-! DEFINITION. Commands of the twin link: pairing, link entries, marks, faults and role changes (chapter 13). -/

namespace Sys2Proof.Machine

/-- R275: the role this chip takes: the strap, or ROLE under ROLEOVR. -/
def ownRole (w : Twin) : Bool := if w.roleOvr then w.role else w.strap

/-- CHIP_ID.PART (R315). -/
def Part.number : Part → Nat
  | .wvd880 => 0x0880 | .wvd860 => 0x0860 | .wvd840 => 0x0840 | .wvd820 => 0x0820

/-- R275: the result of the pairing checks against a partner's identity record. -/
def pairResult (s : State) (p : PartnerId) : Err :=
  let twinHood := match s.hood with | some h => h.hdr.twin | none => false
  if !p.faultHigh || s.twin.hasRun || p.hasRun || !twinHood then .mode
  else if p.lead == ownRole s.twin || p.start.toNat != s.frame.start then .range
  else if p.part.toNat != s.part.number || p.level.toNat != behavLevel then .incompat
  else if p.digest != s.block.digest then .check
  else .ok

/-- PAIRING_CHECKS (R275): both chips have PAIR = 1 and the link is up; the partner's record has come. -/
def execPairingChecks (p : PartnerId) (s : State) : Host.Outcome State Fault Refusal :=
  if s.part.twin && s.mode.mode == .ready && s.twin.pair && s.twin.linkup && s.twin.pairAt.isSome then
    let e := pairResult s p
    let role := ownRole s.twin
    if e = .ok then
      .next (updTwin (fun w => { w with
        paired := true, lead := role, holder := role, cvHolder := role, instep := true, retired := false, partner := true, result := 0
        pairAt := none, entries := [], linkOut := [], faultN := false, pull := false, markAt := none, handOver := none, tookOver := false }) s)
    else .next (updTwin (fun w => { w with result := e.code, pairAt := none, faultN := !p.faultHigh }) s)
  else .next s

/-- 10 ms in core cycles (R275). -/
def pairLimit : Nat := 7864320

/-- PAIRING_TIMEOUT (R275): 10 ms from the later PAIR write have passed at time t; `partner`: when the partner's came, if
it has. -/
def execPairingTimeout (t : Nat) (s : State) (partner : Option Nat := none) : Host.Outcome State Fault Refusal :=
  let s := later t s
  match s.twin.pairAt with
  | some u => .next (if max u (partner.getD u) + pairLimit ≤ t then updTwin (fun w => { w with result := Err.notFound.code, pairAt := none }) s else s)
  | none => .next s

/-- R279, R280: a paired shadow accepts a link entry; one whose effective stamp lies below the open window puts it out of
step. -/
def takeLink (r : Words) (s : State) : State :=
  let below := decide (evStamp r < openWindow s)
  let n := s.carder.seq
  let q := offer .twin r s
  let q := if q.carder.seq = n then q else updTwin (fun w => { w with seq := n }) q
  if below && decide (effMode s = .runShadow) then outOfStep (updTwin (fun w => { w with lateent := satInc 255 w.lateent }) q) else q

/-- LINK_ENTRY (R279, R287, R289). -/
def execLinkEntry (r : Words) (s : State) : Host.Outcome State Fault Refusal :=
  if !s.part.twin || s.twin.retired then .next s
  else if s.twin.paired then (if s.twin.lead then .next s else .next (takeLink r s))
  else if s.twin.tookOver then .next (updTwin (fun w => { w with discard := satInc 255 w.discard }) s)
  else .next s

/-- R276, R291: what the flags of a valid mark make a chip do. -/
def markActs (m : MarkMsg) (s : State) : State :=
  if s.twin.lead then s
  else updTwin (fun w => { w with
    startRx := w.startRx || (m.flags.getLsbD 7 && decide (effMode s = .ready))
    stopRx := w.stopRx || (m.flags.getLsbD 6 && framesRun s)
    swapAt := if m.flags.getLsbD 5 && framesRun s && w.swapAt.isNone then some (s.frame.cnt - 1) else w.swapAt }) s

/-- R282: the checks of a valid mark against the last window closed, in a running mode or HOLD. -/
def markChecks (m : MarkMsg) (s : State) : State :=
  if m.frame.toNat != s.frame.cnt % 2 ^ 32 then
    (if s.twin.lead then updTwin (fun w => { w with instep := false }) s else outOfStep s)
  else
    let s := if !s.twin.lead && (m.seq.toNat != s.twin.seqClose || m.ecrc.toNat != s.twin.ecrcClose) then outOfStep s else s
    if m.digest.toNat = s.twin.digest then s
    else
      let s := updTwin (fun w => { w with
        misf := if w.mismatch then w.misf else (s.frame.cnt - 1) % 2 ^ 32, mismatch := true, instep := false, mismN := satInc 255 w.mismN }) s
      twinInt s.twin.misie s

/-- MARK_RECEIVE (R281, R282). -/
def execMarkReceive (t : Nat) (m : MarkMsg) (s : State) : Host.Outcome State Fault Refusal :=
  let s := later t s
  if !s.part.twin || !s.twin.paired || s.twin.retired then .next s
  else if m.violation then .next (updTwin (fun w => { w with markerr := satInc 255 w.markerr }) s)
  else
    let s := markActs m (updTwin (fun w => { w with markAt := some t, partner := true }) s)
    -- in paired READY a mark's FRAME is FRAME_START (R276), which R282 does not compare
    .next (if inPeriod s then markChecks m s else s)

/-- MARK_LOSS (R285): time t has come without a valid mark. -/
def execMarkLoss (t : Nat) (s : State) : Host.Outcome State Fault Refusal := .next (loseMarks t (later t s))

/-- R285: a mark loss detected before cycle t keeps FAULT_N from acting; in one cycle FAULT_N applies. -/
def lossBefore (w : Twin) (t : Nat) : Bool := match w.takeNext with | some x => decide (x < t) | none => false

/-- FAULT_N_SEEN (R285, R286): a running shadow takes the fault frame from its FRAME_CNT; one in HOLD does so at its relock. -/
def execFaultNSeen (t : Nat) (s : State) : Host.Outcome State Fault Refusal :=
  let s := updTwin (fun w => { w with faultN := true }) (later t s)
  .next (if lossBefore s.twin t then s else yieldSeen s)

/-- LEAD_YIELD (R286). -/
def execLeadYield (s : State) : Host.Outcome State Fault Refusal :=
  .next (if s.twin.paired && decide (effMode s = .runLead) then beginYield s else s)

/-- LEAD_RETIRE (R288). -/
def execLeadRetire (s : State) : Host.Outcome State Fault Refusal := .next (retireLead s)

/-- SWAP_ROLE_EXCHANGE (R291): window F+2 has closed. -/
def execSwapRoleExchange (s : State) : Host.Outcome State Fault Refusal :=
  match s.twin.swapAt with
  | some x => .next (if s.frame.cnt = x + 2 ∧ s.twin.handOver.isNone then swapClose (x + 2) s else s)
  | none => .next s

/-- LINKUP_CHANGE (R273, R311): the link does not come up while this chip's lanes are idle (R430). -/
def execLinkupChange (up : Bool) (s : State) : Host.Outcome State Fault Refusal :=
  if s.part.twin && s.twin.linkup != up && !(up && laneIdle s) then .next (twinInt s.twin.linkie (updTwin (fun w => { w with linkup := up }) s)) else .next s

end Sys2Proof.Machine
end

