-- ==== Sys2Proof/Machine/RegMap.lean ====
section
/-! DEFINITION. The address map: every register, where it lies, how wide it is, which of its bits are reserved
(R13, R299 to R301, R314), and which registers belong to units that a part lacks (R5). -/

namespace Sys2Proof.Machine

/-- The registers; an argument is an index of the register tables. -/
inductive Reg where
  | chipId | chipRev | behavLevel | capUnits | capIo | capCtl | hostErr | hostCfg | intStat | intEn (i : Nat)
  | intSen | frameCnt | frameStart | carderStat | carderLate | carderDisc | detStat | blockCtl | hoodFifo | hoodStat
  | hoodFail | hoodVer | hoodInfo | winCmd (i : Nat) | winAddr (i : Nat) | winStat (i : Nat) | winBuf (i j : Nat)
  | vgCfg (i : Nat) | vgSteal (i : Nat) | vgStat (i : Nat) | vgCnt (i : Nat) | vcLoad (i : Nat) | vcPeak (i : Nat)
  | vcStrm (i : Nat) | strmStat | oscTcrc (i : Nat) | vcShsat (i : Nat) | shpTcrc (i : Nat) | vgTempo (i : Nat)
  | busMsel (i : Nat) | busPeak (i : Nat) | busMs (i : Nat) | busClip (i : Nat) | busSat | plcStat (i : Nat)
  | fulCtl (i : Nat) | fulStat (i : Nat) | fulFlt (i : Nat) | fulSat (i : Nat) | fulPre (i : Nat) | fulLen (i : Nat)
  | fulBank (i : Nat) | fulXf (i : Nat) | dlyLine (i : Nat) | dlyTap (i : Nat) | dlyStat | clkCfg | clkStat | clkCnt
  | domStat (i : Nat) | sapCfg (i : Nat) | sapStat (i : Nat) | sapSlip (i : Nat) | audGrp (i : Nat)
  | audGstart (i : Nat) | asrcStat | asrcRatio (i : Nat) | aesRxstat (i : Nat) | aesRxcnt (i : Nat)
  | aesTxctl (i : Nat) | aesRxcs (i j : Nat) | aesRxub (i j : Nat) | aesTxcs (i j : Nat) | pdmCfg (i : Nat)
  | pdmCtl (i : Nat) | pdmStat (i : Nat) | pdmCnt (i : Nat) | pdmDcfrz | pdmCsel | pdmCdata | twinCtl | twinStat
  | twinCnt | twinMisf | twinSeq | twinTkf | schCtl | schStat | schFlt | schQdepth (i : Nat) | schLoad (i : Nat)
  | schDsel | schDesc | schWait | tmrCtl (i : Nat) | tmrPre (i : Nat) | tmrCnt (i : Nat) | tmrBuf (i : Nat)
  | tmrCmp (i : Nat) | tmrIntv (i : Nat) | tmrPhase (i : Nat) | tmrStat (i : Nat) | tmrCap (i : Nat) | tmrGo
  | uartCfg (i : Nat) | uartBaud (i : Nat) | uartDmx (i : Nat) | uartStat (i : Nat) | uartCnt (i : Nat)
  | uartRxd (i : Nat) | uartTxd (i : Nat) | cvCfg (i : Nat) | cvCode (i : Nat) | cvSine (i : Nat) | cvMon (i : Nat)
  | cvFault | cvCtl | cvPol | cvTrim (i : Nat) | cvSvc | modeStat | modeReq | rstCtl | rstStat | domRst | fltCfg
  | fltStat | fltLog | eccCnt | tempStat | tempCfg | updStat | updCtl | updVer | updFloor | updImg
  | ringDesc (i : Nat) | ringHead (i : Nat) | ringTail (i : Nat) | ringCtl (i : Nat) | ringStat (i : Nat)
  | mbxIn (i j : Nat) | mbxOut (i j : Nat) | mbxStat (i : Nat) | mbxCtl (i : Nat) | hpage
  deriving DecidableEq, Repr, Inhabited

/-- A row of the map: registers of one name, on a page from an offset on, n1 of them st1 words apart, or n1 times n2 of
them where the second index steps by st2; their width in words; whether a field can be written; the reserved bits. -/
structure RegRow where
  page : Nat
  base : Nat
  n1 : Nat
  st1 : Nat
  n2 : Nat
  st2 : Nat
  width : Nat
  writable : Bool
  rsvd : Nat
  reg : Nat → Nat → Reg

/-- Rows of the map: identity, host port, frames, blocking and windows. -/
def rowsIdent : List RegRow :=
  [⟨0, 0x0000, 1, 2, 1, 2, 2, false, 0, fun _ _ => .chipId⟩,
   ⟨0, 0x0002, 1, 2, 1, 2, 2, false, 0, fun _ _ => .chipRev⟩,
   ⟨0, 0x0004, 1, 2, 1, 2, 2, false, 0, fun _ _ => .behavLevel⟩,
   ⟨0, 0x0006, 1, 2, 1, 2, 2, false, 0, fun _ _ => .capUnits⟩,
   ⟨0, 0x0008, 1, 2, 1, 2, 2, false, 0, fun _ _ => .capIo⟩,
   ⟨0, 0x000A, 1, 2, 1, 2, 2, false, 0, fun _ _ => .capCtl⟩,
   ⟨0, 0x0010, 1, 4, 1, 4, 4, false, 0, fun _ _ => .hostErr⟩,
   ⟨0, 0x0014, 1, 2, 1, 2, 2, true, 0x3FFFFFF8, fun _ _ => .hostCfg⟩,
   ⟨0, 0x0016, 1, 2, 1, 2, 2, true, 0xFFFE0000, fun _ _ => .intStat⟩,
   ⟨0, 0x0018, 2, 2, 1, 2, 2, true, 0xFFFE0000, fun i _ => .intEn i⟩,
   ⟨0, 0x001C, 1, 2, 1, 2, 2, true, 0xFFFE0000, fun _ _ => .intSen⟩,
   ⟨0, 0x0040, 1, 4, 1, 4, 4, false, 0, fun _ _ => .frameCnt⟩,
   ⟨0, 0x0044, 1, 4, 1, 4, 4, true, 0, fun _ _ => .frameStart⟩,
   ⟨0, 0x0048, 1, 2, 1, 2, 2, false, 0, fun _ _ => .carderStat⟩,
   ⟨0, 0x004A, 1, 2, 1, 2, 2, false, 0, fun _ _ => .carderLate⟩,
   ⟨0, 0x004C, 1, 2, 1, 2, 2, false, 0, fun _ _ => .carderDisc⟩,
   ⟨0, 0x004E, 1, 2, 1, 2, 2, true, 0xFFFFFF80, fun _ _ => .detStat⟩,
   ⟨0, 0x0060, 1, 2, 1, 2, 2, true, 0x7CFF0000, fun _ _ => .blockCtl⟩,
   ⟨0, 0x0062, 1, 2, 1, 2, 2, true, 0, fun _ _ => .hoodFifo⟩,
   ⟨0, 0x0064, 1, 2, 1, 2, 2, false, 0, fun _ _ => .hoodStat⟩,
   ⟨0, 0x0066, 1, 2, 1, 2, 2, false, 0, fun _ _ => .hoodFail⟩,
   ⟨0, 0x0068, 1, 2, 1, 2, 2, false, 0, fun _ _ => .hoodVer⟩,
   ⟨0, 0x006A, 1, 2, 1, 2, 2, false, 0, fun _ _ => .hoodInfo⟩,
   ⟨0, 0x0100, 8, 0x40, 1, 0x40, 2, true, 0x300FFF60, fun i _ => .winCmd i⟩,
   ⟨0, 0x0102, 8, 0x40, 1, 0x40, 2, true, 0, fun i _ => .winAddr i⟩,
   ⟨0, 0x0104, 8, 0x40, 1, 0x40, 2, true, 0x3F00FFFF, fun i _ => .winStat i⟩,
   ⟨0, 0x0120, 8, 0x40, 16, 2, 2, true, 0, fun i j => .winBuf i j⟩]

/-- Rows of the map: voices, buses and placement. -/
def rowsVoice : List RegRow :=
  [⟨0, 0x0400, 64, 8, 1, 8, 2, false, 0, fun i _ => .vgCfg i⟩,
   ⟨0, 0x0402, 64, 8, 1, 8, 2, false, 0, fun i _ => .vgSteal i⟩,
   ⟨0, 0x0404, 64, 8, 1, 8, 2, false, 0, fun i _ => .vgStat i⟩,
   ⟨0, 0x0406, 64, 8, 1, 8, 2, false, 0, fun i _ => .vgCnt i⟩,
   ⟨0, 0x0600, 8, 2, 1, 2, 2, false, 0, fun i _ => .vcLoad i⟩,
   ⟨0, 0x0610, 8, 2, 1, 2, 2, false, 0, fun i _ => .vcPeak i⟩,
   ⟨0, 0x0620, 8, 2, 1, 2, 2, true, 0x0000FFFE, fun i _ => .vcStrm i⟩,
   ⟨0, 0x0630, 1, 2, 1, 2, 2, false, 0, fun _ _ => .strmStat⟩,
   ⟨0, 0x0640, 3, 2, 1, 2, 2, false, 0, fun i _ => .oscTcrc i⟩,
   ⟨0, 0x0650, 8, 2, 1, 2, 2, true, 0xFFFFFFF8, fun i _ => .vcShsat i⟩,
   ⟨0, 0x0660, 4, 2, 1, 2, 2, false, 0, fun i _ => .shpTcrc i⟩,
   ⟨0, 0x0700, 64, 2, 1, 2, 2, false, 0, fun i _ => .vgTempo i⟩,
   ⟨0, 0x0780, 16, 2, 1, 2, 2, true, 0x7FE0FE00, fun i _ => .busMsel i⟩,
   ⟨0, 0x07A0, 16, 2, 1, 2, 2, false, 0, fun i _ => .busPeak i⟩,
   ⟨0, 0x07C0, 16, 2, 1, 2, 2, false, 0, fun i _ => .busMs i⟩,
   ⟨0, 0x07E0, 16, 2, 1, 2, 2, false, 0, fun i _ => .busClip i⟩,
   ⟨0, 0x0800, 1, 2, 1, 2, 2, true, 0x7FFFFE00, fun _ _ => .busSat⟩,
   ⟨0, 0x0810, 8, 2, 1, 2, 2, false, 0, fun i _ => .plcStat i⟩]

/-- Rows of the map: fuller engines and delay lines. -/
def rowsFul : List RegRow :=
  [⟨0, 0x0900, 16, 2, 1, 2, 2, true, 0xFFFFFFF8, fun i _ => .fulCtl i⟩,
   ⟨0, 0x0920, 16, 2, 1, 2, 2, false, 0, fun i _ => .fulStat i⟩,
   ⟨0, 0x0940, 16, 2, 1, 2, 2, false, 0, fun i _ => .fulFlt i⟩,
   ⟨0, 0x0960, 16, 2, 1, 2, 2, true, 0xFF0000F0, fun i _ => .fulSat i⟩,
   ⟨0, 0x0980, 16, 2, 1, 2, 2, false, 0, fun i _ => .fulPre i⟩,
   ⟨0, 0x09A0, 16, 2, 1, 2, 2, false, 0, fun i _ => .fulLen i⟩,
   ⟨0, 0x09C0, 16, 2, 1, 2, 2, false, 0, fun i _ => .fulBank i⟩,
   ⟨0, 0x09E0, 16, 2, 1, 2, 2, false, 0, fun i _ => .fulXf i⟩,
   ⟨0, 0x0A00, 128, 2, 1, 2, 2, false, 0, fun i _ => .dlyLine i⟩,
   ⟨0, 0x0B00, 256, 2, 1, 2, 2, false, 0, fun i _ => .dlyTap i⟩,
   ⟨0, 0x0D00, 1, 2, 1, 2, 2, false, 0, fun _ _ => .dlyStat⟩]

/-- Rows of the map: clocks, audio interfaces and the twin link. -/
def rowsAudio : List RegRow :=
  [⟨0, 0x0E00, 1, 2, 1, 2, 2, false, 0, fun _ _ => .clkCfg⟩,
   ⟨0, 0x0E02, 1, 2, 1, 2, 2, true, 0x03FFFE00, fun _ _ => .clkStat⟩,
   ⟨0, 0x0E04, 1, 2, 1, 2, 2, false, 0, fun _ _ => .clkCnt⟩,
   ⟨0, 0x0E10, 4, 2, 1, 2, 2, false, 0, fun i _ => .domStat i⟩,
   ⟨0, 0x0E20, 8, 2, 1, 2, 2, false, 0, fun i _ => .sapCfg i⟩,
   ⟨0, 0x0E30, 8, 2, 1, 2, 2, true, 0x3F000000, fun i _ => .sapStat i⟩,
   ⟨0, 0x0E40, 8, 2, 1, 2, 2, false, 0, fun i _ => .sapSlip i⟩,
   ⟨0, 0x0E50, 4, 2, 1, 2, 2, true, 0x1CFFFF00, fun i _ => .audGrp i⟩,
   ⟨0, 0x0E58, 4, 2, 1, 2, 2, false, 0, fun i _ => .audGstart i⟩,
   ⟨0, 0x0E60, 1, 2, 1, 2, 2, false, 0, fun _ _ => .asrcStat⟩,
   ⟨0, 0x0E62, 4, 2, 1, 2, 2, false, 0, fun i _ => .asrcRatio i⟩,
   ⟨0, 0x0E70, 4, 2, 1, 2, 2, true, 0x03FFE000, fun i _ => .aesRxstat i⟩,
   ⟨0, 0x0E78, 4, 2, 1, 2, 2, false, 0, fun i _ => .aesRxcnt i⟩,
   ⟨0, 0x0E80, 4, 2, 1, 2, 2, true, 0x7FFFFFFE, fun i _ => .aesTxctl i⟩,
   ⟨0, 0x0F00, 4, 0x20, 12, 2, 2, false, 0, fun i j => .aesRxcs i j⟩,
   ⟨0, 0x0F80, 4, 0x20, 12, 2, 2, false, 0, fun i j => .aesRxub i j⟩,
   ⟨0, 0x1000, 4, 0x10, 6, 2, 2, true, 0, fun i j => .aesTxcs i j⟩,
   ⟨0, 0x1080, 4, 2, 1, 2, 2, false, 0, fun i _ => .pdmCfg i⟩,
   ⟨0, 0x1088, 4, 2, 1, 2, 2, true, 0x3FFFFFFF, fun i _ => .pdmCtl i⟩,
   ⟨0, 0x1090, 4, 2, 1, 2, 2, true, 0x07FFFF80, fun i _ => .pdmStat i⟩,
   ⟨0, 0x1098, 4, 2, 1, 2, 2, false, 0, fun i _ => .pdmCnt i⟩,
   ⟨0, 0x10A0, 1, 2, 1, 2, 2, true, 0, fun _ _ => .pdmDcfrz⟩,
   ⟨0, 0x10A2, 1, 2, 1, 2, 2, true, 0xFFFFFE00, fun _ _ => .pdmCsel⟩,
   ⟨0, 0x10A4, 1, 2, 1, 2, 2, true, 0, fun _ _ => .pdmCdata⟩,
   ⟨0, 0x1100, 1, 2, 1, 2, 2, true, 0x0FFFFFF8, fun _ _ => .twinCtl⟩,
   ⟨0, 0x1102, 1, 2, 1, 2, 2, true, 0x000000FF, fun _ _ => .twinStat⟩,
   ⟨0, 0x1104, 1, 2, 1, 2, 2, false, 0, fun _ _ => .twinCnt⟩,
   ⟨0, 0x1106, 1, 2, 1, 2, 2, false, 0, fun _ _ => .twinMisf⟩,
   ⟨0, 0x1108, 1, 2, 1, 2, 2, false, 0, fun _ _ => .twinSeq⟩,
   ⟨0, 0x110A, 1, 2, 1, 2, 2, false, 0, fun _ _ => .twinTkf⟩]

/-- Rows of the map: scheduler, timers, UARTs and CV outputs. -/
def rowsCtl : List RegRow :=
  [⟨0, 0x1200, 1, 2, 1, 2, 2, true, 0x7FFFFC00, fun _ _ => .schCtl⟩,
   ⟨0, 0x1202, 1, 2, 1, 2, 2, false, 0, fun _ _ => .schStat⟩,
   ⟨0, 0x1204, 1, 2, 1, 2, 2, false, 0, fun _ _ => .schFlt⟩,
   ⟨0, 0x1210, 32, 2, 1, 2, 2, false, 0, fun i _ => .schQdepth i⟩,
   ⟨0, 0x1260, 20, 2, 1, 2, 2, false, 0, fun i _ => .schLoad i⟩,
   ⟨0, 0x1290, 1, 2, 1, 2, 2, true, 0xFFFFFC00, fun _ _ => .schDsel⟩,
   ⟨0, 0x1294, 1, 4, 1, 4, 4, false, 0, fun _ _ => .schDesc⟩,
   ⟨0, 0x1298, 1, 2, 1, 2, 2, false, 0, fun _ _ => .schWait⟩,
   ⟨0, 0x1400, 8, 0x20, 1, 0x20, 2, true, 0x0003F1FF, fun i _ => .tmrCtl i⟩,
   ⟨0, 0x1402, 8, 0x20, 1, 0x20, 2, true, 0, fun i _ => .tmrPre i⟩,
   ⟨0, 0x1404, 8, 0x20, 1, 0x20, 2, false, 0, fun i _ => .tmrCnt i⟩,
   ⟨0, 0x1406, 8, 0x20, 1, 0x20, 2, true, 0, fun i _ => .tmrBuf i⟩,
   ⟨0, 0x1408, 8, 0x20, 1, 0x20, 2, true, 0, fun i _ => .tmrCmp i⟩,
   ⟨0, 0x140A, 8, 0x20, 1, 0x20, 2, true, 0, fun i _ => .tmrIntv i⟩,
   ⟨0, 0x140C, 8, 0x20, 1, 0x20, 2, true, 0, fun i _ => .tmrPhase i⟩,
   ⟨0, 0x140E, 8, 0x20, 1, 0x20, 2, true, 0x07FF00FF, fun i _ => .tmrStat i⟩,
   ⟨0, 0x1410, 8, 0x20, 1, 0x20, 4, false, 0, fun i _ => .tmrCap i⟩,
   ⟨0, 0x1500, 1, 2, 1, 2, 2, true, 0xFFFFFF00, fun _ _ => .tmrGo⟩,
   ⟨0, 0x1520, 4, 0x20, 1, 0x20, 2, true, 0x00000038, fun i _ => .uartCfg i⟩,
   ⟨0, 0x1522, 4, 0x20, 1, 0x20, 2, true, 0, fun i _ => .uartBaud i⟩,
   ⟨0, 0x1524, 4, 0x20, 1, 0x20, 2, true, 0xFF0000FF, fun i _ => .uartDmx i⟩,
   ⟨0, 0x1526, 4, 0x20, 1, 0x20, 2, true, 0x070000FF, fun i _ => .uartStat i⟩,
   ⟨0, 0x1528, 4, 0x20, 1, 0x20, 2, false, 0, fun i _ => .uartCnt i⟩,
   ⟨0, 0x152A, 4, 0x20, 1, 0x20, 1, false, 0, fun i _ => .uartRxd i⟩,
   ⟨0, 0x152B, 4, 0x20, 1, 0x20, 1, true, 0x0000FF00, fun i _ => .uartTxd i⟩,
   ⟨0, 0x1600, 16, 2, 1, 2, 2, false, 0, fun i _ => .cvCfg i⟩,
   ⟨0, 0x1620, 16, 2, 1, 2, 2, false, 0, fun i _ => .cvCode i⟩,
   ⟨0, 0x1640, 16, 4, 1, 4, 4, false, 0, fun i _ => .cvSine i⟩,
   ⟨0, 0x1680, 20, 1, 1, 1, 1, false, 0, fun i _ => .cvMon i⟩,
   ⟨0, 0x16A0, 1, 2, 1, 2, 2, true, 0, fun _ _ => .cvFault⟩,
   ⟨0, 0x16A2, 1, 2, 1, 2, 2, true, 0xFFFF0000, fun _ _ => .cvCtl⟩,
   ⟨0, 0x16A4, 1, 2, 1, 2, 2, true, 0xFFFF0000, fun _ _ => .cvPol⟩,
   ⟨0, 0x16C0, 16, 2, 1, 2, 2, true, 0xFFFF0000, fun i _ => .cvTrim i⟩,
   ⟨0, 0x16E0, 1, 2, 1, 2, 2, true, 0x7FF00000, fun _ _ => .cvSvc⟩]

/-- Rows of the map: modes, faults and update. -/
def rowsMode : List RegRow :=
  [⟨0, 0x1700, 1, 2, 1, 2, 2, false, 0, fun _ _ => .modeStat⟩,
   ⟨0, 0x1702, 1, 2, 1, 2, 2, true, 0xFFFFFFF0, fun _ _ => .modeReq⟩,
   ⟨0, 0x1704, 1, 2, 1, 2, 2, true, 0x00FFFFFC, fun _ _ => .rstCtl⟩,
   ⟨0, 0x1706, 1, 2, 1, 2, 2, false, 0, fun _ _ => .rstStat⟩,
   ⟨0, 0x1708, 1, 2, 1, 2, 2, true, 0x1FFFFFF0, fun _ _ => .domRst⟩,
   ⟨0, 0x170C, 1, 2, 1, 2, 2, true, 0xFFFFFFF8, fun _ _ => .fltCfg⟩,
   ⟨0, 0x170E, 1, 2, 1, 2, 2, true, 0x7FF9F000, fun _ _ => .fltStat⟩,
   ⟨0, 0x1710, 1, 4, 1, 4, 4, false, 0, fun _ _ => .fltLog⟩,
   ⟨0, 0x1714, 1, 2, 1, 2, 2, false, 0, fun _ _ => .eccCnt⟩,
   ⟨0, 0x1716, 1, 2, 1, 2, 2, false, 0, fun _ _ => .tempStat⟩,
   ⟨0, 0x1718, 1, 2, 1, 2, 2, true, 0xFFFF0000, fun _ _ => .tempCfg⟩,
   ⟨0, 0x1800, 1, 2, 1, 2, 2, true, 0x0000FFF0, fun _ _ => .updStat⟩,
   ⟨0, 0x1802, 1, 2, 1, 2, 2, true, 0xFFFFFFFE, fun _ _ => .updCtl⟩,
   ⟨0, 0x1804, 1, 2, 1, 2, 2, false, 0, fun _ _ => .updVer⟩,
   ⟨0, 0x1806, 1, 2, 1, 2, 2, false, 0, fun _ _ => .updFloor⟩,
   ⟨0, 0x1808, 1, 2, 1, 2, 2, false, 0, fun _ _ => .updImg⟩]

/-- Rows of the map: rings and mailboxes. -/
def rowsPage3 : List RegRow :=
  [⟨3, 0x8000, 64, 8, 1, 8, 2, false, 0, fun i _ => .ringDesc i⟩,
   ⟨3, 0x8002, 64, 8, 1, 8, 1, true, 0, fun i _ => .ringHead i⟩,
   ⟨3, 0x8003, 64, 8, 1, 8, 1, true, 0, fun i _ => .ringTail i⟩,
   ⟨3, 0x8004, 64, 8, 1, 8, 2, true, 0x7FFFE000, fun i _ => .ringCtl i⟩,
   ⟨3, 0x8006, 64, 8, 1, 8, 2, false, 0, fun i _ => .ringStat i⟩,
   ⟨3, 0x8400, 16, 0x40, 8, 2, 2, true, 0, fun i j => .mbxIn i j⟩,
   ⟨3, 0x8410, 16, 0x40, 8, 2, 2, false, 0, fun i j => .mbxOut i j⟩,
   ⟨3, 0x8420, 16, 0x40, 1, 0x40, 2, true, 0x07FF0000, fun i _ => .mbxStat i⟩,
   ⟨3, 0x8422, 16, 0x40, 1, 0x40, 2, true, 0x7FFFFFF8, fun i _ => .mbxCtl i⟩]

/-- The map. -/
def regRows : List RegRow := rowsIdent ++ rowsVoice ++ rowsFul ++ rowsAudio ++ rowsCtl ++ rowsMode ++ rowsPage3

/-- A register as found at an address. -/
structure RegAt where
  reg : Reg
  page : Nat
  base : Nat
  width : Nat
  writable : Bool
  rsvd : Nat
  deriving DecidableEq, Repr

/-- What row x of the map has at an address. -/
def RegRow.at_ (x : RegRow) (page off : Nat) : Option RegAt :=
  let d := off - x.base
  let i := d / x.st1
  let j := d % x.st1 / x.st2
  if x.page = page ∧ x.base ≤ off ∧ i < x.n1 ∧ j < x.n2 ∧ d % x.st1 % x.st2 < x.width then
    some ⟨x.reg i j, page, x.base + i * x.st1 + j * x.st2, x.width, x.writable, x.rsvd⟩
  else none

/-- R298: HPAGE, at word 0xFFFF of every page. -/
def hpageAt (page : Nat) : RegAt := ⟨.hpage, page, 0xFFFF, 1, true, 0xFF00⟩

/-- R299: the register at a page and offset, if any. -/
def regFind (page off : Nat) : Option RegAt :=
  if off = 0xFFFF then some (hpageAt page) else regRows.findSome? fun x => x.at_ page off

/-- R314: whether a port reaches an address. Word 0xFFFF is reserved from the SPI port, not unreachable (R298). -/
def reaches (p : Port) (page off : Nat) : Bool :=
  if page = 0 then
    match p with
    | .host => !(decide (0x1800 ≤ off) && decide (off ≤ 0x18FF)) && !(decide (0x200 ≤ off) && decide (off ≤ 0x2FF))
    | .spi => !(decide (0x100 ≤ off) && decide (off ≤ 0x1FF))
  else if page = 3 then
    match p with
    | .host => !(decide (0x8600 ≤ off) && decide (off ≤ 0x87FF))
    | .spi => !(decide (0x8400 ≤ off) && decide (off ≤ 0x85FF))
  else true

/-- R319: an address of ring memory, and its byte address. -/
def inRingMem (page off : Nat) : Bool := decide (1 ≤ page) && decide (page ≤ 3) && decide (off < 0x8000)
def ringByte (page off : Nat) : Nat := 65536 * (page - 1) + 2 * off

/-- R74: the registers of the units that blocking configures. -/
def blockedRange (page base : Nat) : Bool :=
  let within := fun (a b : Nat) => decide (a ≤ base) && decide (base ≤ b)
  if page = 0 then within 0x0400 0x0D01 || within 0x0E00 0x10A5 || within 0x1100 0x110B || within 0x1200 0x16FF
  else page == 3 && within 0x8000 0x81FF

/-- R5: the register belongs to a unit that the part lacks. On a part without CV outputs the four supply readings
CV_MON[16..19] count as registers of the absent unit too: whether their converter is absent there is not stated (DESIGN
CHOICE, log entry 75). -/
def partLacks (s : State) : Reg → Bool
  | .vcLoad c | .vcPeak c | .vcStrm c | .vcShsat c | .plcStat c => decide (s.part.clusters ≤ c)
  | .fulCtl e | .fulStat e | .fulFlt e | .fulSat e | .fulPre e | .fulLen e | .fulBank e | .fulXf e => decide (s.part.engines ≤ e)
  | .aesRxstat r | .aesRxcnt r | .aesTxctl r => decide (s.part.aes ≤ r)
  | .aesRxcs r _ | .aesRxub r _ | .aesTxcs r _ => decide (s.part.aes ≤ r)
  | .twinCtl | .twinStat | .twinCnt | .twinMisf | .twinSeq | .twinTkf => !s.part.twin
  | .schLoad k => decide (4 ≤ k) && decide (s.part.engines ≤ k - 4)
  | .cvCfg c | .cvCode c | .cvSine c | .cvTrim c => decide (s.part.cvs ≤ c)
  | .cvMon i => if i < 16 then decide (s.part.cvs ≤ i) else s.part.cvs == 0
  | .cvFault | .cvCtl | .cvPol | .cvSvc => s.part.cvs == 0
  | _ => false

/-- The hood defines alignment group g (R247): some port is in it. -/
def grpDefined (s : State) (g : Nat) : Bool :=
  (List.range 8).any fun p => match hportOf s p with | some h => h.group == some g | none => false

/-- R6, R30: the register belongs to a unit, group, line, tap or ring that the loaded hood does not enable or define, as
chapters 4, 8, 10, 11, 12, 15 and 18 name them; nothing is enabled while no hood is loaded. -/
def notEnabled (s : State) : Reg → Bool
  | .vgCfg g | .vgSteal g | .vgStat g | .vgCnt g | .vgTempo g => (hgroupOf s g).isNone
  | .vcLoad c | .vcPeak c | .vcStrm c | .vcShsat c | .plcStat c => !clusterOn s c
  | .fulCtl e | .fulStat e | .fulFlt e | .fulSat e | .fulPre e | .fulLen e | .fulBank e | .fulXf e => !engineOn s e
  | .dlyLine l => (match s.hood with | some h => (Store.get none h.dram.lines l).isNone | none => true)
  | .dlyTap t => (match s.hood with | some h => (Store.get none h.dram.taps t).isNone | none => true)
  | .sapCfg p | .sapStat p | .sapSlip p => (hportOf s p).isNone
  | .audGrp g | .audGstart g => !grpDefined s g
  | .aesRxstat r | .aesRxcnt r | .aesRxcs r _ | .aesRxub r _ => (hrxOf s r).isNone
  | .aesTxctl x | .aesTxcs x _ => (htxOf s x).isNone
  | .pdmCfg k | .pdmCtl k | .pdmStat k | .pdmCnt k => (hpdmOf s k).isNone
  | .cvCfg c | .cvCode c | .cvSine c => (hcvOf s c).isNone
  | .cvTrim c => s.hood.isSome && (hcvOf s c).isNone
  | .cvMon i => decide (i < 16) && (hcvOf s i).isNone
  | .ringDesc r | .ringHead r | .ringTail r | .ringCtl r | .ringStat r => (hringOf s r).isNone
  | _ => false

/-- R5, R6, R320: a write to the register is refused with E_ABSENT. -/
def regAbsent (s : State) (r : Reg) : Bool := partLacks s r || notEnabled s r

/-- R5: the register reads zero. With no hood loaded the reset values of the register tables stand. -/
def readsZero (s : State) (r : Reg) : Bool := partLacks s r || (s.hood.isSome && notEnabled s r)

end Sys2Proof.Machine
end

