-- ==== Sys2Proof/Machine/RegRead.lean ====
section
/-! DEFINITION. What every register reads as, and what a read of its base word does (R13, R302 and the register tables). -/

namespace Sys2Proof.Machine

/-- A mask of the numbers below n that satisfy a test. -/
def maskOf (n : Nat) (p : Nat → Bool) : Nat := (List.range n).foldl (fun a i => a + b2n (p i) * 2 ^ i) 0

/-- A flag at a bit. -/
def flag (b : Bool) (lo : Nat) : Nat := b2n b * 2 ^ lo

/-! ## Identity (R315) -/

/-- CHIP_ID, CAP_UNITS, CAP_IO and CAP_CTL of a part. -/
def chipIdOf (p : Part) : Nat := 0x57560000 + p.number
def capUnitsOf : Part → Nat
  | .wvd880 => 0xFFFF0FFF | .wvd860 => 0x00FF0FFF | .wvd840 => 0xFFFF0F03 | .wvd820 => 0x000F0F0F
def capIoOf : Part → Nat
  | .wvd880 => 0x80FFFFFF | .wvd860 => 0x0033000F | .wvd840 => 0x80FFFFFF | .wvd820 => 0x0033000F
def capCtlOf : Part → Nat
  | .wvd880 => 0xFFFFFFFF | .wvd860 => 0x00FFFFFF | .wvd840 => 0x0000FFFF | .wvd820 => 0x0000FFFF

/-! ## Host port, frames and blocking (chapters 2, 3 and 14) -/

/-- HOST_ERR. -/
def hostErrReg (s : State) : Nat :=
  let h := s.host
  place h.errCount 8 56 + flag (h.errPort == .spi) 48 + place h.errCode 8 40 + place h.errPage 8 32 + place h.errOff 16 0

/-- HOST_CFG. -/
def hostCfgReg (s : State) : Nat := flag s.host.sintod 2 + flag s.host.intod 1 + flag s.host.sync 0

/-- CARDER_STAT. -/
def carderStatReg (s : State) : Nat :=
  place s.carder.store.length 13 19 + place s.carder.loglost 10 9 + place s.carder.applied 9 0

/-- DET_STAT (R63, R64). -/
def detStatReg (s : State) : Nat :=
  flag (s.hood.isSome && !detHood s) 6 + flag s.det.moved 5 + flag s.det.hold 4 + flag s.det.fault 3 + flag s.det.winwrite 2 +
    flag s.det.bgwrite 1 + flag (detValid s) 0

/-- BLOCK_CTL. -/
def blockCtlReg (s : State) : Nat := flag (s.mode.mode == .load) 31 + place s.block.src 2 24 + place s.block.qaddr 16 0

/-- HOOD_STAT. -/
def hoodStatReg (s : State) : Nat :=
  flag s.hood.isSome 31 + place s.block.stage 3 28 + flag s.block.need 27 + place s.block.result 8 16 +
    place (fifoWords - s.block.fifo.length) 11 0

/-- HOOD_FAIL. -/
def hoodFailReg (s : State) : Nat := place s.block.failEntry 8 24 + place s.block.failOff 24 0

/-- HOOD_INFO. -/
def hoodInfoReg (s : State) : Nat :=
  match s.hood with
  | some h => place h.hdr.level 8 24 + flag h.hdr.ownsig 2 + flag h.hdr.twin 1 + flag h.hdr.det 0
  | none => 0

/-- WIN_CMD: GO reads 1 while BUSY. -/
def winCmdReg (x : Window) : Nat :=
  flag x.busy 31 + flag x.dir 30 + place x.tgt 4 24 + place x.eng 4 20 + flag x.doneie 7 + place x.len 5 0

/-- WIN_STAT. -/
def winStatReg (x : Window) : Nat := flag x.busy 31 + flag x.done 30 + place x.code 8 16

/-! ## Voices and buses (chapters 4 to 7) -/

/-- VG_CFG; zero for a group that the hood does not define. -/
def vgCfgReg (s : State) (g : Nat) : Nat :=
  match s.groups[g]? with
  | some x => flag true 31 + place x.limit 12 16 + place x.mask 8 8 + place x.priority 4 0
  | none => 0

/-- VG_STEAL; its reset value while no hood defines groups. -/
def vgStealReg (s : State) (g : Nat) : Nat :=
  match s.groups[g]? with
  | some x => place x.keys 8 8 + place x.fade 2 4 + place x.policy 2 0
  | none => 0x1B21

/-- VG_STAT. -/
def vgStatReg (s : State) (g : Nat) : Nat := place (voiceCount s g) 12 16 + place (releasedCount s g) 12 0

/-- VG_CNT. -/
def vgCntReg (s : State) (g : Nat) : Nat :=
  match s.groups[g]? with
  | some x => place x.steals 8 24 + place x.novoice 8 16 + place x.bandwidth 8 8 + place x.stale 8 0
  | none => 0

/-- VG_TEMPO. -/
def vgTempoReg (s : State) (g : Nat) : Nat := match s.groups[g]? with | some x => x.bi % 2 ^ 32 | none => 0

/-- A cluster. -/
def clusterAt (s : State) (c : Nat) : Cluster := s.clusters.getD c Cluster.empty

/-- VC_LOAD, VC_STRM, VC_SHSAT and PLC_STAT. -/
def vcLoadReg (s : State) (c : Nat) : Nat := place (chargeOf s c) 13 16 + place (freeSlots s c) 9 0
def vcStrmReg (x : Cluster) : Nat := place x.late 8 24 + place x.eccue 8 16 + flag x.osat 0
def vcShsatReg (x : Cluster) : Nat := flag x.msat 2 + flag x.wsat 1 + flag x.fsat 0
def plcStatReg (x : Cluster) : Nat := place x.cellLate 8 24 + place x.cellEcc 8 16 + place x.evict 8 8

/-- A meter. -/
def meterAt (s : State) (m : Nat) : Meter := s.bus.meters.getD m default

/-- BUS_MSEL as last written. -/
def busMselReg (x : Meter) : Nat :=
  match x.next with
  | some (en, w, b) => flag en 31 + place w 5 16 + place b 9 0
  | none => flag x.en 31 + place x.w 5 16 + place x.bus 9 0

/-! ## Fuller engines (chapters 8 and 10) -/

/-- FUL_CTL. -/
def fulCtlReg (g : Engine) : Nat := flag g.satie 2 + flag g.fltie 1 + flag g.bgen 0

/-- FUL_STAT.STATE. -/
def phaseCode : EngPhase → Nat
  | .background => 1 | .sample => 2 | .stopped => 3 | _ => 0

/-- FUL_STAT. -/
def fulStatReg (g : Engine) : Nat :=
  place (phaseCode g.phase) 2 30 + (match g.task with | some t => flag true 26 + place t 10 16 | none => 0) + place g.pc.toNat 13 0

/-- FUL_FLT. -/
def fulFltReg (g : Engine) : Nat := place g.fltCode 4 28 + place g.fltFrame 12 16 + place g.fltPc.toNat 13 0

/-- FUL_SAT. -/
def fulSatReg (g : Engine) : Nat :=
  place g.tfault 8 16 + place g.wfault 8 8 + flag g.bsv 3 + flag g.bav 2 + flag g.ssv 1 + flag g.sav 0

/-- FUL_BANK. -/
def fulBankReg (g : Engine) : Nat :=
  flag g.act 31 + flag g.xf.isSome 30 + place g.xfLogn 4 16 + (match g.xf with | some x => place (2 ^ x.logn - x.k) 13 0 | none => 0)

/-- FUL_XF. -/
def fulXfReg (g : Engine) : Nat := place g.xfCount 15 16 + place g.xfFirst 14 0

/-- DLY_LINE. -/
def dlyLineReg (s : State) (l : Nat) : Nat :=
  match Store.get none s.dly.lines l with | some x => flag true 31 + place x.owner 4 27 + place x.len 19 0 | none => 0

/-- DLY_TAP. -/
def dlyTapReg (s : State) (t : Nat) : Nat :=
  match Store.get none s.dly.taps t with
  | some x => flag true 31 + place x.owner 4 27 + place x.line 7 20 + place x.d 19 0
  | none => 0

/-! ## Clocks and audio interfaces (chapters 11 and 12) -/

/-- CLK_CFG. -/
def clkCfgReg (s : State) : Nat :=
  match s.hood with
  | some h =>
    place h.clocks.rate.idx 3 29 + (match h.clocks.backup with | some b => flag true 28 + place b 2 26 | none => 0) +
      place h.clocks.master 2 24 + place (maskOf 4 fun d => h.clocks.sync.getD d false) 4 20
  | none => 0

/-- CLK_STAT.RELOCK: the highest run among the candidates, in HOLD. -/
def relockRun (s : State) : Nat :=
  if effMode s = .hold then (List.range 4).foldl (fun a d => if candidate s d then max a (domAt s d).relock else a) 0 else 0

/-- CLK_STAT. -/
def clkStatReg (s : State) : Nat :=
  place s.clocks.src 2 30 + flag s.clocks.onBackup 29 + flag (effMode s == .hold) 28 + flag s.clocks.rateF 27 + flag s.clocks.lossF 26 +
    place (relockRun s) 9 0

/-- CLK_CNT. -/
def clkCntReg (s : State) : Nat :=
  place s.clocks.glitch 8 24 + place s.clocks.held 8 16 + place s.clocks.loss 8 8 + place s.clocks.rateN 8 0

/-- DOM_STAT. -/
def domStatReg (s : State) (d : Nat) : Nat :=
  let x := domAt s d
  let present := match x.last with | some l => decide (s.now < l + expiryTime (domCycles s d)) | none => false
  let src := match s.hood with | some h => place (h.clocks.kind.getD d 0) 2 29 + place (h.clocks.index.getD d 0) 3 26 | none => 0
  flag present 31 + src + flag (decide (16 ≤ x.run)) 25 + place x.period 16 0

/-- SAP_CFG. -/
def sapCfgReg (s : State) (p : Nat) : Nat :=
  match hportOf s p with
  | some h =>
    flag true 31 + place h.domain 2 29 + flag (!syncDomain s h.domain) 28 + place h.format 2 26 + place h.slotw 2 24 + place h.wlen 2 22 +
      place h.fsdly 1 21 + flag h.bclkinv 20 + (match h.group with | some g => place g 2 18 + flag true 17 | none => 0) + place h.lines 4 12
  | none => 0

/-- SAP_STAT. -/
def sapStatReg (x : Sap) : Nat :=
  flag x.iface.stopped 31 + flag x.osat 30 + place x.iface.under 8 16 + place x.iface.ovr 8 8 + place x.framerr 8 0

/-- SAP_SLIP. -/
def sapSlipReg (x : Sap) : Nat := place x.iface.discard 16 16 + place x.iface.refix 8 8 + unsigned 8 x.iface.last

/-- An alignment group, and the ports that are in it. -/
def grpAt (s : State) (g : Nat) : AudGrp := s.audio.grps.getD g AudGrp.empty
def grpPorts (s : State) (g : Nat) : Nat := maskOf 8 fun p => match hportOf s p with | some h => h.group == some g | none => false

/-- AUD_GRP. -/
def audGrpReg (s : State) (g : Nat) : Nat :=
  flag (grpAt s g).started 31 + flag (grpAt s g).arm 30 + place (grpModeOf s g) 2 24 + place (grpPorts s g) 8 0

/-- ASRC_STAT. -/
def asrcStatReg (s : State) : Nat :=
  place (maskOf 4 fun d => (domAt s d).lock) 4 28 + place (match s.hood with | some h => asrcChannels h.clocks h.ports | none => 0) 7 0

/-- AES_RXSTAT. -/
def aesRxstatReg (r : AesRx) : Nat :=
  flag r.lock 31 + flag r.pro 30 + flag r.nonaud 29 + flag r.va 28 + flag r.vb 27 + flag r.crcerr 26 + place r.quiet 13 0

/-- AES_RXCNT. -/
def aesRxcntReg (r : AesRx) : Nat := place r.parerr 8 24 + place r.biphase 8 16 + place r.unlock 8 8

/-- PDM_CFG. -/
def pdmCfgReg (s : State) (k : Nat) : Nat :=
  match hpdmOf s k with
  | some h => flag true 31 + place h.domain 2 29 + place h.ratio 2 27 + place h.preset 2 25 + place h.dck 5 20 + place h.lines 16 0
  | none => 0

/-- PDM_STAT. -/
def pdmStatReg (g : Pdm) : Nat :=
  flag g.valid 31 + flag g.stopped 30 + place g.actBank 1 29 + flag g.swPend 28 + flag g.osat 27 + place g.settle 7 0

/-- PDM_CNT. -/
def pdmCntReg (g : Pdm) : Nat := place g.stops 8 24 + place g.resets 8 16 + place g.iface.refix 8 8 + place g.iface.under 8 0

/-- PDM_CSEL, and the word it selects. -/
def pdmCselReg (s : State) : Nat := place s.audio.selGroup 2 7 + place s.audio.selBank 1 6 + place s.audio.selWord 6 0
def pdmCoef (s : State) : Nat :=
  let g := pdmAt s s.audio.selGroup
  (Store.get 0 (if s.audio.selBank = 0 then g.bank0 else g.bank1) s.audio.selWord).toNat

/-! ## The twin link (chapter 13) -/

/-- TWIN_CTL: SWAP reads 1 while pending. -/
def twinCtlReg (w : Twin) : Nat :=
  flag w.pair 31 + flag w.swapAt.isSome 30 + flag w.roleOvr 29 + flag w.role 28 + flag w.misie 2 + flag w.tkie 1 + flag w.linkie 0

/-- TWIN_STAT. -/
def twinStatReg (s : State) : Nat :=
  let w := s.twin
  flag w.paired 31 + flag w.lead 30 + flag (takes s) 29 + flag w.instep 28 + flag w.retired 27 + flag w.partner 26 + flag w.linkup 25 +
    flag w.strap 24 + flag w.mismatch 23 + flag w.took 22 + flag w.yielded 21 + flag w.outstep 20 + place w.cause 4 16 + place w.result 8 8

/-- TWIN_CNT. -/
def twinCntReg (w : Twin) : Nat := place w.markerr 8 24 + place w.lateent 8 16 + place w.discard 8 8 + place w.mismN 8 0

/-! ## Scheduler (chapter 15) -/

/-- Number of descriptors that satisfy a test. -/
def countDescs (s : State) (p : Desc → Bool) : Nat := (s.sched.descs.filter fun kd => p kd.2).length

/-- R347: READY and PREFETCHED tasks wait in a queue. -/
def queued (d : Desc) : Bool := d.state == .ready || d.state == .prefetched

/-- SCH_CTL. -/
def schCtlReg (s : State) : Nat := flag s.sched.tfie 31 + place s.sched.lwin 10 0

/-- SCH_STAT. -/
def schStatReg (s : State) : Nat :=
  place (countDescs s queued) 11 21 + place (countDescs s fun d => d.state == .delayed) 11 10 + place s.sched.tfault 8 0

/-- SCH_DESC. -/
def schDescReg (d : Desc) : Nat :=
  let held := d.state == .prefetched || d.state == .running
  place d.state.code 3 61 + place d.prio 5 56 + flag d.tick 55 + flag d.rerun 54 + flag d.host 53 + flag d.ful 52 +
    (if d.ful then place d.eng 4 48 else place d.cmask 4 44) + (if held then place d.core 5 39 else 0) +
    (if d.state = .delayed then place d.remain 16 16 else 0) + (if d.ful then place d.entry 13 0 else 0)

/-! ## Modes and faults (chapter 19) -/

/-- RST_STAT. -/
def rstStatReg (s : State) : Nat := place s.mode.cause 3 29 + place s.mode.crst 8 8 + place s.mode.wdg 8 0

/-- DOM_RST. -/
def domRstReg (s : State) : Nat := flag (s.flt.restart != .none) 30 + flag s.flt.selKind 29 + place s.flt.selIndex 4 0

/-- FLT_CFG. -/
def fltCfgReg (s : State) : Nat := flag s.flt.eccsafe 2 + flag s.flt.vcsafe 1 + flag s.flt.engsafe 0

/-- FLT_STAT. -/
def fltStatReg (s : State) : Nat :=
  flag s.flt.ovf 31 + flag s.flt.thermal 18 + flag (s.flt.power != 0) 17 + place (poweredMask s) 12 0

/-- FLT_LOG: the oldest entry. -/
def fltLogReg (s : State) : Nat :=
  match s.flt.log with
  | e :: _ => place e.cls 8 56 + place e.unit 8 48 + place e.resp 4 44 + place e.frame 32 0
  | [] => 0

/-- ECC_CNT. -/
def eccCntReg (s : State) : Nat := place s.flt.dce 8 24 + place s.flt.due 8 16 + place s.flt.sce 8 8 + place s.flt.log.length 5 0

/-- TEMP_STAT. -/
def tempStatReg (s : State) : Nat := unsigned 16 s.flt.temp * 2 ^ 16 + unsigned 16 s.flt.tmax

/-! ## Rings and mailboxes (chapter 15) -/

/-- RING_DESC. -/
def ringDescReg (s : State) (r : Nat) : Nat :=
  match hringOf s r with
  | some h => place h.type 4 28 + place h.prod.code 3 25 + place h.cons.code 3 22 + place h.uart 2 20 + place h.size 4 16 + place h.base 13 0
  | none => 0

/-- RING_STAT. -/
def ringStatReg (s : State) (r : Nat) : Nat :=
  match hringOf s r with
  | some h => flag (ringPend h (ringState s r)) 31 + place (ringCount (ringState s r)) 13 16 + place (ringState s r).lost 8 0
  | none => 0

/-- MBX_STAT. -/
def mbxStatReg (m : Mbx) : Nat :=
  flag m.infull 31 + flag m.outfull 30 + flag m.cross 29 + flag m.lost 28 + flag m.flshd 27 + place m.oseq 8 8 + place m.iseq 8 0

/-- MBX_CTL. -/
def mbxCtlReg (m : Mbx) : Nat := flag m.errie 2 + flag m.ineie 1 + flag m.outie 0

/-! ## UARTs -/

/-- UART_RXD: the entry that a read removes; none where a UART_RX ring is assigned (R376). -/
def uartRxdReg (s : State) (u : Nat) : Nat :=
  if (rxRing s u).isSome then 0
  else match (uartAt s u).rxq with | c :: _ => flag true 15 + place c.word.toNat 11 0 | [] => 0

/-! ## The value of a register -/

/-- Word i of a list. -/
def wordOf (ws : Words) (i : Nat) : Nat := (ws.getD i 0).toNat

/-- What a register that is present reads as. -/
def liveVal (s : State) : Reg → Nat
  | .chipId => chipIdOf s.part | .chipRev => 0x100 | .behavLevel => behavLevel
  | .capUnits => capUnitsOf s.part | .capIo => capIoOf s.part | .capCtl => capCtlOf s.part
  | .hostErr => hostErrReg s | .hostCfg => hostCfgReg s | .intStat => intStat s
  | .intEn n => if n = 0 then s.host.intEn0 else s.host.intEn1
  | .intSen => s.host.intSen | .hpage => s.host.hpage
  | .frameCnt => frameReg s % 2 ^ 64 | .frameStart => s.frame.start % 2 ^ 64 | .carderStat => carderStatReg s
  | .carderLate => place s.carder.late 16 16 + place s.carder.defer 16 0 | .carderDisc => place s.carder.disc 16 0
  | .detStat => detStatReg s | .blockCtl => blockCtlReg s | .hoodFifo => 0 | .hoodStat => hoodStatReg s
  | .hoodFail => hoodFailReg s | .hoodVer => hoodVer s | .hoodInfo => hoodInfoReg s
  | .winCmd w => winCmdReg (winAt s w) | .winAddr w => (winAt s w).addr % 2 ^ 32 | .winStat w => winStatReg (winAt s w)
  | .winBuf w i => wordOf (winAt s w).buf i
  | .vgCfg g => vgCfgReg s g | .vgSteal g => vgStealReg s g | .vgStat g => vgStatReg s g | .vgCnt g => vgCntReg s g
  | .vgTempo g => vgTempoReg s g
  | .vcLoad c => vcLoadReg s c | .vcPeak c => place (clusterAt s c).peak 13 0 | .vcStrm c => vcStrmReg (clusterAt s c)
  | .vcShsat c => vcShsatReg (clusterAt s c) | .plcStat c => plcStatReg (clusterAt s c)
  | .strmStat => place (sbufCount s) 13 16 + place s.carder.sbufPeak 13 0
  | .oscTcrc t => oscCrc t | .shpTcrc t => shpCrc t
  | .busMsel m => busMselReg (meterAt s m) | .busPeak m => place (meterAt s m).peak 32 0 | .busMs m => place (meterAt s m).ms 31 0
  | .busClip m => place (meterAt s m).clip 16 0 | .busSat => flag s.bus.sat 31 + place s.bus.first 9 0
  | .fulCtl e => fulCtlReg (engAt s e) | .fulStat e => fulStatReg (engAt s e) | .fulFlt e => fulFltReg (engAt s e)
  | .fulSat e => fulSatReg (engAt s e) | .fulPre e => place (engAt s e).preLast 9 16 + place (engAt s e).preMax 9 0
  | .fulLen e => place (engAt s e).slen 15 0 | .fulBank e => fulBankReg (engAt s e) | .fulXf e => fulXfReg (engAt s e)
  | .dlyLine l => dlyLineReg s l | .dlyTap t => dlyTapReg s t
  | .dlyStat => place s.dly.late 8 24 + place s.dly.eccue 8 16 + place s.dly.wfault 8 8
  | .clkCfg => clkCfgReg s | .clkStat => clkStatReg s | .clkCnt => clkCntReg s | .domStat d => domStatReg s d
  | .sapCfg p => sapCfgReg s p | .sapStat p => sapStatReg (sapAt s p) | .sapSlip p => sapSlipReg (sapAt s p)
  | .audGrp g => audGrpReg s g | .audGstart g => (grpAt s g).gstart % 2 ^ 32
  | .asrcStat => asrcStatReg s | .asrcRatio d => (domAt s d).ratio.toNat
  | .aesRxstat r => aesRxstatReg (rxAt s r) | .aesRxcnt r => aesRxcntReg (rxAt s r)
  | .aesTxctl x => flag (txAt s x).crcgen 31 + flag (txAt s x).pll 0
  | .aesRxcs r w => wordOf (rxAt s r).csL w | .aesRxub r w => wordOf (rxAt s r).ubL w | .aesTxcs x w => wordOf (txAt s x).cs w
  | .pdmCfg k => pdmCfgReg s k | .pdmCtl k => place (pdmAt s k).bankReq 1 30 | .pdmStat k => pdmStatReg (pdmAt s k)
  | .pdmCnt k => pdmCntReg (pdmAt s k) | .pdmDcfrz => s.audio.frz % 2 ^ 32 | .pdmCsel => pdmCselReg s | .pdmCdata => pdmCoef s
  | .twinCtl => twinCtlReg s.twin | .twinStat => twinStatReg s | .twinCnt => twinCntReg s.twin
  | .twinMisf => s.twin.misf % 2 ^ 32 | .twinSeq => s.twin.seq % 2 ^ 32 | .twinTkf => s.twin.tkf % 2 ^ 32
  | .schCtl => schCtlReg s | .schStat => schStatReg s | .schFlt => place s.sched.fltTask 10 16 + place s.sched.fltCore 5 0
  | .schQdepth l => countDescs s fun d => queued d && d.prio == l
  | .schLoad k => place (schCore s k).load 16 16 + place (schCore s k).peak 16 0
  | .schDsel => place s.sched.dsel 10 0 | .schDesc => schDescReg (descAt s s.sched.dsel)
  | .schWait => place (descAt s s.sched.dsel).waitLast 16 16 + place (descAt s s.sched.dsel).waitMax 16 0
  | .tmrCtl n => (timerAt s n).ctl | .tmrPre n => (timerAt s n).div | .tmrCnt n => (timerAt s n).cnt | .tmrBuf n => (timerAt s n).buf
  | .tmrCmp n => (timerAt s n).cmp | .tmrIntv n => (timerAt s n).intv | .tmrPhase n => (timerAt s n).phase
  | .tmrStat n => (timerAt s n).stat | .tmrCap n => place (timerAt s n).capFrame 32 32 + place (timerAt s n).capCount 32 0
  | .tmrGo => 0
  | .uartCfg u => (uartAt s u).cfg | .uartBaud u => (uartAt s u).div
  | .uartDmx u => place (uartAt s u).tbrk 8 16 + place (uartAt s u).tmab 8 8 | .uartStat u => (uartAt s u).stat
  | .uartCnt u => (uartAt s u).cntReg | .uartRxd u => uartRxdReg s u | .uartTxd _ => 0
  | .cvCfg c => if (hcvOf s c).isSome then (cvAt s c).cfg else 0 | .cvCode c => place (cvAt s c).dac 16 0
  | .cvSine c => if (hcvOf s c).isSome then (cvAt s c).sineReg else 0 | .cvMon i => place (s.cv.mon.getD i 0) 12 0
  | .cvFault => place (cvClampBits s) 16 16 + place (cvFaultBits s) 16 0 | .cvCtl => place s.cv.fie 16 0
  | .cvPol => place s.fuses.cvPol 16 0 | .cvTrim c => place (s.cv.trim.getD c 0) 16 0
  | .cvSvc => flag s.cv.svcEn 31 + place s.cv.svcCh 4 16 + place s.cv.svcCode 16 0
  | .modeStat => modeStat s | .modeReq => 0 | .rstCtl => 0 | .rstStat => rstStatReg s | .domRst => domRstReg s
  | .fltCfg => fltCfgReg s | .fltStat => fltStatReg s | .fltLog => fltLogReg s | .eccCnt => eccCntReg s
  | .tempStat => tempStatReg s | .tempCfg => unsigned 16 s.flt.twarn
  | .updStat => updStat s | .updCtl => flag s.fw.ie 0 | .updVer => fwVersion s % 2 ^ 32 | .updFloor => verFloor s % 2 ^ 32
  | .updImg => imgVersion s % 2 ^ 32
  | .ringDesc r => ringDescReg s r | .ringHead r => (ringState s r).head.toNat | .ringTail r => (ringState s r).tail.toNat
  | .ringCtl r => flag (ringState s r).ie 31 + place (ringState s r).level 13 0 | .ringStat r => ringStatReg s r
  | .mbxIn c i => wordOf (mbxAt s c).inw i | .mbxOut c i => wordOf (mbxAt s c).outw i
  | .mbxStat c => mbxStatReg (mbxAt s c) | .mbxCtl c => mbxCtlReg (mbxAt s c)

/-- R5: what a register reads as. -/
def regVal (s : State) (r : Reg) : Nat := if readsZero s r then 0 else liveVal s r

/-! ## What a read of the base word does (R13, R302) -/

/-- R260: the last complete block of a receiver is latched, after a block that is complete has been stored. -/
def latchCs (r : AesRx) : AesRx := { r with csL := bytesWords 6 (r.csA ++ List.replicate 24 0) ++ bytesWords 6 (r.csB ++ List.replicate 24 0) }
def latchUb (r : AesRx) : AesRx := { r with ubL := bytesWords 6 (r.ubA ++ List.replicate 24 0) ++ bytesWords 6 (r.ubB ++ List.replicate 24 0) }

/-- What a read does before its value is taken: R260 latches. -/
def readLatch (r : Reg) (s : State) : State :=
  match r with
  | .aesRxcs r 0 => updRx r (fun x => latchCs (aesBlock x)) s
  | .aesRxub r 0 => updRx r (fun x => latchUb (aesBlock x)) s
  | _ => s

/-- R268: an access of PDM_CDATA advances PDM_CSEL.WORD. -/
def cselNext (s : State) : State := { s with audio := { s.audio with selWord := (s.audio.selWord + 1) % 64 } }

/-- Clear the counters of an interface. -/
def Iface.clearSlip (i : Iface) : Iface := { i with discard := 0, refix := 0 }
def Iface.clearCnt (i : Iface) : Iface := { i with under := 0, ovr := 0 }

/-- What a read of the base word clears or advances. -/
def readClears (r : Reg) (s : State) : State :=
  match r with
  | .hostErr => { s with host := { s.host with errCount := 0, errPort := .host, errCode := 0, errPage := 0, errOff := 0 } }
  | .carderLate => { s with carder := { s.carder with late := 0, defer := 0, loglost := 0 } }
  | .carderDisc => { s with carder := { s.carder with disc := 0 } }
  | .vgCnt g => updGroup g (fun x => { x with steals := 0, novoice := 0, bandwidth := 0, stale := 0 }) s
  | .vcPeak c => updCluster c (fun x => { x with peak := 0 }) s
  | .vcStrm c => updCluster c (fun x => { x with late := 0, eccue := 0 }) s
  | .plcStat c => updCluster c (fun x => { x with cellLate := 0, cellEcc := 0, evict := 0 }) s
  | .strmStat => { s with carder := { s.carder with sbufPeak := 0 } }
  | .busPeak m => { s with bus := { s.bus with meters := updAt s.bus.meters m fun x => { x with peak := 0 } } }
  | .busClip m => { s with bus := { s.bus with meters := updAt s.bus.meters m fun x => { x with clip := 0 } } }
  | .fulSat e => setEng e { engAt s e with tfault := 0, wfault := 0 } s
  | .fulPre e => setEng e { engAt s e with preMax := 0 } s
  | .dlyStat => { s with dly := { s.dly with late := 0, eccue := 0, wfault := 0 } }
  | .clkCnt => { s with clocks := { s.clocks with glitch := 0, held := 0, loss := 0, rateN := 0 } }
  | .sapStat p => updSap p (fun x => { x with iface := x.iface.clearCnt, framerr := 0 }) s
  | .sapSlip p => updSap p (fun x => { x with iface := x.iface.clearSlip }) s
  | .aesRxcnt r => updRx r (fun x => { x with parerr := 0, biphase := 0, unlock := 0 }) s
  | .pdmCnt k => updPdm k (fun g => { g with stops := 0, resets := 0, iface := { g.iface with refix := 0, under := 0 } }) s
  | .pdmCdata => cselNext s
  | .twinCnt => { s with twin := { s.twin with markerr := 0, lateent := 0, discard := 0, mismN := 0 } }
  | .schStat => { s with sched := { s.sched with tfault := 0 } }
  | .schLoad k => updCore k (fun c => { c with peak := 0 }) s
  | .schWait => setDesc s.sched.dsel { descAt s s.sched.dsel with waitMax := 0 } s
  | .tmrStat n => updTimer n (fun m => { m with evlost := 0 }) s
  | .tmrCap n => updTimer n (fun m => { m with capf := false }) s
  | .uartCnt u => updUart u (fun a => { a with ovr := 0, ferr := 0, falseN := 0, dmxerr := 0 }) s
  | .uartRxd u => if (rxRing s u).isSome then s else updUart u (fun a => { a with rxq := a.rxq.drop 1 }) s
  | .rstStat => { s with mode := { s.mode with crst := 0, wdg := 0 } }
  | .fltLog => { s with flt := { s.flt with log := s.flt.log.drop 1 } }
  | .eccCnt => { s with flt := { s.flt with dce := 0, due := 0, sce := 0 } }
  | .tempStat => { s with flt := { s.flt with tmax := 0 } }
  | .ringStat r => updRing r (fun x => { x with lost := 0 }) s
  | _ => s

/-- R302: a read of the base word of a register that is present: the state after it and the value captured. -/
def baseRead (r : Reg) (s : State) : State × Nat :=
  if readsZero s r then (s, 0) else let s := readLatch r s; (readClears r s, regVal s r)

end Sys2Proof.Machine
end

