-- ==== Sys2Proof/Machine/RegWrite.lean ====
section
/-! DEFINITION. What a committed write of every register is refused for, and what it does when it is accepted (R13, R15,
R16, R74, R304 and the register tables). -/

namespace Sys2Proof.Machine

/-! ## What a write names -/

/-- R361: UART u or timer n is claimed by a firmware service. -/
def timerClaimed (s : State) (n : Nat) : Bool := match s.hood with | some h => bitAt h.evmap.timers n | none => false
def uartClaimed (s : State) (u : Nat) : Bool := (claimOf s u).isSome

/-- R361: a port may not write the registers of a claimed unit. -/
def claimBar (who : Agent) (claimed : Bool) : Bool := (match who with | .port _ => true | .firmware => false) && claimed

/-- TMR_CTL.DOM: a domain that the hood uses. Without a hood no domain is refused. -/
def domUsed (s : State) (d : Nat) : Bool :=
  match s.hood with
  | none => true
  | some h =>
    let p := h.ports
    d == h.clocks.master || h.clocks.backup == some d || h.clocks.sync.getD d false ||
    ((List.range 8).any fun i => match hportOf s i with | some x => x.domain == d | none => false) ||
    (p.rx.any fun kx => match kx.2 with | some x => x.domain == d | none => false) ||
    (p.tx.any fun kx => match kx.2 with | some x => x.domain == d | none => false) ||
    (p.pdm.any fun kx => match kx.2 with | some x => x.domain == d | none => false)

/-- R6: a CV channel that the part lacks, or that the loaded hood does not name. -/
def cvUnknown (s : State) (c : Nat) : Bool := decide (s.part.cvs ≤ c) || (s.hood.isSome && (hcvOf s c).isNone)

/-- R6: a mask of CV channels names one of those. -/
def cvMaskBad (s : State) (m : Nat) : Bool := (List.range 16).any fun c => bitAt m c && cvUnknown s c

/-- R264, R269: microphone m is carried by a line of a group of the hood. -/
def micOn (s : State) (m : Nat) : Bool :=
  (List.range 4).any fun k => match hpdmOf s k with | some h => micOnLine h.lines m | none => false

/-- A running mode, HANDOVER included, or READY. -/
def readyOrRun (s : State) : Bool := effMode s == .ready || framesRun s
/-- And HOLD. -/
def readyRunHold (s : State) : Bool := readyOrRun s || effMode s == .hold

/-! ## Refusals -/

/-- HOST_CFG. -/
def hostCfgConds (p : Port) (v : Nat) : List (Bool × Err) := [((bitAt v 31 && p == .host) || (bitAt v 30 && p == .spi), .security)]

/-- R268: PDM_CDATA. -/
def cdataConds (s : State) : List (Bool × Err) :=
  let k := s.audio.selGroup
  let g := pdmAt s k
  [((hpdmOf s k).isNone, .absent), (!readyRunHold s, .mode),
   ((match hpdmOf s k with | some h => decide (presetTaps h.preset / 2 ≤ s.audio.selWord) | none => false), .range),
   (g.swPend || s.audio.selBank == g.actBank, .busy)]

/-- R275, R291: TWIN_CTL. -/
def twinConds (s : State) (v : Nat) : List (Bool × Err) :=
  let w := s.twin
  let ready := s.mode.mode == .ready
  [(bitAt v 31 != w.pair && !ready, .mode), ((bitAt v 29 != w.roleOvr || bitAt v 28 != w.role) && (!ready || w.pair), .mode),
   (bitAt v 30 && !(effMode s == .runLead && w.instep && w.partner), .mode), (bitAt v 30 && w.swapAt.isSome, .busy)]

/-- R362 to R369: TMR_CTL. -/
def tmrConds (s : State) (n v : Nat) : List (Bool × Err) :=
  let m := timerAt s n
  let src := bits v 29 28
  let out := bits v 21 20
  [(bits v 25 24 == 3 || out == 3, .rsvd),
   ((out != 0 && (src == 3 || bits v 23 22 != 0)) || !domUsed s (bits v 27 26) || (bitAt v 18 && (timerTemplate s n).isNone), .range),
   (m.run && (src != m.src || bits v 27 26 != m.dom || bits v 25 24 != m.edge || bits v 23 22 != m.cape || out != m.out), .busy)]

/-- R375 to R378: UART_CFG. -/
def uartConds (s : State) (u v : Nat) : List (Bool × Err) :=
  let a := uartAt s u
  let size := 16 * 2 ^ bits v 21 20
  let frame := bitAt v 30
  [(bits v 25 24 == 3, .rsvd),
   (decide (size < trigOf (bits v 19 13)) || decide (size < trigOf (bits v 12 6)) ||
     (frame && (bits v 27 26 != 3 || bits v 25 24 != 0 || !bitAt v 23)) ||
     (frame && bitAt v 31 && !((rxRing s u).isSome && (txRing s u).isSome)), .range),
   (a.en && bits v 30 6 != bits a.cfg 30 6, .busy)]

/-- R376: UART_TXD. -/
def txdConds (s : State) (u : Nat) : List (Bool × Err) :=
  let a := uartAt s u
  [(!a.en || (txRing s u).isSome, .mode), (decide (a.size ≤ a.txq.length), .full)]

/-- MODE_REQ (R405). -/
def modeReqConds (s : State) (v : Nat) : List (Bool × Err) :=
  let req := bits v 3 0
  if requestsBusy s && decide (1 ≤ req) && decide (req ≤ 5) then [(true, .busy)] else requestConds s req

/-- RST_CTL (R401, R413). -/
def rstConds (v : Nat) : List (Bool × Err) := [((bitAt v 1 || bitAt v 0) && bits v 31 24 != 0x5A, .range)]

/-- DOM_RST (R416). With GO = 0 only the unit that INDEX names is checked (R6). -/
def domRstConds (s : State) (v : Nat) : List (Bool × Err) :=
  (restartConds s (bitAt v 29) (bits v 3 0) false).filter fun x => bitAt v 31 || x.2 == .absent || x.2 == .range

/-- WIN_CMD (R307). With GO = 0 only the engine that ENG names for a TGT of an engine is checked (R6). -/
def winCmdConds (s : State) (w v : Nat) : List (Bool × Err) :=
  if bitAt v 31 then winConds s (winAt s w).busy v (winAt s w).addr else [(engTgt (cmdTgt v) && !engineOn s (cmdEng v), .absent)]

/-- What a write of value v to a writable register is refused for, beside absence, reserved bits and LOAD. -/
def regConds (s : State) (who : Agent) (r : Reg) (v : Nat) : List (Bool × Err) :=
  let port : Port := match who with | .port p => p | .firmware => .host
  match r with
  | .hostCfg => hostCfgConds port v
  | .frameStart => [(s.mode.mode != .ready, .mode), (bitAt v 63, .range)]
  | .blockCtl => (startConds s port v).filter fun x => bitAt v 31 || !(x.2 == .mode || x.2 == .security)
  | .hoodFifo => fifoConds s
  | .winCmd w => winCmdConds s w v
  | .winAddr w => [((winAt s w).busy, .busy)]
  | .winBuf w _ => [((winAt s w).busy, .busy)]
  | .busMsel _ => [(bitAt v 31 && (decide (bits v 20 16 < 4) || decide (16 < bits v 20 16)), .range)]
  | .audGrp g =>
    [(!readyOrRun s || (bitAt v 29 && (grpModeOf s g != 2 || !(grpAt s g).arm || (grpAt s g).started)), .mode)]
  | .pdmCtl _ => [(!readyRunHold s, .mode)]
  | .pdmDcfrz => [((List.range 32).any fun m => bitAt v m && !micOn s m, .absent)]
  | .pdmCsel => [(s.hood.isSome && (hpdmOf s (bits v 8 7)).isNone, .absent)]
  | .pdmCdata => cdataConds s
  | .twinCtl => twinConds s v
  | .schCtl => [(bits v 9 0 == 0, .range)]
  | .tmrCtl n => (claimBar who (timerClaimed s n), .mode) :: tmrConds s n v
  | .tmrPre n => [(claimBar who (timerClaimed s n), .mode), (bits v 31 16 == 0, .range)]
  | .tmrIntv n => [(claimBar who (timerClaimed s n), .mode), (v == 0, .range)]
  | .tmrBuf n => [(claimBar who (timerClaimed s n), .mode)]
  | .tmrCmp n => [(claimBar who (timerClaimed s n), .mode)]
  | .tmrPhase n => [(claimBar who (timerClaimed s n), .mode)]
  | .tmrStat n => [(claimBar who (timerClaimed s n), .mode)]
  | .tmrGo => [((List.range 8).any fun n => bitAt v n && claimBar who (timerClaimed s n), .mode)]
  | .uartCfg u => (claimBar who (uartClaimed s u), .mode) :: uartConds s u v
  | .uartBaud u =>
    [(claimBar who (uartClaimed s u), .mode), (decide (bits v 31 16 < 8), .range), ((uartAt s u).en && v != (uartAt s u).div, .busy)]
  | .uartDmx u =>
    [(claimBar who (uartClaimed s u), .mode), (decide (bits v 23 16 < 22) || decide (bits v 15 8 < 8), .range),
     ((uartAt s u).en && (bits v 23 16 != (uartAt s u).tbrk || bits v 15 8 != (uartAt s u).tmab), .busy)]
  | .uartStat u => [(claimBar who (uartClaimed s u), .mode)]
  | .uartTxd u => (claimBar who (uartClaimed s u), .mode) :: txdConds s u
  | .cvFault => [(cvMaskBad s (bits v 15 0), .absent)]
  | .cvCtl => [(cvMaskBad s (bits v 15 0), .absent)]
  | .cvPol => [(port == .host, .security), (cvMaskBad s (bits v 15 0), .absent), (!(s.mode.mode == .loader || s.mode.mode == .ready), .mode)]
  | .cvTrim _ => [(s.mode.mode != .service, .mode)]
  | .cvSvc => [(cvUnknown s (bits v 19 16), .absent), (s.mode.mode != .service, .mode)]
  | .modeReq => modeReqConds s v
  | .rstCtl => rstConds v
  | .domRst => domRstConds s v
  | .tempCfg => [(decide (signed 16 v < -640) || decide (2480 < signed 16 v), .range)]
  | .ringHead r => let e := headErr s (agentEnd who) r (BitVec.ofNat 16 v); [(e != .ok, e)]
  | .ringTail r => let e := tailErr s (agentEnd who) r (BitVec.ofNat 16 v); [(e != .ok, e)]
  | .ringCtl r =>
    match hringOf s r with
    | some h =>
      [(h.prod != agentEnd who && h.cons != agentEnd who, .mode), (bits v 12 0 == 0 || decide (2 ^ h.size < bits v 12 0), .range)]
    | none => []
  | .mbxIn c _ => [((mbxAt s c).infull, .full)]
  | _ => []

/-- R314: the port that writes does not reach the register. -/
def unreached (who : Agent) (x : RegAt) : Bool := match who with | .port p => !reaches p x.page x.base | .firmware => false

/-- R13, R74, R314: what a write of value v to a register is refused for. -/
def writeConds (s : State) (who : Agent) (x : RegAt) (v : Nat) : List (Bool × Err) :=
  (unreached who x, .security) :: (regAbsent s x.reg, .absent) ::
    (if x.writable then
      (Nat.land v x.rsvd != 0, .rsvd) :: (s.mode.mode == .load && blockedRange x.page x.base, .busy) :: regConds s who x.reg v
    else [(true, .mode)])

/-- R15: the code with which a write of value v to a register is answered. -/
def writeErr (s : State) (who : Agent) (x : RegAt) (v : Nat) : Err := Err.first (writeConds s who x v)

/-- R15: the code of a write that cannot form a value, for a reason of code e: what precedes reserved bits in the order
is reported first; v is what the words at hand say. That R15 then ranks no condition on the value itself is a DESIGN
CHOICE (log entry 47). -/
def noValueErr (s : State) (who : Agent) (x : RegAt) (v : Nat) (e : Err) : Err :=
  Err.first (((writeConds s who x v).filter fun c => decide (c.2.rank ≤ 3)) ++ [(true, e)])

/-! ## Effects -/

/-- Change the host side. -/
def updHost (f : HostSt → HostSt) (s : State) : State := { s with host := f s.host }

/-- R297: an interface reset of a port. -/
def hostPortReset (s : State) : State := updHost (fun h => { h with sync := false, hpage := 0, hostPort := ⟨none, none⟩ }) s
def spiPortReset (s : State) : State := updHost (fun h => { h with spiPort := ⟨none, none⟩ }) s

/-- HOST_CFG (R293, R297, R310). -/
def hostCfgDo (v : Nat) (s : State) : State :=
  let s := updHost (fun h => { h with sintod := bitAt v 2, intod := bitAt v 1, sync := bitAt v 0 }) s
  let s := if bitAt v 31 then hostPortReset s else s
  if bitAt v 30 then spiPortReset s else s

/-- BLOCK_CTL (R74). -/
def blockCtlDo (v : Nat) (s : State) : State :=
  if bitAt v 31 then startBlocking v s else { s with block := { s.block with src := bits v 25 24, qaddr := bits v 15 0 } }

/-- WIN_CMD (R307). -/
def winCmdDo (w v : Nat) (s : State) : State :=
  let s := updWin w (fun x => { x with
    dir := cmdDir v, tgt := cmdTgt v, eng := cmdEng v, doneie := bitAt v 7, len := cmdLen v }) s
  if bitAt v 31 then winStart w v s else s

/-- AUD_GRP (R248): ARM, and a trigger of GO. -/
def audGrpDo (g v : Nat) (s : State) : State :=
  { s with audio := { s.audio with
      grps := updAt s.audio.grps g fun x =>
        { x with arm := bitAt v 30, trig := if bitAt v 29 && x.trig.isNone then some s.now else x.trig } } }

/-- PDM_CTL (R268, R270). -/
def pdmCtlDo (k v : Nat) (s : State) : State :=
  updPdm k (fun g => { g with bankReq := bits v 30 30, swPend := bits v 30 30 != g.actBank, srst := g.srst || bitAt v 31 }) s

/-- PDM_CDATA (R268). -/
def cdataDo (v : Nat) (s : State) : State :=
  let w := BitVec.ofNat 32 v
  cselNext (updPdm s.audio.selGroup (fun g =>
    if s.audio.selBank = 0 then { g with bank0 := Store.set 0 g.bank0 s.audio.selWord w }
    else { g with bank1 := Store.set 0 g.bank1 s.audio.selWord w }) s)

/-- TWIN_CTL.PAIR (R275): a pairing begins, or a pair is parted: each chip then drives its own outputs unless retired. -/
def pairDo (on : Bool) (s : State) : State :=
  if on then
    updTwin (fun w => { w with pair := true, pairAt := if !w.paired && w.pairAt.isNone && s.mode.mode == .ready then some s.now else w.pairAt }) s
  else if s.twin.pair then
    updTwin (fun w => { w with
      pair := false, pairAt := none, paired := false, instep := false
      cvHolder := w.cvHolder || !w.retired }) s
  else s

/-- TWIN_CTL (R275, R291); the lanes leave electrical idle (R430). -/
def twinCtlDo (v : Nat) (s : State) : State :=
  let s := updTwin (fun w => { w with
    roleOvr := bitAt v 29, role := bitAt v 28, misie := bitAt v 2, tkie := bitAt v 1, linkie := bitAt v 0, written := true }) s
  let s := pairDo (bitAt v 31) s
  if bitAt v 30 then updTwin (fun w => { w with swapAt := some s.frame.cnt }) s else s

/-- TMR_GO (R365): every timer named starts. -/
def tmrGoDo (v : Nat) (s : State) : State := { s with timers := s.timers.mapIdx fun n m => if bitAt v n then timerStart m else m }

/-- CV_FAULT (R395): a fault that is cleared leaves its clamp closed until the next load. -/
def cvFaultDo (v : Nat) (s : State) : State :=
  { s with cv := { s.cv with chans := s.cv.chans.mapIdx fun c x => if bitAt v c then { x with fault := false } else x } }

/-- CV_POL (R386): fuses are blown. -/
def cvPolDo (v : Nat) (s : State) : State := { s with fuses := { s.fuses with cvPol := Nat.lor s.fuses.cvPol (bits v 15 0) } }

/-- RST_CTL (R401, R413); `strap`: what TWIN_ROLE is sampled as. -/
def rstCtlDo (p : Port) (strap : Bool) (v : Nat) (s : State) : State :=
  if bitAt v 1 then warmReset (if p = .host then 2 else 3) strap s else if bitAt v 0 then coreRestart s else s

/-- DOM_RST (R416). -/
def domRstDo (v : Nat) (s : State) : State :=
  let s := { s with flt := { s.flt with selKind := bitAt v 29, selIndex := bits v 3 0 } }
  if bitAt v 31 then restartBegin (bitAt v 29) (bits v 3 0) s else s

/-- A TAIL that firmware moves: entries of a claimed UART's ring are worked through. -/
def tailDo (who : Agent) (r v : Nat) (s : State) : State :=
  match who with | .firmware => fwTail r (BitVec.ofNat 16 v) s | .port _ => portTail r (BitVec.ofNat 16 v) s

/-- MBX_CTL (R333). -/
def mbxCtlDo (c v : Nat) (s : State) : State :=
  updMbx c (fun m =>
    let m := { m with errie := bitAt v 2, ineie := bitAt v 1, outie := bitAt v 0 }
    if bitAt v 31 then mbxFlush m else m) s

/-- MBX_IN (R332). -/
def mbxInDo (c i v : Nat) (s : State) : State :=
  updMbx c (fun m => if i = 7 then mbxSend (BitVec.ofNat 32 v) m else mbxWord i (BitVec.ofNat 32 v) m) s

/-- Write-one-to-clear registers. -/
def w1cDo (r : Reg) (v : Nat) (s : State) : State :=
  let keep := fun (b : Bool) (i : Nat) => b && !bitAt v i
  match r with
  | .intStat => updHost (fun h => { h with intLatched := h.intLatched - Nat.land (Nat.land h.intLatched latchedMask) v }) s
  | .detStat => { s with det := { s.det with
      moved := keep s.det.moved 5, hold := keep s.det.hold 4, fault := keep s.det.fault 3, winwrite := keep s.det.winwrite 2
      bgwrite := keep s.det.bgwrite 1 } }
  | .winStat w => updWin w (fun x => { x with done := keep x.done 30 }) s
  | .vcStrm c => updCluster c (fun x => { x with osat := keep x.osat 0 }) s
  | .vcShsat c => updCluster c (fun x => { x with msat := keep x.msat 2, wsat := keep x.wsat 1, fsat := keep x.fsat 0 }) s
  | .busSat => { s with bus := { s.bus with sat := keep s.bus.sat 31 } }
  | .fulSat e => let g := engAt s e; setEng e { g with bsv := keep g.bsv 3, bav := keep g.bav 2, ssv := keep g.ssv 1, sav := keep g.sav 0 } s
  | .clkStat => { s with clocks := { s.clocks with rateF := keep s.clocks.rateF 27, lossF := keep s.clocks.lossF 26 } }
  | .sapStat p => updSap p (fun x => { x with osat := keep x.osat 30 }) s
  | .aesRxstat r => updRx r (fun x => { x with va := keep x.va 28, vb := keep x.vb 27, crcerr := keep x.crcerr 26 }) s
  | .pdmStat k => updPdm k (fun g => { g with osat := keep g.osat 27 }) s
  | .twinStat => updTwin (fun w => { w with
      mismatch := keep w.mismatch 23, took := keep w.took 22, yielded := keep w.yielded 21, outstep := keep w.outstep 20 }) s
  | .tmrStat n => updTimer n (fun m => { m with ovr := keep m.ovr 30, cmpf := keep m.cmpf 29, wrapf := keep m.wrapf 28 }) s
  | .uartStat u => updUart u (fun a => { a with dead := keep a.dead 31, txbad := keep a.txbad 27 }) s
  | .cvFault => cvFaultDo v s
  | .fltStat => { s with flt := { s.flt with ovf := keep s.flt.ovf 31 } }
  | .updStat => updFw (fun w => { w with resumed := keep w.resumed 25, done := keep w.done 24 }) s
  | .mbxStat c => updMbx c (fun m => { m with cross := keep m.cross 29, lost := keep m.lost 28, flshd := keep m.flshd 27 }) s
  | _ => s

/-- A write of value v that is accepted. -/
def writeDo (who : Agent) (strap : Bool) (r : Reg) (v : Nat) (s : State) : State :=
  let port : Port := match who with | .port p => p | .firmware => .host
  match r with
  | .hostCfg => hostCfgDo v s
  | .intEn n => updHost (fun h => if n = 0 then { h with intEn0 := v } else { h with intEn1 := v }) s
  | .intSen => updHost (fun h => { h with intSen := v }) s
  | .hpage => updHost (fun h => { h with hpage := v }) s
  | .frameStart => { s with frame := { s.frame with start := v } }
  | .blockCtl => blockCtlDo v s
  | .hoodFifo => fifoPut (BitVec.ofNat 32 v) s
  | .winCmd w => winCmdDo w v s
  | .winAddr w => updWin w (fun x => { x with addr := v }) s
  | .winBuf w i => updWin w (fun x => { x with buf := setAt x.buf i (BitVec.ofNat 32 v) }) s
  | .busMsel m => { s with bus := { s.bus with meters := updAt s.bus.meters m fun x => { x with next := some (bitAt v 31, bits v 20 16, bits v 8 0) } } }
  | .fulCtl e => setEng e { engAt s e with satie := bitAt v 2, fltie := bitAt v 1, bgen := bitAt v 0 } s
  | .audGrp g => audGrpDo g v s
  | .aesTxctl x => updTx x (fun a => { a with crcgen := bitAt v 31 }) (txBlockDue x s)
  | .aesTxcs x w => updTx x (fun a => { a with cs := setAt a.cs w (BitVec.ofNat 32 v) }) (txBlockDue x s)
  | .pdmCtl k => pdmCtlDo k v s
  | .pdmDcfrz => { s with audio := { s.audio with frz := v } }
  | .pdmCsel => { s with audio := { s.audio with selGroup := bits v 8 7, selBank := bits v 6 6, selWord := bits v 5 0 } }
  | .pdmCdata => cdataDo v s
  | .twinCtl => twinCtlDo v s
  | .schCtl => { s with sched := { s.sched with tfie := bitAt v 31, lwin := bits v 9 0 } }
  | .schDsel => { s with sched := { s.sched with dsel := bits v 9 0 } }
  | .tmrCtl n => updTimer n (Timer.setCtl v) s
  | .tmrPre n => updTimer n (fun m => { m with div := v }) s
  | .tmrBuf n => updTimer n (fun m => { m with buf := v }) s
  | .tmrCmp n => updTimer n (fun m => { m with cmp := v }) s
  | .tmrIntv n => updTimer n (fun m => { m with intv := v }) s
  | .tmrPhase n => updTimer n (fun m => { m with phase := v }) s
  | .tmrGo => tmrGoDo v s
  | .uartCfg u => updUart u (Uart.setCfg v) s
  | .uartBaud u => updUart u (fun a => { a with div := v }) s
  | .uartDmx u => updUart u (fun a => { a with tbrk := bits v 23 16, tmab := bits v 15 8 }) s
  | .uartTxd u => updUart u (fun a => { a with txq := a.txq ++ [BitVec.ofNat 8 v] }) s
  | .cvCtl => { s with cv := { s.cv with fie := bits v 15 0 } }
  | .cvPol => cvPolDo v s
  | .cvTrim c => { s with cv := { s.cv with trim := setAt s.cv.trim c (bits v 15 0) } }
  | .cvSvc => { s with cv := { s.cv with svcEn := bitAt v 31, svcCh := bits v 19 16, svcCode := bits v 15 0 } }
  | .modeReq => requestDo (bits v 3 0) s
  | .rstCtl => rstCtlDo port strap v s
  | .domRst => domRstDo v s
  | .fltCfg => { s with flt := { s.flt with eccsafe := bitAt v 2, vcsafe := bitAt v 1, engsafe := bitAt v 0 } }
  | .tempCfg => { s with flt := { s.flt with twarn := signed 16 v } }
  | .updCtl => updFw (fun w => { w with ie := bitAt v 0 }) s
  | .ringHead r => setHead r (BitVec.ofNat 16 v) s
  | .ringTail r => tailDo who r v s
  | .ringCtl r => updRing r (fun x => { x with ie := bitAt v 31, level := bits v 12 0 }) s
  | .mbxIn c i => mbxInDo c i v s
  | .mbxCtl c => mbxCtlDo c v s
  | r => w1cDo r v s

end Sys2Proof.Machine
end

