-- ==== Sys2Proof/Machine/RegPort.lean ====
section
/-! DEFINITION. How the two ports reach registers and ring memory: commits and HOST_ERR, whole-register accesses, single
words with their latches, and bursts (R296 to R305, R313, R319). -/

namespace Sys2Proof.Machine

/-! ## Ports and latches -/

/-- The latches of a port. -/
def portSt (s : State) (p : Port) : PortSt := match p with | .host => s.host.hostPort | .spi => s.host.spiPort
def setPort (p : Port) (x : PortSt) (s : State) : State :=
  updHost (fun h => match p with | .host => { h with hostPort := x } | .spi => { h with spiPort := x }) s

/-- R303: the write latch of a port is emptied. -/
def emptyWrite (p : Port) (s : State) : State := setPort p { portSt s p with wr := none } s

/-- R407: in RESET and SLEEP no access is performed. -/
def portsOn (s : State) : Bool := s.mode.mode != .reset && s.mode.mode != .sleep

/-- R304: a refusal is recorded in HOST_ERR; R16: the port's write latch is emptied. -/
def recordErr (p : Port) (page base : Nat) (e : Err) (s : State) : State :=
  emptyWrite p (updHost (fun h => { h with
    errCount := satInc 255 h.errCount, errPort := p, errCode := e.code, errPage := page, errOff := base
    spiRefused := h.spiRefused || p == .spi }) s)

/-! ## Commits (R304) -/

/-- What has happened by the time of a write: the loader has taken some words of HOOD_FIFO (R75), and the carder the ring
entries that it can see (R325). -/
def beforeWrite (r : Reg) (s : State) : State :=
  match r with
  | .hoodFifo => if s.mode.mode == .load && s.block.need then fifoDrain s else s
  | .ringHead _ => pump s
  | .modeReq => pump s
  | .blockCtl => pump s
  | _ => s

/-- R361, R322: the registers that firmware writes: those of the units that it has claimed, and ring indices. -/
def fwMay (s : State) (r : Reg) (v : Nat) : Bool :=
  match r with
  | .tmrCtl n | .tmrPre n | .tmrBuf n | .tmrCmp n | .tmrIntv n | .tmrPhase n | .tmrStat n => timerClaimed s n
  | .tmrGo => (List.range 8).all fun n => !bitAt v n || timerClaimed s n
  | .uartCfg u | .uartBaud u | .uartDmx u | .uartStat u | .uartTxd u => uartClaimed s u
  | .ringHead _ | .ringTail _ => true
  | _ => false

/-- Firmware runs and is not in a handover. -/
def fwActs (s : State) : Bool := ctrlOn s && s.fw.handover.isNone

/-- R303, R304: a commit of a register with value v, in the state in which the write finds the block; a refused one leaves what
has happened by then to the commands that follow. -/
def commitReg (who : Agent) (strap : Bool) (x : RegAt) (v : Nat) (s : State) : State :=
  match who with
  | .port p =>
    let m := beforeWrite x.reg s
    let e := writeErr m who x v
    if e = .ok then writeDo who strap x.reg v (if x.width = 1 then m else emptyWrite p m) else recordErr p x.page x.base e s
  | .firmware => if fwActs s && fwMay s x.reg v && writeErr s who x v == .ok then writeDo who strap x.reg v s else s

/-- R319: a 16-bit write of ring memory; `be`: the bytes that are enabled. -/
def ringWrite (a : Nat) (w : HWord) (be : BitVec 2) (s : State) : State :=
  let m := if be.getLsbD 0 then Memory.write 0 s.ringMem a (w.setWidth 8) else s.ringMem
  let m := if be.getLsbD 1 then Memory.write 0 m (a + 1) ((w >>> 8).setWidth 8) else m
  { s with ringMem := m }

/-- R298, R300, R314: what stands at an address that a port writes: a refusal, ring memory, or a register. -/
inductive Target where
  | refused (e : Err)
  | ring (a : Nat)
  | reg (x : RegAt)

/-- R298, R300, R314: where a write of a port goes. -/
def target (p : Port) (page off : Nat) : Target :=
  if off = 0xFFFF then (if p = .spi then .refused .rsvd else .reg (hpageAt page))
  else if inRingMem page off then .ring (ringByte page off)
  else match regFind page off with
    | some x => .reg x
    | none => .refused (if reaches p page off then .rsvd else .security)

/-- R298: a command that reaches a register whole stands for all the accesses that this takes: on the host port they begin
with a write of HPAGE, which holds the register's page from then on (DESIGN CHOICE, log entry 45). -/
def turnTo (p : Port) (page : Nat) (s : State) : State :=
  match p with | .host => updHost (fun h => { h with hpage := page % 256 }) s | .spi => s

/-- R303, R304: a port writes a whole register, or one word of ring memory. -/
def portWrite (p : Port) (strap : Bool) (page off v : Nat) (s : State) : State :=
  if portsOn s then
    let s := turnTo p page s
    match target p page off with
    | .refused e => recordErr p page off e s
    | .ring a => ringWrite a (BitVec.ofNat 16 v) 3 s
    | .reg x => commitReg (.port p) strap x (v % 2 ^ (16 * x.width)) s
  else s

/-- A write of a whole register by either side. -/
def agentWrite (who : Agent) (page off v : Nat) (s : State) : State :=
  match who with
  | .port p => portWrite p s.twin.strap page off v s
  | .firmware => match regFind page off with | some x => commitReg .firmware s.twin.strap x (v % 2 ^ (16 * x.width)) s | none => s

/-! ## Single words (R300, R302, R303) -/

/-- Bits of word k of a value. -/
def wordK (v k : Nat) : HWord := BitVec.ofNat 16 (v / 2 ^ (16 * k))

/-- R303: the lower words of a register that a port's latch holds. -/
def latchWords (s : State) (p : Port) (x : RegAt) : Store (Option HWord) :=
  match (portSt s p).wr with
  | some l => if l.page = x.page ∧ l.base = x.base then l.words else []
  | none => []

/-- R300: the bytes of a word that are enabled, and another word's in place of the rest. -/
def mergeBytes (w : HWord) (rest : HWord) (be : BitVec 2) : HWord :=
  (if be.getLsbD 0 then w &&& 0x00FF#16 else rest &&& 0x00FF#16) ||| (if be.getLsbD 1 then w &&& 0xFF00#16 else rest &&& 0xFF00#16)

/-- R13: a register whose flags a written one clears; writing its bytes as zero leaves them unwritten. -/
def clearsOnOne : Reg → Bool
  | .mbxStat _ => true
  | _ => false

/-- R300: what stands in for a byte of word k on pages 1 to 3 that is left unwritten: what the latch already holds, else
what the register holds (log entry 45). -/
def unwritten (s : State) (p : Port) (x : RegAt) (k : Nat) : HWord :=
  match Store.get none (latchWords s p x) k with
  | some w => w
  | none => if clearsOnOne x.reg then 0 else wordK (regVal s x.reg) k

/-- R303: a lower word is held in the latch. -/
def holdWord (p : Port) (x : RegAt) (k : Nat) (w : HWord) (s : State) : State :=
  setPort p { portSt s p with wr := some ⟨x.page, x.base, Store.set none (latchWords s p x) k (some w)⟩ } s

/-- R303: the lower words held for a register, when none is missing. -/
def heldWords (s : State) (p : Port) (x : RegAt) : Option Nat :=
  (List.range (x.width - 1)).foldl (fun a k => match a, Store.get none (latchWords s p x) k with
    | some v, some w => some (v + w.toNat * 2 ^ (16 * k))
    | _, _ => none) (some 0)

/-- What the words at hand say of a register's value: those that its latch holds, and word k (R15). -/
def partValue (s : State) (p : Port) (x : RegAt) (k : Nat) (w : HWord) : Nat :=
  (List.range x.width).foldl (fun a i =>
    let u := if i = k then w else (Store.get none (latchWords s p x) i).getD 0
    a + u.toNat * 2 ^ (16 * i)) 0

/-- R303: word k of a register is written. -/
def regWord (p : Port) (strap : Bool) (x : RegAt) (k : Nat) (w : HWord) (s : State) : State :=
  if x.width = 1 then commitReg (.port p) strap x w.toNat s
  else if k + 1 < x.width then holdWord p x k w s
  else
    match heldWords s p x with
    | some v => commitReg (.port p) strap x (v + w.toNat * 2 ^ (16 * k)) (emptyWrite p s)
    | none => recordErr p x.page x.base (noValueErr s (.port p) x (partValue s p x k w) .format) s

/-- R300, R303, R313: a port writes one word. -/
def wordWrite (p : Port) (strap : Bool) (page off : Nat) (w : HWord) (be : BitVec 2) (s : State) : State :=
  if portsOn s then
    match target p page off with
    | .refused e => recordErr p page off e s
    | .ring a => ringWrite a w be s
    | .reg x =>
      let k := off - x.base
      if page = 0 ∧ be ≠ 3 then
        recordErr p page x.base (noValueErr s (.port p) x (partValue s p x k (mergeBytes w 0 be)) .rsvd) s
      else regWord p strap x k (if be = 3 then w else mergeBytes w (unwritten s p x k) be) s
  else s

/-- R302, R332: a read of word k of a register: the state after it and the word. -/
def regRead (p : Port) (x : RegAt) (k : Nat) (s : State) : State × HWord :=
  let r :=
    if k = 0 then
      let q := baseRead x.reg s
      (if x.width = 1 then q.1 else setPort p { portSt q.1 p with rd := some ⟨x.page, x.base, q.2⟩ } q.1, wordK q.2 0)
    else
      match (portSt s p).rd with
      | some l => if l.page = x.page ∧ l.base = x.base then (s, wordK l.value k) else (s, wordK (regVal s x.reg) k)
      | none => (s, wordK (regVal s x.reg) k)
  match x.reg with
  | .mbxOut c 7 => if k = 1 then (updMbx c mbxRead r.1, r.2) else r
  | _ => r

/-- R300, R302, R319: a port reads one word; what it cannot reach, and what nothing occupies, reads zero. -/
def wordRead (p : Port) (page off : Nat) (s : State) : State × HWord :=
  if off = 0xFFFF then (s, if p = .spi then 0 else BitVec.ofNat 16 s.host.hpage)
  else if 3 < page ∨ !reaches p page off then (s, 0)
  else if inRingMem page off then
    let a := ringByte page off
    (s, BitVec.ofNat 16 ((Memory.read 0 s.ringMem a).toNat + 256 * (Memory.read 0 s.ringMem (a + 1)).toNat))
  else match regFind page off with | some x => regRead p x (off - x.base) s | none => (s, 0)

/-- R296: the offset of transfer k of a burst that begins at A. -/
def burstOff (page a k : Nat) : Nat :=
  if page = 0 then (match regFind page a with | some x => x.base + (a - x.base + k) % x.width | none => a) else (a + k) % 2 ^ 16

/-- Words read in order, with the state after them. -/
def wordReads (p : Port) (page : Nat) : List Nat → State → State × List HWord
  | [], s => (s, [])
  | o :: t, s =>
    let r := wordRead p page o s
    let q := wordReads p page t r.1
    (q.1, r.2 :: q.2)

/-- Offsets of a burst of n transfers. -/
def burst (page a n : Nat) : List Nat := (List.range n).map fun k => burstOff page a k

/-- A port reads words; they are what its bus returns. -/
def portRead (p : Port) (page : Nat) (offs : List Nat) (s : State) : State :=
  if portsOn s then
    let r := wordReads p page offs s
    updHost (fun h => { h with readOut := r.2 }) r.1
  else s

/-- A port turns to a page and reads words there. -/
def portReadAt (p : Port) (page : Nat) (offs : List Nat) (s : State) : State :=
  portRead p page offs (if portsOn s then turnTo p page s else s)

/-- A port reads the whole register that holds an address, base word first. -/
def portReadReg (p : Port) (page off : Nat) (s : State) : State :=
  match regFind page off with
  | some x => portReadAt p page (burst page x.base x.width) s
  | none => portReadAt p page [off] s

/-- R298: the page of a word access: HPAGE for the host port, the address's own for the SPI port. -/
def pageOf (s : State) (p : Port) (a : RegAddr) : Nat := match p with | .host => s.host.hpage | .spi => a.page.toNat

end Sys2Proof.Machine
end

