-- ==== Sys2Proof/Machine/PortCmds.lean ====
section
/-! DEFINITION. The commands that are accesses of the two ports: writes and reads of registers, SPI transactions, mode
requests; and the test access port (chapters 11 to 20). -/

namespace Sys2Proof.Machine

/-- A port writes a whole register of page 0. -/
def write0 (p : Port) (off v : Nat) (s : State) : State := portWrite p s.twin.strap 0 off v s

/-! ## Audio, PDM and twin registers -/

/-- GROUP_GO (R248): a write of AUD_GRP[g]. -/
def execGroupGo (port : Port) (g : BitVec 2) (v : Word) (s : State) : Host.Outcome State Fault Refusal :=
  .next (write0 port (0xE50 + 2 * g.toNat) v.toNat s)

/-- SRST (R270): a write of PDM_CTL[k]. -/
def execSrst (port : Port) (k : BitVec 2) (v : Word) (s : State) : Host.Outcome State Fault Refusal :=
  .next (write0 port (0x1088 + 2 * k.toNat) v.toNat s)

/-- PDM_BANK_REQUEST (R268): a write of PDM_CTL[k]. -/
def execPdmBankRequest (port : Port) (k : BitVec 2) (v : Word) (s : State) : Host.Outcome State Fault Refusal :=
  .next (write0 port (0x1088 + 2 * k.toNat) v.toNat s)

/-- PDM_CDATA_ACCESS (R268): a write, or a read, of PDM_CDATA. -/
def execPdmCdataAccess (port : Port) (write : Bool) (v : Word) (s : State) : Host.Outcome State Fault Refusal :=
  .next (if write then write0 port 0x10A4 v.toNat s else portReadReg port 0 0x10A4 s)

/-- PAIR (R275): a write of TWIN_CTL. -/
def execPair (port : Port) (v : Word) (s : State) : Host.Outcome State Fault Refusal := .next (write0 port 0x1100 v.toNat s)

/-- SWAP (R291): a write of TWIN_CTL. -/
def execSwap (port : Port) (v : Word) (s : State) : Host.Outcome State Fault Refusal := .next (write0 port 0x1100 v.toNat s)

/-- CV_POL (R386). -/
def execCvPol (port : Port) (v : Word) (s : State) : Host.Outcome State Fault Refusal := .next (write0 port 0x16A4 v.toNat s)

/-! ## Blocking -/

/-- BLOCKING_START (R74): a write of BLOCK_CTL. -/
def execBlockingStart (port : Port) (v : Word) (s : State) : Host.Outcome State Fault Refusal := .next (write0 port 0x60 v.toNat s)

/-- HOOD_FIFO (R75). -/
def execHoodFifo (port : Port) (w : Word) (s : State) : Host.Outcome State Fault Refusal := .next (write0 port 0x62 w.toNat s)

/-! ## Modes and resets -/

/-- A mode request (R405): a write of MODE_REQ, or a request of the MODE service. -/
def modeRequest (via : ReqVia) (req : Nat) (s : State) : State :=
  match via with | .port p => write0 p 0x1702 req s | .chan c => chanRequest c.toNat req s

/-- RUN_REQUEST (R405). -/
def execRunRequest (via : ReqVia) (s : State) : Host.Outcome State Fault Refusal := .next (modeRequest via 1 s)
/-- STOP_REQUEST (R405). -/
def execStopRequest (via : ReqVia) (s : State) : Host.Outcome State Fault Refusal := .next (modeRequest via 2 s)
/-- SLEEP_REQUEST (R408). -/
def execSleepRequest (via : ReqVia) (s : State) : Host.Outcome State Fault Refusal := .next (modeRequest via 3 s)
/-- SERVICE_REQUEST (R405). -/
def execServiceRequest (via : ReqVia) (s : State) : Host.Outcome State Fault Refusal := .next (modeRequest via 4 s)
/-- READY_REQUEST (R404). -/
def execReadyRequest (via : ReqVia) (s : State) : Host.Outcome State Fault Refusal := .next (modeRequest via 5 s)

/-- FULL (R401): a write of RST_CTL; `strap`: what TWIN_ROLE is sampled as. -/
def execFull (port : Port) (v : Word) (strap : Bool) (s : State) : Host.Outcome State Fault Refusal :=
  .next (portWrite port strap 0 0x1704 v.toNat s)

/-- CORE (R413): a write of RST_CTL. -/
def execCore (port : Port) (v : Word) (s : State) : Host.Outcome State Fault Refusal := .next (write0 port 0x1704 v.toNat s)

/-- DOMAIN_RESTART_ENGINE (R416): a write of DOM_RST. -/
def execDomainRestartEngine (port : Port) (v : Word) (s : State) : Host.Outcome State Fault Refusal :=
  .next (write0 port 0x1708 v.toNat s)

/-- DOMAIN_RESTART_CLUSTER (R416): a write of DOM_RST. -/
def execDomainRestartCluster (port : Port) (v : Word) (s : State) : Host.Outcome State Fault Refusal :=
  .next (write0 port 0x1708 v.toNat s)

/-! ## The two ports -/

/-- REGISTER_WRITE (R304): every word of a register is written. -/
def execRegisterWrite (who : Agent) (a : RegAddr) (v : DWord) (s : State) : Host.Outcome State Fault Refusal :=
  .next (agentWrite who a.page.toNat a.off.toNat v.toNat s)

/-- LOWER_WORD_WRITE (R303): one word of a register is written, with the byte enables `be`; SPI words are whole (R313). -/
def execLowerWordWrite (port : Port) (a : RegAddr) (w : HWord) (be : BitVec 2) (s : State) : Host.Outcome State Fault Refusal :=
  .next (wordWrite port s.twin.strap (pageOf s port a) a.off.toNat w (if port = .host then be else 3) s)

/-- BASE_WORD_READ (R302): one word is read. -/
def execBaseWordRead (port : Port) (a : RegAddr) (s : State) : Host.Outcome State Fault Refusal :=
  .next (portRead port (pageOf s port a) [a.off.toNat] s)

/-- READ_CLEAR (R13): a whole register is read. -/
def execReadClear (port : Port) (a : RegAddr) (s : State) : Host.Outcome State Fault Refusal :=
  .next (portReadReg port a.page.toNat a.off.toNat s)

/-- FLT_LOG_READ (R418). -/
def execFltLogRead (port : Port) (s : State) : Host.Outcome State Fault Refusal := .next (portReadReg port 0 0x1710 s)

/-- SYNC (R293): a write of HOST_CFG. -/
def execSync (port : Port) (v : Word) (s : State) : Host.Outcome State Fault Refusal := .next (write0 port 0x14 v.toNat s)

/-- PRST (R297): a write of HOST_CFG from the SPI port. -/
def execPrst (v : Word) (s : State) : Host.Outcome State Fault Refusal := .next (write0 .spi 0x14 v.toNat s)

/-- SRST_SPI (R297): a write of HOST_CFG from the host port. -/
def execSrstSpi (v : Word) (s : State) : Host.Outcome State Fault Refusal := .next (write0 .host 0x14 v.toNat s)

/-- Words written in order from transfer k of a burst that begins at A (R296, R313). -/
def spiWords (page a : Nat) : Nat → List HWord → State → State
  | _, [], s => s
  | k, w :: t, s => spiWords page a (k + 1) t (wordWrite .spi s.twin.strap page (burstOff page a k) w 3 s)

/-- SPI_WRITE (R313). -/
def execSpiWrite (a : RegAddr) (ws : List HWord) (s : State) : Host.Outcome State Fault Refusal :=
  .next (spiWords a.page.toNat a.off.toNat 0 ws s)

/-- SPI_READ (R313). -/
def execSpiRead (a : RegAddr) (n : Nat) (s : State) : Host.Outcome State Fault Refusal :=
  .next (portRead .spi a.page.toNat (burst a.page.toNat a.off.toNat n) s)

/-- SPI_STAT (R313). -/
def spiStat (s : State) : Byte := BitVec.ofNat 8 (flag (sintAsserted s) 7 + flag s.host.spiRefused 6)

/-- SPI_STATUS (R313). -/
def execSpiStatus (s : State) : Host.Outcome State Fault Refusal :=
  .next (if portsOn s then updHost (fun h => { h with spiStatOut := spiStat s, spiRefused := false }) s else s)

/-- R313: command bytes that begin a transaction. -/
def spiCommand (c : Byte) : Bool := c == 0x02#8 || c == 0x0B#8 || c == 0x05#8

/-- SPI_INVALID_COMMAND (R313). -/
def execSpiInvalidCommand (code : Byte) (s : State) : Host.Outcome State Fault Refusal :=
  .next (if portsOn s && !spiCommand code then
      updHost (fun h => { h with errCount := satInc 255 h.errCount, errPort := .spi, errCode := Err.rsvd.code, errPage := 0, errOff := 0 }) s
    else s)

/-- WINDOW_READ (R307): a write of WIN_CMD[w]. -/
def execWindowRead (port : Port) (w : BitVec 3) (v : Word) (s : State) : Host.Outcome State Fault Refusal :=
  .next (write0 port (0x100 + 0x40 * w.toNat) v.toNat s)

/-- WINDOW_WRITE (R307): a write of WIN_CMD[w]. -/
def execWindowWrite (port : Port) (w : BitVec 3) (v : Word) (s : State) : Host.Outcome State Fault Refusal :=
  .next (write0 port (0x100 + 0x40 * w.toNat) v.toNat s)

/-! ## Rings and mailboxes -/

/-- RING_HEAD (R322). -/
def execRingHead (who : Agent) (r : BitVec 6) (v : HWord) (s : State) : Host.Outcome State Fault Refusal :=
  .next (agentWrite who 3 (0x8002 + 8 * r.toNat) v.toNat s)

/-- RING_TAIL (R322). -/
def execRingTail (who : Agent) (r : BitVec 6) (v : HWord) (s : State) : Host.Outcome State Fault Refusal :=
  .next (agentWrite who 3 (0x8003 + 8 * r.toNat) v.toNat s)

/-- Offset of MBX_IN[c][0] on page 3. -/
def mbxBase (c : Nat) : Nat := 0x8400 + 0x40 * c

/-- MAILBOX_SEND (R332): the commit of MBX_IN[c][7]. -/
def execMailboxSend (port : Port) (c : BitVec 4) (v : Word) (s : State) : Host.Outcome State Fault Refusal :=
  .next (portWrite port s.twin.strap 3 (mbxBase c.toNat + 14) v.toNat s)

/-- MBX_OUT_READ (R332): a read of the top word of MBX_OUT[c][7]. -/
def execMbxOutRead (port : Port) (c : BitVec 4) (s : State) : Host.Outcome State Fault Refusal :=
  .next (portReadAt port 3 [mbxBase c.toNat + 0x1F] s)

/-- FLUSH (R333): a write of MBX_CTL[c]. -/
def execFlush (port : Port) (c : BitVec 4) (v : Word) (s : State) : Host.Outcome State Fault Refusal :=
  .next (portWrite port s.twin.strap 3 (mbxBase c.toNat + 0x22) v.toNat s)

/-! ## Timers and UARTs -/

/-- TIMER_START (R365): a write of TMR_GO. -/
def execTimerStart (who : Agent) (v : Word) (s : State) : Host.Outcome State Fault Refusal := .next (agentWrite who 0 0x1500 v.toNat s)

/-- TIMER_STOP (R365): a write of TMR_CTL[n]. -/
def execTimerStop (who : Agent) (n : BitVec 3) (v : Word) (s : State) : Host.Outcome State Fault Refusal :=
  .next (agentWrite who 0 (0x1400 + 0x20 * n.toNat) v.toNat s)

/-- A read of a whole register by either side; firmware has no latch. -/
def agentRead (who : Agent) (off : Nat) (r : Reg) (s : State) : State :=
  match who with | .port p => portReadReg p 0 off s | .firmware => if fwActs s then (baseRead r s).1 else s

/-- TMR_CAP_READ (R368). -/
def execTmrCapRead (who : Agent) (n : BitVec 3) (s : State) : Host.Outcome State Fault Refusal :=
  .next (agentRead who (0x1410 + 0x20 * n.toNat) (.tmrCap n.toNat) s)

/-- UART_TXD (R376). -/
def execUartTxd (who : Agent) (u : BitVec 2) (v : HWord) (s : State) : Host.Outcome State Fault Refusal :=
  .next (agentWrite who 0 (0x152B + 0x20 * u.toNat) v.toNat s)

/-- UART_RXD (R376). -/
def execUartRxd (who : Agent) (u : BitVec 2) (s : State) : Host.Outcome State Fault Refusal :=
  .next (agentRead who (0x152A + 0x20 * u.toNat) (.uartRxd u.toNat) s)

/-- UART_DISABLE (R375): a write of UART_CFG[u]. -/
def execUartDisable (who : Agent) (u : BitVec 2) (v : Word) (s : State) : Host.Outcome State Fault Refusal :=
  .next (agentWrite who 0 (0x1520 + 0x20 * u.toNat) v.toNat s)

/-! ## The test access port (R432) -/

/-- R432: the instruction that a code holds; a reserved code acts as BYPASS. -/
def tapCode (code : BitVec 4) : TapIns :=
  match code.toNat with
  | 0 => .extest | 1 => .idcode | 2 => .sample | 3 => .clamp | 4 => .highz
  | _ => .bypass

/-- R432: the instructions that take control of the balls. -/
def tapDrives : TapIns → Bool
  | .extest => true | .clamp => true | .highz => true | _ => false

/-- R432: what the instruction acts as in the mode in force. -/
def tapActs (s : State) : TapIns :=
  if tapDrives s.tap.ins && !(s.mode.mode == .reset || s.mode.mode == .loader || s.mode.mode == .service) then .bypass
  else s.tap.ins

/-- R432: IDCODE. -/
def idcode (s : State) : Nat := place 1 4 28 + place s.part.number 16 12 + place 0x1B3 11 1 + 1

/-- R432: the cells of the boundary register, from the levels that they capture. -/
def boundaryOf (balls : List Bool) : List Bool := (List.range boundaryCells).map fun i => balls.getD i false

/-- R432: what the data register that the instruction selects captures, its least significant bit first: CLAMP and HIGHZ
select the bypass register, as IEEE 1149.1 has it. -/
def tapCapture (s : State) (balls : List Bool) : List Bool :=
  match tapActs s with
  | .idcode => (List.range 32).map (bitAt (idcode s))
  | .sample => boundaryOf balls
  | .extest => boundaryOf balls
  | _ => [false]

/-- R432: a scan shifts the bits on TDI through the captured register; the boundary register's update stage takes what is
left in it. -/
def tapScan (s : State) (balls tdi : List Bool) : Tap :=
  let r := tapCapture s balls ++ tdi
  let t := { s.tap with out := r.take tdi.length }
  match tapActs s with
  | .sample => { t with cells := r.drop tdi.length }
  | .extest => { t with cells := r.drop tdi.length }
  | _ => t

/-- R432: one event of the test access port. An instruction scan shows 01 on TDO first, as IEEE 1149.1 has it; the two bits
after them are free values (log entry 69). -/
def tapDo (op : TapOp) (s : State) : State :=
  match op with
  | .trst low => { s with tap := { s.tap with trst := low, ins := if low then .idcode else s.tap.ins } }
  | .reset => { s with tap := { s.tap with ins := .idcode } }
  | .ir code =>
    if s.tap.trst then s
    else
      let k := Config.freeNat s.use
      { s with use := s.use + 1, tap := { s.tap with ins := tapCode code, out := [true, false, bitAt k 0, bitAt k 1] } }
  | .dr balls tdi => if s.tap.trst then s else { s with tap := tapScan s balls tdi }

/-- TAP_INSTRUCTION (R432): in every mode but SLEEP. -/
def execTapInstruction (op : TapOp) (s : State) : Host.Outcome State Fault Refusal :=
  .next (if s.mode.mode = .sleep then s else tapDo op s)

end Sys2Proof.Machine
end

