-- ==== Sys2Proof/Machine/StreamCmds.lean ====
section
/-! DEFINITION. DRAM reads of the audio path: voice lines, placement cells and delay taps that arrive, or do not
(R126 to R131, R169, R237). -/

namespace Sys2Proof.Machine

/-- STREAM_LINE_ARRIVAL (R126, R130, R131). An error in a start buffer is a fault with no cluster as its unit, and counts when
the line becomes a slot's (log entry 79). -/
def execStreamLineArrival (o : LineOwner) (l : LineAt) (ecc : EccKind) (s : State) : Host.Outcome State Fault Refusal :=
  if lineWaits s o l true then
    let s := countEcc ecc s
    .next (if ecc = .uncorrectable then
        raiseFault 1 (ownerUnit o) (countLine o (fun c => { c with eccue := satInc 255 c.eccue }) (markLine o l .ecc s))
      else markLine o l .held s)
  else .next s

/-- STREAM_LINE_LATE (R130). -/
def execStreamLineLate (o : LineOwner) (l : LineAt) (s : State) : Host.Outcome State Fault Refusal := .next (lineLate o l s)

/-- The cell fetch under way for the voice of a slot. -/
def cellOf (s : State) (i : Nat) : Option CellFetch := match (slotAt s i).cur with | some v => v.fetch | none => none

/-- Change the cell fetch of a slot's voice. -/
def updFetch (i : Nat) (f : CellFetch → CellFetch) (s : State) : State :=
  let x := slotAt s i
  setSlot i { x with cur := x.cur.map fun v => { v with fetch := v.fetch.map f } } s

/-- CELL_ARRIVAL (R169). -/
def execCellArrival (slot : BitVec 11) (ecc : EccKind) (s : State) : Host.Outcome State Fault Refusal :=
  let i := slot.toNat
  match cellOf s i with
  | some _ =>
    let s := countEcc ecc s
    .next (if ecc = .uncorrectable then
        raiseFault 1 (i / 256) (updCluster (i / 256) (fun c => { c with cellEcc := satInc 255 c.cellEcc }) (updFetch i (fun f => { f with ecc := true }) s))
      else s)
  | none => .next s

/-- CELL_LATE (R169). -/
def execCellLate (slot : BitVec 11) (s : State) : Host.Outcome State Fault Refusal :=
  let i := slot.toNat
  match cellOf s i with
  | some f =>
    .next (if f.late then s
      else raiseFault 2 (i / 256) (updCluster (i / 256) (fun c => { c with cellLate := satInc 255 c.cellLate }) (updFetch i (fun f => { f with late := true }) s)))
  | none => .next s

/-- A tap that the hood declares, and its line. -/
def tapOf (s : State) (t : Nat) : Option (DlyTap × DlyLine) :=
  match Store.get none s.dly.taps t with
  | some x => (match Store.get none s.dly.lines x.line with | some l => some (x, l) | none => none)
  | none => none

/-- DELAY_FETCH_LATE (R237). -/
def execDelayFetchLate (tap : BitVec 8) (s : State) : Host.Outcome State Fault Refusal :=
  match tapOf s tap.toNat with
  | some (x, _) =>
    .next (if framesRun s && !s.dly.lateTaps.contains tap.toNat then
        raiseFault 2 x.owner { s with dly := { s.dly with lateTaps := tap.toNat :: s.dly.lateTaps, late := satInc 255 s.dly.late } }
      else s)
  | none => .next s

/-- R237: the 16-sample block of a tap's fetch that arrives at t: for the frame under way up to its cycle 34, and after that
for the next frame, under the lengths and delays set. -/
def tapBlock (s : State) (x : DlyTap) (l : DlyLine) (t : Nat) : Nat :=
  if t ≤ s.frame.tickAt + 34 then (s.frame.cnt - effDelay l.cur x.cur) / 16 else (s.frame.cnt + 1 - effDelay l.len x.d) / 16

/-- DELAY_FETCH_ARRIVAL (R237). -/
def execDelayFetchArrival (tap : BitVec 8) (ecc : EccKind) (s : State) (t : Nat := 0) : Host.Outcome State Fault Refusal :=
  let s := later t s
  match tapOf s tap.toNat with
  | some (x, l) =>
    if framesRun s then
      let k := (tap.toNat, tapBlock s x l t)
      let s := countEcc ecc s
      .next (if ecc = .uncorrectable then
          raiseFault 1 x.owner { s with dly := { s.dly with eccTaps := if s.dly.eccTaps.contains k then s.dly.eccTaps else k :: s.dly.eccTaps
                                                            eccue := satInc 255 s.dly.eccue } }
        else { s with dly := { s.dly with eccTaps := s.dly.eccTaps.filter fun y => y != k } })
    else .next s
  | none => .next s

end Sys2Proof.Machine
end

