-- ==== Sys2Proof/Machine/Dispatch.lean ====
section
/-! DEFINITION. The commands and their meanings, one arm each. -/

namespace Sys2Proof.Machine

/-- One command's effect on everything but the queue. -/
def exec (i : Instr) (s : State) : Host.Outcome State Fault Refusal :=
  match i with
  | .masterTick t errs => Sys2Proof.Machine.execMasterTick t errs s
  | .heldTickStart t => Sys2Proof.Machine.execHeldTickStart t s
  | .preemption e => Sys2Proof.Machine.execPreemption e s
  | .samplePartitionStart e => Sys2Proof.Machine.execSamplePartitionStart e s
  | .backgroundResume e => Sys2Proof.Machine.execBackgroundResume e s
  | .engineOverrun e early => Sys2Proof.Machine.execEngineOverrun e early s
  | .reservedInstruction g w => Sys2Proof.Machine.execReservedInstruction g w s
  | .nop g x y => Sys2Proof.Machine.execNop g x y s
  | .mpy g p => Sys2Proof.Machine.execMpy g p s
  | .mac g p => Sys2Proof.Machine.execMac g p s
  | .msu g p => Sys2Proof.Machine.execMsu g p s
  | .clr g p => Sys2Proof.Machine.execClr g p s
  | .adda g m p => Sys2Proof.Machine.execAdda g m p s
  | .suba g m p => Sys2Proof.Machine.execSuba g m p s
  | .nega g p => Sys2Proof.Machine.execNega g p s
  | .absa g p => Sys2Proof.Machine.execAbsa g p s
  | .shla g k p => Sys2Proof.Machine.execShla g k p s
  | .shra g k p => Sys2Proof.Machine.execShra g k p s
  | .rnda g p => Sys2Proof.Machine.execRnda g p s
  | .addd g src p => Sys2Proof.Machine.execAddd g src p s
  | .subd g src p => Sys2Proof.Machine.execSubd g src p s
  | .ldd g src p => Sys2Proof.Machine.execLdd g src p s
  | .cmpa g m p => Sys2Proof.Machine.execCmpa g m p s
  | .tsta g p => Sys2Proof.Machine.execTsta g p s
  | .maxa g m p => Sys2Proof.Machine.execMaxa g m p s
  | .mina g m p => Sys2Proof.Machine.execMina g m p s
  | .sela g m c p => Sys2Proof.Machine.execSela g m c p s
  | .ld g m reg o => Sys2Proof.Machine.execLd g m reg o s
  | .st g m reg o => Sys2Proof.Machine.execSt g m reg o s
  | .sta g m acc sh o => Sys2Proof.Machine.execSta g m acc sh o s
  | .lda g m acc o => Sys2Proof.Machine.execLda g m acc o s
  | .ldp g m ptr o => Sys2Proof.Machine.execLdp g m ptr o s
  | .wideStore g acc a => Sys2Proof.Machine.execWideStore g acc a s
  | .wideLoad g acc a => Sys2Proof.Machine.execWideLoad g acc a s
  | .brd g bus reg x y => Sys2Proof.Machine.execBrd g bus reg x y s
  | .bwr g bus reg x y => Sys2Proof.Machine.execBwr g bus reg x y s
  | .bwra g bus acc sh x y => Sys2Proof.Machine.execBwra g bus acc sh x y s
  | .trd g tap reg x y => Sys2Proof.Machine.execTrd g tap reg x y s
  | .twr g line reg x y => Sys2Proof.Machine.execTwr g line reg x y s
  | .mov g dst src => Sys2Proof.Machine.execMov g dst src s
  | .movi g dst imm => Sys2Proof.Machine.execMovi g dst imm s
  | .modp g p imm => Sys2Proof.Machine.execModp g p imm s
  | .add g d src => Sys2Proof.Machine.execAdd g d src s
  | .sub g d src => Sys2Proof.Machine.execSub g d src s
  | .addi g d imm => Sys2Proof.Machine.execAddi g d imm s
  | .andi g d imm => Sys2Proof.Machine.execAndi g d imm s
  | .ori g d imm => Sys2Proof.Machine.execOri g d imm s
  | .xori g d imm => Sys2Proof.Machine.execXori g d imm s
  | .shl g d n => Sys2Proof.Machine.execShl g d n s
  | .shr g d n => Sys2Proof.Machine.execShr g d n s
  | .asr g d n => Sys2Proof.Machine.execAsr g d n s
  | .cmpd g d src => Sys2Proof.Machine.execCmpd g d src s
  | .cmpdi g d imm => Sys2Proof.Machine.execCmpdi g d imm s
  | .rep g n => Sys2Proof.Machine.execRep g n s
  | .repr g d => Sys2Proof.Machine.execRepr g d s
  | .loop g addr n => Sys2Proof.Machine.execLoop g addr n s
  | .loopr g d addr => Sys2Proof.Machine.execLoopr g d addr s
  | .lsave g => Sys2Proof.Machine.execLsave g s
  | .lrest g => Sys2Proof.Machine.execLrest g s
  | .end_ g => Sys2Proof.Machine.execEnd g s
  | .tend g => Sys2Proof.Machine.execTend g s
  | .br g cond addr => Sys2Proof.Machine.execBr g cond addr s
  | .noteStart src a => Sys2Proof.Machine.execNoteStart src a s
  | .noteRelease src a => Sys2Proof.Machine.execNoteRelease src a s
  | .noteKill src a => Sys2Proof.Machine.execNoteKill src a s
  | .voiceSet src a => Sys2Proof.Machine.execVoiceSet src a s
  | .groupSet src a => Sys2Proof.Machine.execGroupSet src a s
  | .placeSet src a => Sys2Proof.Machine.execPlaceSet src a s
  | .tempo src a => Sys2Proof.Machine.execTempo src a s
  | .fulSet src a => Sys2Proof.Machine.execFulSet src a s
  | .bankSwap src a => Sys2Proof.Machine.execBankSwap src a s
  | .xfStart src a => Sys2Proof.Machine.execXfStart src a s
  | .xfFinish src a => Sys2Proof.Machine.execXfFinish src a s
  | .delaySet src a => Sys2Proof.Machine.execDelaySet src a s
  | .cvSet src a => Sys2Proof.Machine.execCvSet src a s
  | .regionEnable src a => Sys2Proof.Machine.execRegionEnable src a s
  | .commit src a => Sys2Proof.Machine.execCommit src a s
  | .commitDrop src a => Sys2Proof.Machine.execCommitDrop src a s
  | .mark src a => Sys2Proof.Machine.execMark src a s
  | .reservedOpcode src op a => Sys2Proof.Machine.execReservedOpcode src op a s
  | .stealFadeEnd slot => Sys2Proof.Machine.execStealFadeEnd slot s
  | .crossfadeEnd e => Sys2Proof.Machine.execCrossfadeEnd e s
  | .streamLineArrival o l ecc => Sys2Proof.Machine.execStreamLineArrival o l ecc s
  | .streamLineLate o l => Sys2Proof.Machine.execStreamLineLate o l s
  | .cellArrival slot ecc => Sys2Proof.Machine.execCellArrival slot ecc s
  | .cellLate slot => Sys2Proof.Machine.execCellLate slot s
  | .delayFetchLate tap => Sys2Proof.Machine.execDelayFetchLate tap s
  | .meterWindowEnd m => Sys2Proof.Machine.execMeterWindowEnd m s
  | .watchdogExpiry t => Sys2Proof.Machine.execWatchdogExpiry t s
  | .holdOutputMute t => Sys2Proof.Machine.execHoldOutputMute t s
  | .relock d t => Sys2Proof.Machine.execRelock d t s
  | .portFrame k t rise fall => Sys2Proof.Machine.execPortFrame k t rise fall s
  | .portStop p t => Sys2Proof.Machine.execPortStop p t s
  | .portRestart p t => Sys2Proof.Machine.execPortRestart p t s
  | .syncStartTrigger t => Sys2Proof.Machine.execSyncStartTrigger t s
  | .groupGo port g v => Sys2Proof.Machine.execGroupGo port g v s
  | .groupStart g => Sys2Proof.Machine.execGroupStart g s
  | .asrcLock d => Sys2Proof.Machine.execAsrcLock d s
  | .asrcUnlock d t => Sys2Proof.Machine.execAsrcUnlock d t s
  | .aesFrameReceive r t a b f => Sys2Proof.Machine.execAesFrameReceive r t a b f s
  | .aesLock r => Sys2Proof.Machine.execAesLock r s
  | .aesUnlock r => Sys2Proof.Machine.execAesUnlock r s
  | .aesBlockComplete r => Sys2Proof.Machine.execAesBlockComplete r s
  | .nonaudioRelease r => Sys2Proof.Machine.execNonaudioRelease r s
  | .aesTxBlockStart x => Sys2Proof.Machine.execAesTxBlockStart x s
  | .aesTxPllLock x => Sys2Proof.Machine.execAesTxPllLock x s
  | .pdmOutputSample k t rise fall => Sys2Proof.Machine.execPdmOutputSample k t rise s fall
  | .pdmSettled k => Sys2Proof.Machine.execPdmSettled k s
  | .srst port k v => Sys2Proof.Machine.execSrst port k v s
  | .synchronisingReset k => Sys2Proof.Machine.execSynchronisingReset k s
  | .pdmStop k t => Sys2Proof.Machine.execPdmStop k t s
  | .pdmRestart k edges => Sys2Proof.Machine.execPdmRestart k edges s
  | .pdmBankRequest port k v => Sys2Proof.Machine.execPdmBankRequest port k v s
  | .pdmCdataAccess port write v => Sys2Proof.Machine.execPdmCdataAccess port write v s
  | .pair port v => Sys2Proof.Machine.execPair port v s
  | .pairingChecks p => Sys2Proof.Machine.execPairingChecks p s
  | .linkEntry r => Sys2Proof.Machine.execLinkEntry r s
  | .markReceive t m => Sys2Proof.Machine.execMarkReceive t m s
  | .markLoss t => Sys2Proof.Machine.execMarkLoss t s
  | .takeover t => Sys2Proof.Machine.execTakeover t s
  | .faultNSeen t => Sys2Proof.Machine.execFaultNSeen t s
  | .leadYield => Sys2Proof.Machine.execLeadYield s
  | .leadRetire => Sys2Proof.Machine.execLeadRetire s
  | .swap port v => Sys2Proof.Machine.execSwap port v s
  | .swapRoleExchange => Sys2Proof.Machine.execSwapRoleExchange s
  | .linkupChange up => Sys2Proof.Machine.execLinkupChange up s
  | .sineGeneratorUpdate t => Sys2Proof.Machine.execSineGeneratorUpdate t s
  | .spanChangeEnd c t => Sys2Proof.Machine.execSpanChangeEnd c t s
  | .deglitchEnd c t => Sys2Proof.Machine.execDeglitchEnd c t s
  | .monitorSlot n reading t => Sys2Proof.Machine.execMonitorSlot n reading t s
  | .cvPol port v => Sys2Proof.Machine.execCvPol port v s
  | .blockingStart port v => Sys2Proof.Machine.execBlockingStart port v s
  | .hoodFifo port w => Sys2Proof.Machine.execHoodFifo port w s
  | .hoodFifoStarvation t => Sys2Proof.Machine.execHoodFifoStarvation t s
  | .pass1 body bad => Sys2Proof.Machine.execPass1 body bad s
  | .pass2 dramMb trained => Sys2Proof.Machine.execPass2 dramMb trained s
  | .restoreComplete => Sys2Proof.Machine.execRestoreComplete s
  | .runRequest via => Sys2Proof.Machine.execRunRequest via s
  | .runEntry t => Sys2Proof.Machine.execRunEntry t s
  | .stopRequest via => Sys2Proof.Machine.execStopRequest via s
  | .leaveRunningMode t => Sys2Proof.Machine.execLeaveRunningMode t s
  | .sleepRequest via => Sys2Proof.Machine.execSleepRequest via s
  | .serviceRequest via => Sys2Proof.Machine.execServiceRequest via s
  | .readyRequest via => Sys2Proof.Machine.execReadyRequest via s
  | .modeStatus c => Sys2Proof.Machine.execModeStatus c s
  | .wakeEvent src t => Sys2Proof.Machine.execWakeEvent src t s
  | .wakeEnd t hood code => Sys2Proof.Machine.execWakeEnd t hood code s
  | .powerOnReset strap => Sys2Proof.Machine.execPowerOnReset strap s
  | .pinReset lowNs strap => Sys2Proof.Machine.execPinReset lowNs strap s
  | .full port v strap => Sys2Proof.Machine.execFull port v strap s
  | .core port v => Sys2Proof.Machine.execCore port v s
  | .firstWatchdogExpiry => Sys2Proof.Machine.execFirstWatchdogExpiry s
  | .secondWatchdogExpiry strap => Sys2Proof.Machine.execSecondWatchdogExpiry strap s
  | .domainPowerFault d => Sys2Proof.Machine.execDomainPowerFault d s
  | .controlSramUncorrectable r => Sys2Proof.Machine.execControlSramUncorrectable s r
  | .domainRestartEngine port v => Sys2Proof.Machine.execDomainRestartEngine port v s
  | .domainRestartCluster port v => Sys2Proof.Machine.execDomainRestartCluster port v s
  | .domainRestartComplete => Sys2Proof.Machine.execDomainRestartComplete s
  | .registerWrite who a v => Sys2Proof.Machine.execRegisterWrite who a v s
  | .lowerWordWrite port a w be => Sys2Proof.Machine.execLowerWordWrite port a w be s
  | .baseWordRead port a => Sys2Proof.Machine.execBaseWordRead port a s
  | .readClear port a => Sys2Proof.Machine.execReadClear port a s
  | .fltLogRead port => Sys2Proof.Machine.execFltLogRead port s
  | .sync port v => Sys2Proof.Machine.execSync port v s
  | .prst v => Sys2Proof.Machine.execPrst v s
  | .srstSpi v => Sys2Proof.Machine.execSrstSpi v s
  | .spiWrite a ws => Sys2Proof.Machine.execSpiWrite a ws s
  | .spiRead a n => Sys2Proof.Machine.execSpiRead a n s
  | .spiStatus => Sys2Proof.Machine.execSpiStatus s
  | .spiInvalidCommand code => Sys2Proof.Machine.execSpiInvalidCommand code s
  | .windowRead port w v => Sys2Proof.Machine.execWindowRead port w v s
  | .windowWrite port w v => Sys2Proof.Machine.execWindowWrite port w v s
  | .windowTransferComplete w ecc => Sys2Proof.Machine.execWindowTransferComplete w ecc s
  | .ringHead who r v => Sys2Proof.Machine.execRingHead who r v s
  | .ringTail who r v => Sys2Proof.Machine.execRingTail who r v s
  | .taskReady c => Sys2Proof.Machine.execTaskReady c s
  | .taskCancel c => Sys2Proof.Machine.execTaskCancel c s
  | .taskDelay c => Sys2Proof.Machine.execTaskDelay c s
  | .prefetchSlotFill k => Sys2Proof.Machine.execPrefetchSlotFill k s
  | .taskDispatch k t => Sys2Proof.Machine.execTaskDispatch k t s
  | .taskEnd k fault t => Sys2Proof.Machine.execTaskEnd k fault t s
  | .millisecondTick t n => Sys2Proof.Machine.execMillisecondTick t s n
  | .loadWindowEnd t => Sys2Proof.Machine.execLoadWindowEnd t s
  | .bulkToDram r => Sys2Proof.Machine.execBulkToDram r s
  | .bulkFromDram r => Sys2Proof.Machine.execBulkFromDram r s
  | .bulkComplete r ecc => Sys2Proof.Machine.execBulkComplete r ecc s
  | .mailboxSend port c v => Sys2Proof.Machine.execMailboxSend port c v s
  | .mailboxTake c => Sys2Proof.Machine.execMailboxTake c s
  | .outboundSend c m log => Sys2Proof.Machine.execOutboundSend c m s log
  | .mbxOutRead port c => Sys2Proof.Machine.execMbxOutRead port c s
  | .flush port c v => Sys2Proof.Machine.execFlush port c v s
  | .outboundFlush c => Sys2Proof.Machine.execOutboundFlush c s
  | .info c => Sys2Proof.Machine.execInfo c s
  | .latencyCount c => Sys2Proof.Machine.execLatencyCount c s
  | .latencyPath c => Sys2Proof.Machine.execLatencyPath c s
  | .ownerLock c digest => Sys2Proof.Machine.execOwnerLock c digest s
  | .begin_ c => Sys2Proof.Machine.execBegin c s
  | .load c => Sys2Proof.Machine.execLoad c s
  | .verify c => Sys2Proof.Machine.execVerify c s
  | .activate c => Sys2Proof.Machine.execActivate c s
  | .confirm c => Sys2Proof.Machine.execConfirm c s
  | .abort c => Sys2Proof.Machine.execAbort c s
  | .status c => Sys2Proof.Machine.execStatus c s
  | .handoverStart => Sys2Proof.Machine.execHandoverStart s
  | .handoverRestart => Sys2Proof.Machine.execHandoverRestart s
  | .handoverAck => Sys2Proof.Machine.execHandoverAck s
  | .handoverFallback => Sys2Proof.Machine.execHandoverFallback s
  | .loaderActivate => Sys2Proof.Machine.execLoaderActivate s
  | .timerStart who v => Sys2Proof.Machine.execTimerStart who v s
  | .timerStop who n v => Sys2Proof.Machine.execTimerStop who n v s
  | .timerWrap n => Sys2Proof.Machine.execTimerWrap n s
  | .compareMatch n => Sys2Proof.Machine.execCompareMatch n s
  | .capture n rising => Sys2Proof.Machine.execCapture n rising s
  | .tmrCapRead who n => Sys2Proof.Machine.execTmrCapRead who n s
  | .receiveCharacter u samples => Sys2Proof.Machine.execReceiveCharacter u samples s
  | .break_ u => Sys2Proof.Machine.execBreak u s
  | .deadLine u => Sys2Proof.Machine.execDeadLine u s
  | .rxEntryIdleClose u => Sys2Proof.Machine.execRxEntryIdleClose u s
  | .dmxBreak u lowUs highUs => Sys2Proof.Machine.execDmxBreak u lowUs highUs s
  | .dmxPacketTimeout u => Sys2Proof.Machine.execDmxPacketTimeout u s
  | .transmitCharacter u => Sys2Proof.Machine.execTransmitCharacter u s
  | .uartTxd who u v => Sys2Proof.Machine.execUartTxd who u v s
  | .uartRxd who u => Sys2Proof.Machine.execUartRxd who u s
  | .uartDisable who u v => Sys2Proof.Machine.execUartDisable who u v s
  | .midiStats c => Sys2Proof.Machine.execMidiStats c s
  | .midiSend c => Sys2Proof.Machine.execMidiSend c s
  | .dmxStatus c => Sys2Proof.Machine.execDmxStatus c s
  | .domainTick d t => Sys2Proof.Machine.execDomainTick d t s
  | .timerSourceEdge n => Sys2Proof.Machine.execTimerSourceEdge n s
  | .uartRxRearm u => Sys2Proof.Machine.execUartRxRearm u s
  | .domainPowerRecovery d => Sys2Proof.Machine.execDomainPowerRecovery d s
  | .pairingTimeout t p => Sys2Proof.Machine.execPairingTimeout t s p
  | .delayFetchArrival tap ecc t => Sys2Proof.Machine.execDelayFetchArrival tap ecc s t
  | .confirmEnd ok => Sys2Proof.Machine.execConfirmEnd ok s
  | .firmwareStart t => Sys2Proof.Machine.execFirmwareStart t s
  | .tapInstruction op => Sys2Proof.Machine.execTapInstruction op s

end Sys2Proof.Machine
end

