-- ==== Sys2Proof/Safety.lean ====
section
/-! DEFINITION. What holds of every state a Derku can be in: memories in their canonical form, bounded stores, units in
their number, fuses that are only ever blown; and the terms in which statements about the engines are made. -/

namespace Sys2Proof.Machine

/-- The three memories hold each cell once, in order, and none that an unlisted address already gives. -/
def State.memWf (s : State) : Prop := Memory.wf 0 s.dram ∧ Memory.wf 0 s.ringMem ∧ Memory.wf 0xFF s.flash

/-- R181: numbers of the registers of both banks of an engine (D, A, P, M, L, B), and of the older accumulators. -/
def Engine.shape (g : Engine) : List Nat :=
  [g.smp.d.length, g.smp.a.length, g.smp.p.length, g.smp.m.length, g.smp.l.length, g.smp.b.length,
   g.bg.d.length, g.bg.a.length, g.bg.p.length, g.bg.m.length, g.bg.l.length, g.bg.b.length, g.aOld.length]

/-- Those numbers. -/
def engCounts : List Nat := [16, 4, 8, 8, 8, 8, 16, 4, 8, 8, 8, 8, 4]

/-- Numbers of the units of each kind that a Derku has (R1, R13, R49, R177, R182, R298, R319, R331, R340, R361, R371,
R394), and of the registers of each engine; a unit that a variant lacks stays at its reset value. -/
def State.shape (s : State) : List (List Nat) :=
  [s.clusters.length, s.engines.length, s.rings.length, s.mbx.length, s.timers.length, s.uarts.length, s.cv.chans.length,
   s.cv.mon.length, s.audio.saps.length, s.audio.grps.length, s.audio.rx.length, s.audio.tx.length, s.audio.pdm.length,
   s.clocks.dom.length, s.sched.cores.length, s.host.wins.length, s.carder.sets.length, s.bus.meters.length] :: s.engines.map Engine.shape

/-- Those numbers. -/
def unitCounts : List (List Nat) :=
  [8, 16, 64, 16, 8, 4, 16, 20, 8, 4, 4, 4, 4, 4, 20, 8, 15, 16] :: List.replicate 16 engCounts

/-- The pending store holds at most 4096 events (R44), and the fault log at most sixteen entries (R418). -/
def State.bounded (s : State) : Prop := s.carder.store.length ≤ 4096 ∧ s.flt.log.length ≤ 16

/-- The invariant of the block. -/
def Inv (s : State) : Prop := s.memWf ∧ s.shape = unitCounts ∧ s.bounded

/-- R73, R350, R386: fuses are only ever blown: a locked owner digest stays, the epoch never falls, a polarity fuse that is
blown stays blown. -/
def Fuses.onlyBlown (a b : Fuses) : Prop :=
  (a.lock = true → b.lock = true ∧ b.owner = a.owner) ∧ a.epoch ≤ b.epoch ∧ ∀ i, bitAt a.cvPol i = true → bitAt b.cvPol i = true

/-! ## What can be seen of an engine -/

/-- The engine as the second instruction from now sees it: every write still on its way has taken its place (R185). -/
def Engine.landed (g : Engine) : Engine := g.late.foldl applyLate g

/-- Whether accumulator n is pinned, as the last instruction left it (R192), and as the one before left it (R185). -/
def Engine.pinned (g : Engine) (n : Nat) : Bool := stBit g.st (stPin n)
def Engine.oldPin (g : Engine) (n : Nat) : Bool := stBit g.stOld (stPin n)

/-- Accumulator n as the instruction before the last left it (R185). -/
def Engine.oldAcc (g : Engine) (n : Nat) : Int := (g.aOld.getD n 0).toInt

/-- The word of X that pointer n addresses, and of Y. -/
def Engine.xAt (g : Engine) (n : Nat) : Word := Store.get 0 g.x (g.bank.pN n).toNat
def Engine.yAt (g : Engine) (n : Nat) : Word := g.readY (g.bank.pN n).toNat

/-- R191: accumulator n takes the exact value v; where v lies outside 72 bits it saturates, and the pin, AV and the host's
copy of AV are set. -/
def AccTakes (x y : Engine) (n : Nat) (v : Int) : Prop :=
  if -2 ^ 71 ≤ v ∧ v < 2 ^ 71 then y.bank.aN n = v ∧ y.pinned n = x.pinned n
  else y.bank.aN n = (if v < 0 then -2 ^ 71 else 2 ^ 71 - 1) ∧ y.pinned n = true ∧ stBit y.st stAV = true ∧
    (if x.phase = .sample then y.sav = true else y.bav = true)

/-- R210: accumulator n and its pin stay. -/
def AccKept (x y : Engine) (n : Nat) : Prop := y.bank.aN n = x.bank.aN n ∧ y.pinned n = x.pinned n

/-- R193, R212: an accumulator value rounded to 32 bits after a pre-shift, before the clamp; whether the clamp changes it;
and a word that is the clamped value. -/
def rounded (a : Int) (sh : Nat) : Int := (a * 2 ^ sh + 2 ^ 30) / 2 ^ 31
def clampsTo (a : Int) (sh : Nat) : Prop := rounded a sh < -2 ^ 31 ∨ 2 ^ 31 ≤ rounded a sh
def NarrowedTo (a : Int) (sh : Nat) (v : Word) : Prop := v.toInt = max (-2 ^ 31) (min (2 ^ 31 - 1) (rounded a sh))

/-- R182: the host's copy of a narrowing that saturated. -/
def RecordsSv (x y : Engine) : Prop := if x.phase = .sample then y.ssv = true else y.bsv = true

/-- R193, R212: a word is the narrowing of an accumulator value, and a clamp sets SV and the host's copy. -/
def Narrows (x y : Engine) (a : Int) (sh : Nat) (v : Word) : Prop :=
  NarrowedTo a sh v ∧ (clampsTo a sh → stBit y.st stSV = true ∧ RecordsSv x y)

/-- R60, R179, R204: X and Y hold a word that was stored, or keep what they held where a background write is discarded. -/
def StoresX (x y : Engine) (det : Bool) (p : Nat) (v : Word) : Prop :=
  Store.get 0 y.landed.x p = if (writeAllowed x det false p).1 then v else Store.get 0 x.landed.x p
def StoresY (x y : Engine) (det : Bool) (p : Nat) (v : Word) : Prop :=
  y.landed.yWord (x.yBank p) (p % 0x4000) = if (writeAllowed x det true p).1 then v else x.landed.yWord (x.yBank p) (p % 0x4000)

/-- R215: the 32-bit value of a register as the source of a move into register dst. -/
def SourceIs (x y : Engine) (dst c : Nat) (v : Word) : Prop :=
  if c < 0x10 then v = x.bank.dN c
  else if c < 0x14 then NarrowedTo (x.oldAcc (c - 0x10)) 0 v ∧
    (clampsTo (x.oldAcc (c - 0x10)) 0 → RecordsSv x y ∧ (dst ≠ 0x3C → stBit y.st stSV = true))
  else if c < 0x20 then v.toNat = (x.bank.pN (c - 0x18)).toNat
  else if c < 0x28 then v.toInt = (x.bank.m.getD (c - 0x20) 0).toInt
  else if c < 0x30 then v.toNat = (x.bank.l.getD (c - 0x28) 0).toNat
  else if c < 0x38 then v.toNat = (x.bank.b.getD (c - 0x30) 0).toNat
  else if c = 0x38 then v.toNat = x.lc.toNat
  else if c = 0x39 then v.toNat = x.ls.toNat
  else if c = 0x3A then v.toNat = x.le.toNat
  else v.toNat = x.stOld.toNat

/-- R215: what register c holds after a move of v. -/
def DestHolds (x y : Engine) (c : Nat) (v : Word) : Prop :=
  if c < 0x10 then y.bank.dN c = v
  else if c < 0x14 then y.bank.aN (c - 0x10) = v.toInt * 2 ^ 31 ∧ y.pinned (c - 0x10) = false
  else if c < 0x20 then (y.landed.bank.pN (c - 0x18)).toNat = v.toNat % 2 ^ 15
  else if c < 0x28 then (y.landed.bank.m.getD (c - 0x20) 0).toNat = v.toNat % 2 ^ 16
  else if c < 0x30 then (y.landed.bank.l.getD (c - 0x28) 0).toNat = v.toNat % 2 ^ 16
  else if c < 0x38 then (y.landed.bank.b.getD (c - 0x30) 0).toNat = v.toNat % 2 ^ 15
  else if c = 0x38 then y.landed.lc.toNat = v.toNat % 2 ^ 16
  else if c = 0x39 then y.landed.ls.toNat = v.toNat % 2 ^ 13
  else if c = 0x3A then y.landed.le.toNat = v.toNat % 2 ^ 13
  else ∀ i, i < 16 → stBit y.landed.st i = if (8 ≤ i ∧ i ≤ 14) ∨ i = 2 ∨ i = 3 then v.getLsbD i else stBit x.st i

/-- R203 to R220, R439: an engine that runs a partition can issue the word: no parity error, nothing reserved, a class that
the partition may issue, and in the sample partition a cycle before that of END (R196). -/
def issuable (g : EngAt) (w : Nat) (s : State) : Prop :=
  let x := engAt s g.e.toNat
  engRuns s x = true ∧ g.perr % 16 = 0 ∧ reservedWord w = false ∧ contextReserved x (insOf w) = false ∧
    (if x.phase = .sample then backgroundOnly (insOf w) = false ∧ x.cyc + 5 < x.slen else sampleOnly (insOf w) = false)

/-- The instruction command can issue in a state. -/
def canIssue (c : Instr) (s : State) : Prop := match engWord c with | some (g, w) => issuable g w s | none => False

/-- The command answers a next state, of which P says what it holds. -/
def Does (c : Instr) (s : State) (P : State → Prop) : Prop := ∃ u, exec c s = .next u ∧ P u

/-- The command answers a next state, in which engine e stands to its former self as P says. -/
def Yields (c : Instr) (s : State) (e : Nat) (P : Engine → Engine → Prop) : Prop :=
  ∃ t, exec c s = .next t ∧ P (engAt s e) (engAt t e)

/-- The fields of a move command, on its side (R212). -/
def moveField (op reg sh : Nat) (m : MoveArgs) : MoveF := ⟨op, m.ptr.toNat, m.mod.toNat, m.msel.toNat, reg, sh⟩

/-- The fields of the instruction around one move. -/
def moveIns (op reg sh : Nat) (m : MoveArgs) (o : Around) : EIns :=
  if m.isY then .par o.aop.toNat o.ad.toNat o.s1.toNat o.s2.toNat (moveOf o.other.toNat) (moveField op reg sh m)
  else .par o.aop.toNat o.ad.toNat o.s1.toNat o.s2.toNat (moveField op reg sh m) (moveOf o.other.toNat)

/-- The fields of a wide transfer. -/
def wideIns (reg : Nat) (a : WideArgs) : EIns :=
  .par a.aop.toNat a.ad.toNat a.s1.toNat a.s2.toNat ⟨6, a.xptr.toNat, a.xmod.toNat, a.xmsel.toNat, reg, 0⟩
    ⟨6, a.yptr.toNat, a.ymod.toNat, a.ymsel.toNat, reg, 0⟩

/-- R209, R212 to R219: the fields that an instruction command stands for. -/
def engFields : Instr → Option EIns
  | .nop _ x y => some (.par 0 0 0 0 (moveOf x.toNat) (moveOf y.toNat))
  | .mpy _ p => some (.par 1 p.ad.toNat p.s1.toNat p.s2.toNat (moveOf p.x.toNat) (moveOf p.y.toNat))
  | .mac _ p => some (.par 2 p.ad.toNat p.s1.toNat p.s2.toNat (moveOf p.x.toNat) (moveOf p.y.toNat))
  | .msu _ p => some (.par 3 p.ad.toNat p.s1.toNat p.s2.toNat (moveOf p.x.toNat) (moveOf p.y.toNat))
  | .clr _ p => some (.par 4 p.ad.toNat 0 0 (moveOf p.x.toNat) (moveOf p.y.toNat))
  | .adda _ m p => some (.par 5 p.ad.toNat m.toNat 0 (moveOf p.x.toNat) (moveOf p.y.toNat))
  | .suba _ m p => some (.par 6 p.ad.toNat m.toNat 0 (moveOf p.x.toNat) (moveOf p.y.toNat))
  | .nega _ p => some (.par 7 p.ad.toNat 0 0 (moveOf p.x.toNat) (moveOf p.y.toNat))
  | .absa _ p => some (.par 8 p.ad.toNat 0 0 (moveOf p.x.toNat) (moveOf p.y.toNat))
  | .shla _ k p => some (.par 9 p.ad.toNat k.toNat 0 (moveOf p.x.toNat) (moveOf p.y.toNat))
  | .shra _ k p => some (.par 10 p.ad.toNat k.toNat 0 (moveOf p.x.toNat) (moveOf p.y.toNat))
  | .rnda _ p => some (.par 11 p.ad.toNat 0 0 (moveOf p.x.toNat) (moveOf p.y.toNat))
  | .addd _ d p => some (.par 12 p.ad.toNat d.toNat 0 (moveOf p.x.toNat) (moveOf p.y.toNat))
  | .subd _ d p => some (.par 13 p.ad.toNat d.toNat 0 (moveOf p.x.toNat) (moveOf p.y.toNat))
  | .ldd _ d p => some (.par 14 p.ad.toNat d.toNat 0 (moveOf p.x.toNat) (moveOf p.y.toNat))
  | .cmpa _ m p => some (.par 15 p.ad.toNat m.toNat 0 (moveOf p.x.toNat) (moveOf p.y.toNat))
  | .tsta _ p => some (.par 16 p.ad.toNat 0 0 (moveOf p.x.toNat) (moveOf p.y.toNat))
  | .maxa _ m p => some (.par 17 p.ad.toNat m.toNat 0 (moveOf p.x.toNat) (moveOf p.y.toNat))
  | .mina _ m p => some (.par 18 p.ad.toNat m.toNat 0 (moveOf p.x.toNat) (moveOf p.y.toNat))
  | .sela _ m c p => some (.par 19 p.ad.toNat m.toNat c.toNat (moveOf p.x.toNat) (moveOf p.y.toNat))
  | .ld _ m reg o => some (moveIns 1 reg.toNat 0 m o)
  | .st _ m reg o => some (moveIns 2 reg.toNat 0 m o)
  | .sta _ m acc sh o => some (moveIns 3 acc.toNat sh.toNat m o)
  | .lda _ m acc o => some (moveIns 4 acc.toNat 0 m o)
  | .ldp _ m ptr o => some (moveIns 5 ptr.toNat 0 m o)
  | .wideStore _ acc a => some (wideIns acc.toNat a)
  | .wideLoad _ acc a => some (wideIns (8 + acc.toNat) a)
  | .brd _ bus reg x y => some (.bus 0 bus.toNat reg.toNat (moveOf x.toNat) (moveOf y.toNat))
  | .bwr _ bus reg x y => some (.bus 1 bus.toNat reg.toNat (moveOf x.toNat) (moveOf y.toNat))
  | .bwra _ bus acc sh x y => some (.bus 2 bus.toNat (acc.toNat + 4 * sh.toNat) (moveOf x.toNat) (moveOf y.toNat))
  | .trd _ tap reg x y => some (.bus 3 tap.toNat reg.toNat (moveOf x.toNat) (moveOf y.toNat))
  | .twr _ line reg x y => some (.bus 4 line.toNat reg.toNat (moveOf x.toNat) (moveOf y.toNat))
  | .mov _ dst src => some (.reg 0 dst.toNat src.toNat 0)
  | .movi _ dst imm => some (.reg 1 dst.toNat 0 imm.toNat)
  | .modp _ p imm => some (.reg 2 (0x18 + p.toNat) 0 imm.toNat)
  | .add _ d r => some (.reg 3 d.toNat r.toNat 0)
  | .sub _ d r => some (.reg 4 d.toNat r.toNat 0)
  | .addi _ d imm => some (.reg 5 d.toNat 0 imm.toNat)
  | .andi _ d imm => some (.reg 6 d.toNat 0 imm.toNat)
  | .ori _ d imm => some (.reg 7 d.toNat 0 imm.toNat)
  | .xori _ d imm => some (.reg 8 d.toNat 0 imm.toNat)
  | .shl _ d n => some (.reg 9 d.toNat 0 n.toNat)
  | .shr _ d n => some (.reg 10 d.toNat 0 n.toNat)
  | .asr _ d n => some (.reg 11 d.toNat 0 n.toNat)
  | .cmpd _ d r => some (.reg 12 d.toNat r.toNat 0)
  | .cmpdi _ d imm => some (.reg 13 d.toNat 0 imm.toNat)
  | .rep _ n => some (.ctl 0 0 0 0 n.toNat)
  | .repr _ d => some (.ctl 1 d.toNat 0 0 0)
  | .loop _ addr n => some (.ctl 2 0 0 addr.toNat n.toNat)
  | .loopr _ d addr => some (.ctl 3 d.toNat 0 addr.toNat 0)
  | .lsave _ => some (.ctl 4 0 0 0 0)
  | .lrest _ => some (.ctl 5 0 0 0 0)
  | .end_ _ => some (.ctl 6 0 0 0 0)
  | .tend _ => some (.ctl 7 0 0 0 0)
  | .br _ cond addr => some (.ctl 8 0 cond.toNat addr.toNat 0)
  | _ => none

/-- The registers that an instruction writes of its own: D as n, A as 16 + n, P as 32 + n (R207). -/
def insWrites : EIns → List Nat
  | .par aop ad _ _ x y => (if aopWrites aop then [16 + ad] else []) ++ moveDests x ++ moveDests y ++ wideDests x y
  | .bus bop _ reg x y => (if bop = 0 ∨ bop = 3 then [reg] else []) ++ moveDests x ++ moveDests y ++ wideDests x y
  | .reg rop dst _ _ =>
    if rop ≤ 2 then (if dst < 0x14 then [dst] else if 0x18 ≤ dst ∧ dst < 0x20 then [dst + 8] else []) else if rop ≤ 11 then [dst] else []
  | .ctl _ _ _ _ _ => []

/-- The pointers through which an instruction makes an access. -/
def insPtrs : EIns → List Nat
  | .par _ _ _ _ x y => (if x.op = 0 then [] else [x.ptr]) ++ (if y.op = 0 then [] else [y.ptr + 4])
  | .bus _ _ _ x y => (if x.op = 0 then [] else [x.ptr]) ++ (if y.op = 0 then [] else [y.ptr + 4])
  | _ => []

/-- Whether a move field stores to memory: ST, STA or a wide store. -/
def moveStores (m : MoveF) : Bool := m.op == 2 || m.op == 3 || (m.op == 6 && decide (m.reg < 8))

/-- The X address and the Y address that an instruction stores to. -/
def insStoreX (g : Engine) : EIns → Option Nat
  | .par _ _ _ _ x _ => if moveStores x then some (g.bank.pN x.ptr).toNat else none
  | .bus _ _ _ x _ => if moveStores x then some (g.bank.pN x.ptr).toNat else none
  | _ => none
def insStoreY (g : Engine) : EIns → Option Nat
  | .par _ _ _ _ _ y => if moveStores y then some (g.bank.pN (y.ptr + 4)).toNat else none
  | .bus _ _ _ _ y => if moveStores y then some (g.bank.pN (y.ptr + 4)).toNat else none
  | _ => none

/-- A compare or a test, or a move into ST: what may write N and Z. -/
def writesNZ : EIns → Bool
  | .par aop _ _ _ _ _ => aop == 0x0F || aop == 0x10
  | .reg rop dst _ _ => rop == 12 || rop == 13 || (decide (rop ≤ 1) && dst == 0x3C)
  | _ => false

/-! ## Frames and ticks -/

/-- R238, R249 to R251: a tick at t that the source of the ticks gives, and that is neither a glitch, nor late (it is seen two
cycles after it enters the synchroniser), nor at the wrong rate after the last accepted tick. -/
def goodTick (t : Nat) (s : State) : Prop :=
  tickReal s s.clocks.src t = true ∧
    ∀ a, s.clocks.acc = some a → a + glitchTime (rateOf s).cycles ≤ t ∧ t + 2 < a + expiryTime (rateOf s).cycles ∧
      consistent (rateOf s).cycles (t - a) = true

/-- R34: the number of the next frame of a running period. -/
def nextFrame (s : State) : Nat := if s.frame.ran then s.frame.cnt + 1 else s.frame.start

/-- R251: the backup domain that a first expiry of the running period switches to, where one is named and qualified. -/
def switchTo (s : State) : Option Nat :=
  match s.hood with
  | some h => (match h.clocks.backup with | some b => if s.clocks.switched = false ∧ 16 ≤ (domAt s b).run then some b else none | none => none)
  | none => none

/-- R33, R45: frame f has started at the tick at t: it is the current frame, and the pending store holds no event that is
due and was not deferred. -/
def FrameBegun (s u : State) (t f : Nat) : Prop :=
  u.frame = { cnt := f, start := s.frame.start, first := if s.frame.ran then s.frame.first else f, ran := true, open_ := true, tickAt := t } ∧
    (∀ e ∈ u.carder.store, f < e.eff ∨ e.deferred = true) ∧ u.carder.applied ≤ (rateOf s).events

/-! ## Events -/

/-- R39: the source, opcode and operands of an event command. -/
def evCmd : Instr → Option (Source × Nat × EvArgs)
  | .noteStart src a => some (src, 0x01, a)
  | .noteRelease src a => some (src, 0x02, a)
  | .noteKill src a => some (src, 0x03, a)
  | .voiceSet src a => some (src, 0x04, a)
  | .groupSet src a => some (src, 0x05, a)
  | .placeSet src a => some (src, 0x06, a)
  | .tempo src a => some (src, 0x07, a)
  | .fulSet src a => some (src, 0x08, a)
  | .bankSwap src a => some (src, 0x09, a)
  | .xfStart src a => some (src, 0x0A, a)
  | .xfFinish src a => some (src, 0x0B, a)
  | .delaySet src a => some (src, 0x0C, a)
  | .cvSet src a => some (src, 0x0D, a)
  | .regionEnable src a => some (src, 0x0E, a)
  | .commit src a => some (src, 0x0F, a)
  | .commitDrop src a => some (src, 0x10, a)
  | .mark src a => some (src, 0x11, a)
  | .reservedOpcode src op a => some (src, op.toNat, a)
  | _ => none

/-- R40: the state that meets an offer made now: the carder has taken first what it could of what was offered before. The
entries of the link do not wait for that (R278). -/
def atOffer (s : State) (src : Source) : State := if src = .twin then s else pump s

/-- R40, R277: the carder takes an offer of the source now: it is accepting, and no earlier offer of the source waits. -/
def takesNow (s : State) (src : Source) : Prop := src = .twin ∨ (ownOpen s (acceptAt s s.now) = true ∧ waits s src = false)

/-- R46: the effective stamp of a record, and whether it is reported late. -/
def Stamped (s : State) (r : EvRec) (eff : Nat) (late : Bool) : Prop :=
  let o := openWindow s
  if evNow r = true then eff = o ∧ late = false
  else if streamStart s r = true ∧ evStamp r < o + 2 then eff = o + 2 ∧ late = true
  else if evStamp r < o then eff = o ∧ late = true
  else eff = evStamp r ∧ late = false

/-- R54: the REPLY ring of a source. -/
def replyRing (s : State) (src : Source) : Option Nat :=
  s.hood.bind fun h => (h.rings.reply.find? fun x => x.1 == src).map (·.2)

/-! ## Accesses of the two ports -/

/-- R298, R304, R313: u is s after a refused write of a port: the record in HOST_ERR, the write latch of that port emptied, the
page on HPAGE for the host port, and for the SPI port the mark of a refusal; nothing else. -/
def RefusalIn (s u : State) (p : Port) (page base : Nat) (e : Err) : Prop :=
  u = { s with host := { s.host with
    errCount := satInc 255 s.host.errCount, errPort := p, errCode := e.code, errPage := page, errOff := base
    spiRefused := s.host.spiRefused || p == .spi
    hpage := if p = .host then page else s.host.hpage
    hostPort := if p = .host then { s.host.hostPort with wr := none } else s.host.hostPort
    spiPort := if p = .spi then { s.host.spiPort with wr := none } else s.host.spiPort } }

/-- R304: the command is a write by a port that is refused with a code. -/
def Refuses (c : Instr) (s : State) (p : Port) (page base : Nat) (e : Err) : Prop := Does c s fun u => RefusalIn s u p page base e

/-- R407, R74: accesses are performed, and no blocking is under way. -/
def State.accessible (s : State) : Prop := s.mode.mode ≠ .reset ∧ s.mode.mode ≠ .sleep ∧ s.mode.mode ≠ .load

/-- R76: what a verdict of pass 1 says: one proposition for a wait, one for a failure, one for a pass. -/
def Verdict.Says (v : Verdict) (wait pass : Prop) (fail : Err → Nat → Nat → Prop) : Prop :=
  match v with
  | .wait => wait
  | .pass => pass
  | .fail e k o => fail e k o

/-! ## Ilukin messages -/

/-- R336, R338: m is the oldest request that waits at firmware on channel c, and the channel's outbound mailbox is free. -/
def Asked (s : State) (c : Nat) (m : Words) : Prop :=
  fwServes s = true ∧ (fwReqs s c).head? = some m ∧ fwOuts s c = [] ∧ (mbxAt s c).outfull = false

/-- R337, R338: request m of channel c has been answered with a code and with arguments from word 2 on: KIND 2, SERVICE, FUNC
and SEQ as in the request; the request waits no more. -/
def Replied (s u : State) (c : Nat) (m : Words) (e : Err) (args : List Nat) : Prop :=
  (mbxAt u c).outfull = true ∧ (mbxAt u c).oseq = ((mbxAt s c).oseq + 1) % 256 ∧ fwReqs u c = (fwReqs s c).drop 1 ∧
    (mbxAt u c).outw.map (·.toNat) =
      (0x20000000 + (m.getD 0 0).toNat % 2 ^ 24) :: e.code * 2 ^ 24 :: (List.range 6).map fun i => args.getD i 0 % 2 ^ 32

/-- R337: a request message: SERVICE, FUNC, SEQ, and arguments from word 2 on. -/
def request (service func : Nat) (seq : Byte) (args : List Word) : Words :=
  [BitVec.ofNat 32 (0x10000000 + service * 2 ^ 16 + func * 2 ^ 8 + seq.toNat), 0] ++ (List.range 6).map fun i => args.getD i 0

end Sys2Proof.Machine
end

