-- ==== Sys2Proof/WellFormed.lean ====
section
/-! DEFINITION. Commands whose operands name something: what the operand types alone do not rule out. -/

namespace Sys2Proof

open Sys2Proof.Machine

/-- R38, R40: sources of events: rings 0 to 63, control cores 0 to 3, timers 0 to 7. -/
def sourceWf : Source → Bool
  | .ring r => decide (r < 64)
  | .core k => decide (k < 4)
  | .timer t => decide (t < 8)
  | .spi => true
  | .twin => true

/-- R201: a FUL_FLT code has four bits. -/
def engAtWf (g : EngAt) : Bool := decide (g.perr < 16)

/-- R201: an engine's parity error has a FUL_FLT code. -/
def frameErrWf : FrameErr → Bool
  | .engine _ _ code => decide (code < 16)
  | _ => true

/-- A record, message or command of eight words (R38, R278, R331, R341). -/
def recordWf (w : Words) : Bool := w.length == 8

/-- A SHA-256 digest has 32 bytes. -/
def digestWf (d : List Byte) : Bool := d.length == 32

/-- R394: the monitoring converter has slots 0 to 19; R340: the scheduler serves cores 0 to 19. -/
def twentyWf (k : Nat) : Bool := decide (k < 20)

/-- R38, R43: an opcode byte outside 0x01 to 0x11 is reserved. -/
def reservedOpWf (op : BitVec 8) : Bool := op == 0 || decide (0x11 < op.toNat)

/-- The engine that an instruction command names, if the command is one. -/
def engOf : Instr → Option EngAt
  | .reservedInstruction g _ | .nop g _ _ | .mpy g _ | .mac g _ | .msu g _ | .clr g _ | .adda g _ _ | .suba g _ _
  | .nega g _ | .absa g _ | .shla g _ _ | .shra g _ _ | .rnda g _ | .addd g _ _ | .subd g _ _ | .ldd g _ _
  | .cmpa g _ _ | .tsta g _ | .maxa g _ _ | .mina g _ _ | .sela g _ _ _ | .ld g _ _ _ | .st g _ _ _ | .sta g _ _ _ _
  | .lda g _ _ _ | .ldp g _ _ _ | .wideStore g _ _ | .wideLoad g _ _ | .brd g _ _ _ _ | .bwr g _ _ _ _
  | .bwra g _ _ _ _ _ | .trd g _ _ _ _ | .twr g _ _ _ _ | .mov g _ _ | .movi g _ _ | .modp g _ _ | .add g _ _
  | .sub g _ _ | .addi g _ _ | .andi g _ _ | .ori g _ _ | .xori g _ _ | .shl g _ _ | .shr g _ _ | .asr g _ _
  | .cmpd g _ _ | .cmpdi g _ _ | .rep g _ | .repr g _ | .loop g _ _ | .loopr g _ _ | .lsave g | .lrest g | .end_ g
  | .tend g | .br g _ _ => some g
  | _ => none

/-- The source and operands of an event command, if the command is one. -/
def eventOf : Instr → Option (Source × EvArgs)
  | .noteStart s a | .noteRelease s a | .noteKill s a | .voiceSet s a | .groupSet s a | .placeSet s a | .tempo s a
  | .fulSet s a | .bankSwap s a | .xfStart s a | .xfFinish s a | .delaySet s a | .cvSet s a | .regionEnable s a
  | .commit s a | .commitDrop s a | .mark s a | .reservedOpcode s _ a => some (s, a)
  | _ => none

/-- A command whose operands all name something. -/
def Instr.wf (i : Instr) : Bool :=
  (match engOf i with | some g => engAtWf g | none => true) &&
  (match eventOf i with | some x => sourceWf x.1 | none => true) &&
  (match i with
   | .masterTick _ errs => errs.all frameErrWf
   | .reservedOpcode _ op _ => reservedOpWf op
   | .monitorSlot k _ _ => twentyWf k
   | .prefetchSlotFill k => twentyWf k
   | .taskDispatch k _ => twentyWf k
   | .taskEnd k _ _ => twentyWf k
   | .taskReady c => recordWf c.w
   | .taskCancel c => recordWf c.w
   | .taskDelay c => recordWf c.w
   | .linkEntry r => recordWf r
   | .outboundSend _ m _ => recordWf m
   | .ownerLock _ d => digestWf d
   | .pairingChecks p => digestWf p.digest
   | _ => true)

end Sys2Proof
end

