-- ==== Sys2Proof/Certificates/Slice0/Obligations.lean ====
section
/-! DEFINITION. The statements for the provers: what the commands of the block, its units and its invariant do. -/

section
open Sys2Proof Sys2Proof.Machine

/-- A step runs the command at the front of the queue (model choice: log entry 5). A step of a state with command c in
front of its queue is exec of c on the state with the rest of the queue; on an empty queue the block idles and the
state stays. The queue, and idling on an empty one, are the model's own (log entry 5). Rests on: What each step holds.
-/
def Obligations.StepRunsFront : Prop :=
  ∀ (c : Instr) (s : State),
    step { s with pending := c :: s.pending } = exec c s ∧ (s.pending = [] → step s = .next s)

/-- Every well-formed command completes; only a slot or core number that names nothing stops. Every well-formed
command answers a next state in every state. MONITOR_SLOT, PREFETCH_SLOT_FILL, TASK_DISPATCH and TASK_END with a
number of 20 or more, which names no converter slot and no core, end in the fault illFormed (log entry 70). Rests on:
What each step holds; Control-Voltage Outputs, Monitoring; Rings, Mailboxes and the Task Scheduler, The task
scheduler. -/
def Obligations.OnlyUnitsStop : Prop :=
  ∀ (c : Instr) (s : State) (k t : Nat) (r : BitVec 12) (f : Bool),
    (c.wf = true → Does c s fun _ => True) ∧
    (20 ≤ k → (∃ m, exec (.monitorSlot k r t) s = .fault (.illFormed m)) ∧ (∃ m, exec (.prefetchSlotFill k) s = .fault (.illFormed m)) ∧
      (∃ m, exec (.taskDispatch k t) s = .fault (.illFormed m)) ∧ ∃ m, exec (.taskEnd k f t) s = .fault (.illFormed m))

/-- No command changes the variant or the queue, moves time back or unblows a fuse. Whenever a command answers a next
state, the variant and the queue are unchanged, the time is no earlier, and fuses are only ever blown: a locked owner
digest stays, the epoch never falls, a blown polarity fuse stays blown. Rests on: The Structure Image and Blocking,
Owner lock; Firmware Update and Handover, Version floors; Control-Voltage Outputs, Spans and codes. -/
def Obligations.ExecKeeps : Prop :=
  ∀ (c : Instr) (s u : State), exec c s = .next u →
    u.part = s.part ∧ u.pending = s.pending ∧ s.now ≤ u.now ∧ s.fuses.onlyBlown u.fuses

/-- The invariant holds at reset, and every register then reads the reset value that the spec lists. The invariant Inv
(canonical memories, units in their number, bounded pending store and fault log) holds at State.reset. Every register
of the spec's tables, for each of its indices, is at its place in the register map and reads its listed reset value,
or, for the status registers that the end of the power-on sequence has already set (log entry 6), the value of that
moment. The Derku is in LOADER with no hood, no held event, no log entry and no voice. Rests on: Host Port and
Registers, Registers; Power, Reset, Modes and Faults, Resets; Scope, Variants and Conventions, Notation. -/
def Obligations.ResetState : Prop :=
  (Inv State.reset) ∧
  (let reads := fun (page off v : Nat) => (regFind page off).map (fun x => regVal State.reset x.reg) = some v
  let s := State.reset
  (∀ x ∈ ([
     (0, 0x0000, 0x0, 1, 0x57560880), (0, 0x0002, 0x0, 1, 0x100), (0, 0x0004, 0x0, 1, 0x1), (0, 0x0006, 0x0, 1, 0xFFFF0FFF),
     (0, 0x0008, 0x0, 1, 0x80FFFFFF), (0, 0x000A, 0x0, 1, 0xFFFFFFFF), (0, 0x0010, 0x0, 1, 0), (0, 0x0014, 0x0, 1, 0), (0, 0x0016, 0x0, 1, 0),
     (0, 0x0018, 0x2, 2, 0), (0, 0x001C, 0x0, 1, 0), (0, 0x0040, 0x0, 1, 0), (0, 0x0044, 0x0, 1, 0), (0, 0x0048, 0x0, 1, 0), (0, 0x004A, 0x0, 1, 0),
     (0, 0x004C, 0x0, 1, 0), (0, 0x004E, 0x0, 1, 0), (0, 0x0060, 0x0, 1, 0), (0, 0x0062, 0x0, 1, 0), (0, 0x0064, 0x0, 1, 0x400),
     (0, 0x0066, 0x0, 1, 0), (0, 0x0068, 0x0, 1, 0), (0, 0x006A, 0x0, 1, 0), (0, 0x0100, 0x40, 8, 0), (0, 0x0102, 0x40, 8, 0), (0, 0x0104, 0x40, 8, 0),
     (0, 0x0400, 0x8, 64, 0), (0, 0x0402, 0x8, 64, 0x1B21), (0, 0x0404, 0x8, 64, 0), (0, 0x0406, 0x8, 64, 0), (0, 0x0600, 0x2, 8, 0),
     (0, 0x0610, 0x2, 8, 0), (0, 0x0620, 0x2, 8, 0), (0, 0x0630, 0x0, 1, 0), (0, 0x0650, 0x2, 8, 0), (0, 0x0700, 0x2, 64, 0), (0, 0x0780, 0x2, 16, 0),
     (0, 0x07A0, 0x2, 16, 0), (0, 0x07C0, 0x2, 16, 0), (0, 0x07E0, 0x2, 16, 0), (0, 0x0800, 0x0, 1, 0), (0, 0x0810, 0x2, 8, 0),
     (0, 0x0900, 0x2, 16, 0), (0, 0x0920, 0x2, 16, 0), (0, 0x0940, 0x2, 16, 0), (0, 0x0960, 0x2, 16, 0), (0, 0x0980, 0x2, 16, 0),
     (0, 0x09A0, 0x2, 16, 0), (0, 0x09C0, 0x2, 16, 0), (0, 0x09E0, 0x2, 16, 0), (0, 0x0A00, 0x2, 128, 0), (0, 0x0B00, 0x2, 256, 0),
     (0, 0x0D00, 0x0, 1, 0), (0, 0x0E00, 0x0, 1, 0), (0, 0x0E02, 0x0, 1, 0), (0, 0x0E04, 0x0, 1, 0), (0, 0x0E10, 0x2, 4, 0), (0, 0x0E20, 0x2, 8, 0),
     (0, 0x0E30, 0x2, 8, 0), (0, 0x0E40, 0x2, 8, 0), (0, 0x0E50, 0x2, 4, 0), (0, 0x0E58, 0x2, 4, 0), (0, 0x0E60, 0x0, 1, 0), (0, 0x0E62, 0x2, 4, 0),
     (0, 0x0E70, 0x2, 4, 0), (0, 0x0E78, 0x2, 4, 0), (0, 0x0E80, 0x2, 4, 0), (0, 0x1080, 0x2, 4, 0), (0, 0x1088, 0x2, 4, 0), (0, 0x1090, 0x2, 4, 0),
     (0, 0x1098, 0x2, 4, 0), (0, 0x10A0, 0x0, 1, 0), (0, 0x10A2, 0x0, 1, 0), (0, 0x10A4, 0x0, 1, 0), (0, 0x1100, 0x0, 1, 0), (0, 0x1102, 0x0, 1, 0),
     (0, 0x1104, 0x0, 1, 0), (0, 0x1106, 0x0, 1, 0), (0, 0x1108, 0x0, 1, 0), (0, 0x110A, 0x0, 1, 0), (0, 0x1200, 0x0, 1, 0x64), (0, 0x1202, 0x0, 1, 0),
     (0, 0x1204, 0x0, 1, 0), (0, 0x1210, 0x2, 32, 0), (0, 0x1260, 0x2, 20, 0), (0, 0x1290, 0x0, 1, 0), (0, 0x1294, 0x0, 1, 0), (0, 0x1298, 0x0, 1, 0),
     (0, 0x1400, 0x20, 8, 0), (0, 0x1402, 0x20, 8, 0x10000), (0, 0x1404, 0x20, 8, 0), (0, 0x1406, 0x20, 8, 0xFFFFFFFF), (0, 0x1408, 0x20, 8, 0),
     (0, 0x140A, 0x20, 8, 0x1), (0, 0x140C, 0x20, 8, 0), (0, 0x140E, 0x20, 8, 0), (0, 0x1410, 0x20, 8, 0), (0, 0x1500, 0x0, 1, 0),
     (0, 0x1520, 0x20, 4, 0xC010040), (0, 0x1522, 0x20, 4, 0x624DD2F), (0, 0x1524, 0x20, 4, 0x2C1000), (0, 0x1526, 0x20, 4, 0x1000),
     (0, 0x1528, 0x20, 4, 0), (0, 0x152A, 0x20, 4, 0), (0, 0x152B, 0x20, 4, 0), (0, 0x1600, 0x2, 16, 0), (0, 0x1620, 0x2, 16, 0),
     (0, 0x1640, 0x4, 16, 0), (0, 0x1680, 0x1, 20, 0), (0, 0x16A0, 0x0, 1, 0xFFFF0000), (0, 0x16A2, 0x0, 1, 0), (0, 0x16E0, 0x0, 1, 0),
     (0, 0x1702, 0x0, 1, 0), (0, 0x1704, 0x0, 1, 0), (0, 0x1706, 0x0, 1, 0), (0, 0x1708, 0x0, 1, 0), (0, 0x170C, 0x0, 1, 0), (0, 0x1710, 0x0, 1, 0),
     (0, 0x1714, 0x0, 1, 0), (0, 0x1716, 0x0, 1, 0), (0, 0x1718, 0x0, 1, 0x8C0), (0, 0x1800, 0x0, 1, 0), (0, 0x1802, 0x0, 1, 0),
     (0, 0x1804, 0x0, 1, 0), (0, 0x1806, 0x0, 1, 0), (0, 0x1808, 0x0, 1, 0), (0, 0xFFFF, 0x0, 1, 0), (3, 0x8000, 0x8, 64, 0), (3, 0x8002, 0x8, 64, 0),
     (3, 0x8003, 0x8, 64, 0), (3, 0x8004, 0x8, 64, 0x1), (3, 0x8006, 0x8, 64, 0), (3, 0x8420, 0x40, 16, 0), (3, 0x8422, 0x40, 16, 0)] :
      List (Nat × Nat × Nat × Nat × Nat)), ∀ i, i < x.2.2.2.1 → reads x.1 (x.2.1 + x.2.2.1 * i) x.2.2.2.2) ∧
  (∀ x ∈ ([
     (0, 0x0120, 0x40, 8, 2, 16), (0, 0x0F00, 0x20, 4, 2, 12), (0, 0x1000, 0x10, 4, 2, 6), (3, 0x8400, 0x40, 16, 2, 8), (3, 0x8410, 0x40, 16, 2, 8)] :
      List (Nat × Nat × Nat × Nat × Nat × Nat)), ∀ i, i < x.2.2.2.1 → ∀ j, j < x.2.2.2.2.2 → reads x.1 (x.2.1 + x.2.2.1 * i + x.2.2.2.2.1 * j) 0) ∧
  s.mode.mode = .loader ∧ s.pending = [] ∧ s.hood = none ∧ s.carder.store = [] ∧ s.flt.log = [] ∧ s.slots = [])

/-- Every step keeps the invariant, from every state that meets it. For every state that meets Inv, whether or not a
run reaches it, a step that answers a next state answers one that meets Inv: the DRAM, ring memory and flash keep
their canonical form, every list of units and registers keeps its length, the pending store holds at most 4096 events
and the fault log at most sixteen entries. Rests on: Frames, Events and Determinism, Acceptance and order; Power,
Reset, Modes and Faults, The fault log; Fuller Engine Execution, Registers. -/
def Obligations.StepKeepsInv : Prop :=
  ∀ (s u : State), Inv s → step s = .next u → Inv u

/-- Every instruction command builds a 64-bit word that decodes to its own fields. For each of the 56 instruction
commands and every value of its operands, the word that the command issues fits in 64 bits, and reading the four
instruction formats from that word gives back exactly the fields of the command: no operand bit is dropped or moved.
Rests on: Fuller Engine Instruction Set, The instruction word; Fuller Engine Instruction Set, Parallel instructions;
Fuller Engine Instruction Set, Move fields. -/
def Obligations.EngineWords : Prop :=
  ∀ (c : Instr) (f : EIns), engFields c = some f → ∃ g w, engWord c = some (g, w) ∧ w < 2 ^ 64 ∧ insOf w = f

/-- What each accumulator operation leaves: products, sums, shifts, comparisons and the pin. When it can issue, MPY
places the exact product and clears the pin; MAC, MSU, ADDA, SUBA, NEGA, ABSA, SHLA, RNDA, ADDD and SUBD leave a
pinned accumulator and its pin alone and otherwise add, subtract, negate, shift or round exactly, saturating at 72
bits with the pin and AV set where the exact value does not fit; SHRA shifts right unless pinned; CLR, LDD, MAXA, MINA
and a SELA that writes place their value and clear the pin, as do LDA, a wide load, MOV and MOVI into the accumulator;
CMPA, TSTA, CMPD and CMPDI set N and Z from the exact difference or value. An accumulator read as Am, or compared, is
its stored value, pinned or not. MAC and MSU add to the value in force; the other operations read accumulators and
pins as the instruction before the last left them. Formalises R210. -/
def Obligations.EngineAccumulators : Prop :=
  (∀ (s : State) (g : EngAt) (p : ParArgs), s.shape = unitCounts →
    let e := g.e.toNat
    let n := p.ad.toNat
    let prod := fun (x : Engine) => (x.bank.dN p.s1.toNat).toInt * (x.bank.dN p.s2.toNat).toInt
    (canIssue (.mpy g p) s → Yields (.mpy g p) s e fun x y => y.bank.aN n = prod x ∧ y.pinned n = false) ∧
    (canIssue (.mac g p) s → Yields (.mac g p) s e fun x y =>
      if x.pinned n then AccKept x y n else AccTakes x y n (x.bank.aN n + prod x)) ∧
    (canIssue (.msu g p) s → Yields (.msu g p) s e fun x y =>
      if x.pinned n then AccKept x y n else AccTakes x y n (x.bank.aN n - prod x))) ∧
  (∀ (s : State) (g : EngAt) (p : AccArgs) (m : BitVec 2) (k d : BitVec 4), s.shape = unitCounts →
    let n := p.ad.toNat
    let gives := fun (c : Instr) (v : Engine → Int) =>
      canIssue c s → Yields c s g.e.toNat fun x y => if x.oldPin n then AccKept x y n else AccTakes x y n (v x)
    gives (.adda g m p) (fun x => x.oldAcc n + x.oldAcc m.toNat) ∧
    gives (.suba g m p) (fun x => x.oldAcc n - x.oldAcc m.toNat) ∧
    gives (.nega g p) (fun x => - x.oldAcc n) ∧
    gives (.absa g p) (fun x => if x.oldAcc n < 0 then - x.oldAcc n else x.oldAcc n) ∧
    gives (.shla g k p) (fun x => x.oldAcc n * 2 ^ k.toNat) ∧
    gives (.rnda g p) (fun x => (x.oldAcc n + 2 ^ 30) / 2 ^ 31 * 2 ^ 31) ∧
    gives (.addd g d p) (fun x => x.oldAcc n + (x.bank.dN d.toNat).toInt * 2 ^ 31) ∧
    gives (.subd g d p) (fun x => x.oldAcc n - (x.bank.dN d.toNat).toInt * 2 ^ 31)) ∧
  (∀ (s : State) (g : EngAt) (p : AccArgs) (m : BitVec 2) (k d c : BitVec 4), s.shape = unitCounts →
    let n := p.ad.toNat
    let sets := fun (i : Instr) (v : Engine → Int) =>
      canIssue i s → Yields i s g.e.toNat fun x y => y.bank.aN n = v x ∧ y.pinned n = false
    sets (.clr g p) (fun _ => 0) ∧
    sets (.ldd g d p) (fun x => (x.bank.dN d.toNat).toInt * 2 ^ 31) ∧
    sets (.maxa g m p) (fun x => max (x.oldAcc n) (x.oldAcc m.toNat)) ∧
    sets (.mina g m p) (fun x => min (x.oldAcc n) (x.oldAcc m.toNat)) ∧
    (canIssue (.sela g m c p) s → Yields (.sela g m c p) s g.e.toNat fun x y =>
      if condHolds x.stOld c.toNat then y.bank.aN n = x.oldAcc m.toNat ∧ y.pinned n = false else AccKept x y n) ∧
    (canIssue (.shra g k p) s → Yields (.shra g k p) s g.e.toNat fun x y =>
      if x.oldPin n then AccKept x y n else y.bank.aN n = x.oldAcc n / 2 ^ k.toNat ∧ y.pinned n = x.pinned n)) ∧
  (∀ (s : State) (g : EngAt) (p : AccArgs) (m : BitVec 2) (d r : BitVec 4) (imm : Word), s.shape = unitCounts →
    let tests := fun (i : Instr) (v : Engine → Int) =>
      canIssue i s → Yields i s g.e.toNat fun x y => stBit y.st stN = decide (v x < 0) ∧ stBit y.st stZ = decide (v x = 0)
    tests (.cmpa g m p) (fun x => x.oldAcc p.ad.toNat - x.oldAcc m.toNat) ∧
    tests (.tsta g p) (fun x => x.oldAcc p.ad.toNat) ∧
    tests (.cmpd g d r) (fun x => (x.bank.dN d.toNat).toInt - (x.bank.dN r.toNat).toInt) ∧
    tests (.cmpdi g d imm) (fun x => (x.bank.dN d.toNat).toInt - imm.toInt)) ∧
  (∀ (s : State) (g : EngAt) (m : MoveArgs) (a : BitVec 2) (o : Around) (w : WideArgs) (src : BitVec 8) (imm : Word), s.shape = unitCounts →
    let n := a.toNat
    let clears := fun (c : Instr) => canIssue c s → Yields c s g.e.toNat fun _ y => y.pinned n = false
    let dst := BitVec.ofNat 8 (0x10 + n)
    clears (.lda g m a o) ∧ clears (.wideLoad g a w) ∧ clears (.mov g dst src) ∧ clears (.movi g dst imm))

/-- Loads, stores and wide transfers: the word moved, the address, and the pointer afterwards. When it can issue: LD,
LDA and LDP give the register, accumulator (with its pin cleared) or pointer the word at the address in the pointer;
ST stores the data register there, STA the accumulator narrowed after the pre-shift, with SV set where it is clamped;
a wide load joins the X and Y words into an accumulator, and a wide store splits the accumulator, clamped to 64 bits,
into both. A store that the deterministic form discards leaves the word (R60). LD, ST, STA, LDA, LDP and the wide
transfers post-modify their pointers by 0, +1, -1 or the offset register, modulo 2^15, or modulo the buffer length
where L is not zero; MODP does so by its immediate. A move into the same pointer is excluded here: it stands (R186,
log entry 26). Rests on: Fuller Engine Instruction Set, Move fields; Fuller Engine Execution, Addressing; Fuller
Engine Execution, Arithmetic. -/
def Obligations.EngineTransfers : Prop :=
  (∀ (s : State) (g : EngAt) (m : MoveArgs) (reg : BitVec 4) (a : BitVec 2) (q : BitVec 3) (o : Around), s.shape = unitCounts →
    let word := fun (x : Engine) => if m.isY then x.yAt (m.ptr.toNat + 4) else x.xAt m.ptr.toNat
    (canIssue (.ld g m reg o) s → Yields (.ld g m reg o) s g.e.toNat fun x y => y.bank.dN reg.toNat = word x) ∧
    (canIssue (.lda g m a o) s → Yields (.lda g m a o) s g.e.toNat fun x y =>
      y.bank.aN a.toNat = (word x).toInt * 2 ^ 31 ∧ y.pinned a.toNat = false) ∧
    (canIssue (.ldp g m q o) s → Yields (.ldp g m q o) s g.e.toNat fun x y =>
      (y.landed.bank.pN q.toNat).toNat = (word x).toNat % 2 ^ 15)) ∧
  (∀ (s : State) (g : EngAt) (m : MoveArgs) (reg : BitVec 4) (a : BitVec 2) (sh : BitVec 3) (o : Around), s.shape = unitCounts →
    let holds := fun (x y : Engine) (v : Word) =>
      if m.isY then StoresY x y (detHood s) (x.bank.pN (m.ptr.toNat + 4)).toNat v else StoresX x y (detHood s) (x.bank.pN m.ptr.toNat).toNat v
    (canIssue (.st g m reg o) s → Yields (.st g m reg o) s g.e.toNat fun x y => holds x y (x.bank.dN reg.toNat)) ∧
    (canIssue (.sta g m a sh o) s → Yields (.sta g m a sh o) s g.e.toNat fun x y =>
      ∃ v, Narrows x y (x.oldAcc a.toNat) sh.toNat v ∧ holds x y v)) ∧
  (∀ (s : State) (g : EngAt) (n : BitVec 2) (a : WideArgs), s.shape = unitCounts →
    (canIssue (.wideLoad g n a) s → Yields (.wideLoad g n a) s g.e.toNat fun x y =>
      y.bank.aN n.toNat = (x.xAt a.xptr.toNat).toInt * 2 ^ 32 + (x.yAt (a.yptr.toNat + 4)).toNat ∧ y.pinned n.toNat = false) ∧
    (canIssue (.wideStore g n a) s → Yields (.wideStore g n a) s g.e.toNat fun x y =>
      let v := max (-2 ^ 63) (min (2 ^ 63 - 1) (x.oldAcc n.toNat))
      ∃ hi lo : Word, hi.toInt = v / 2 ^ 32 ∧ (lo.toNat : Int) = v % 2 ^ 32 ∧
        StoresX x y (detHood s) (x.bank.pN a.xptr.toNat).toNat hi ∧ StoresY x y (detHood s) (x.bank.pN (a.yptr.toNat + 4)).toNat lo ∧
        (v ≠ x.oldAcc n.toNat → stBit y.st stSV = true ∧ RecordsSv x y))) ∧
  (∀ (s : State) (g : EngAt) (m : MoveArgs) (reg : BitVec 4) (a : BitVec 2) (sh : BitVec 3) (o : Around) (q : BitVec 3) (imm : BitVec 16) (w : WideArgs),
    s.shape = unitCounts →
    let pn := if m.isY then m.ptr.toNat + 4 else m.ptr.toNat
    let moved := (moveDests (moveOf o.other.toNat)).contains (32 + pn)
    let by_ := fun (x : Engine) (mod : BitVec 2) (k : Nat) => if mod = 0 then (0 : Int) else if mod = 1 then 1 else if mod = 2 then -1
      else (x.bank.m.getD k 0).toInt
    let step := fun (x : Engine) => by_ x m.mod (if m.isY then m.msel.toNat + 4 else m.msel.toNat)
    let after := fun (x : Engine) (k : Nat) (i : Int) =>
      let p : Int := (x.bank.pN k).toNat
      let b : Int := (x.bank.b.getD k 0).toNat
      let l : Int := (x.bank.l.getD k 0).toNat
      if l = 0 then (p + i) % 2 ^ 15 else (b + ((p - b) % 2 ^ 15 + i) % l) % 2 ^ 15
    let both := fun (x y : Engine) =>
      ((y.landed.bank.pN w.xptr.toNat).toNat : Int) = after x w.xptr.toNat (by_ x w.xmod w.xmsel.toNat) ∧
      ((y.landed.bank.pN (w.yptr.toNat + 4)).toNat : Int) = after x (w.yptr.toNat + 4) (by_ x w.ymod (w.ymsel.toNat + 4))
    (canIssue (.ld g m reg o) s → moved = false →
      Yields (.ld g m reg o) s g.e.toNat fun x y => ((y.landed.bank.pN pn).toNat : Int) = after x pn (step x)) ∧
    (canIssue (.st g m reg o) s → moved = false →
      Yields (.st g m reg o) s g.e.toNat fun x y => ((y.landed.bank.pN pn).toNat : Int) = after x pn (step x)) ∧
    (canIssue (.modp g q imm) s →
      Yields (.modp g q imm) s g.e.toNat fun x y => ((y.landed.bank.pN q.toNat).toNat : Int) = after x q.toNat imm.toInt) ∧
    (canIssue (.sta g m a sh o) s → moved = false →
      Yields (.sta g m a sh o) s g.e.toNat fun x y => ((y.landed.bank.pN pn).toNat : Int) = after x pn (step x)) ∧
    (canIssue (.lda g m a o) s → moved = false →
      Yields (.lda g m a o) s g.e.toNat fun x y => ((y.landed.bank.pN pn).toNat : Int) = after x pn (step x)) ∧
    (canIssue (.ldp g m q o) s → moved = false → q.toNat ≠ pn →
      Yields (.ldp g m q o) s g.e.toNat fun x y => ((y.landed.bank.pN pn).toNat : Int) = after x pn (step x)) ∧
    (canIssue (.wideLoad g a w) s → Yields (.wideLoad g a w) s g.e.toNat both) ∧
    (canIssue (.wideStore g a w) s → Yields (.wideStore g a w) s g.e.toNat both))

/-- A background store into sample memory is discarded and counted with a deterministic hood. An ST issued by a
background task to Y, or to X below the region boundary, that shares its word with no other store sets
DET_STAT.BGWRITE and ends the applied form (latching the interrupt where VALID was 1). With a deterministic hood the
word is not written and the write-fault count rises, to at most 255; with another hood the word is written and the
count stays. Rests on: Frames, Events and Determinism, The determinism guarantee; Fuller Engine Execution, Memories.
-/
def Obligations.BackgroundWrites : Prop :=
  ∀ (s : State) (g : EngAt) (m : MoveArgs) (reg : BitVec 4) (o : Around), s.shape = unitCounts →
    let x := engAt s g.e.toNat
    let q := (x.bank.pN (if m.isY then m.ptr.toNat + 4 else m.ptr.toNat)).toNat
    canIssue (.st g m reg o) s → x.phase = .background → (m.isY = true ∨ q < x.xb) → moveStores (moveOf o.other.toNat) = false →
    ∃ t, exec (.st g m reg o) s = .next t ∧ t.det.bgwrite = true ∧ t.det.void_ = true ∧ (detValid s = true → bitAt t.host.intLatched 10 = true) ∧
      let y := engAt t g.e.toNat
      if detHood s then
        (y.wfault = if x.wfault < 255 then x.wfault + 1 else min 255 x.wfault) ∧
        Store.get 0 y.landed.x q = Store.get 0 x.landed.x q ∧ y.landed.yWord (x.yBank q) (q % 0x4000) = x.landed.yWord (x.yBank q) (q % 0x4000)
      else y.wfault = x.wfault ∧
        (if m.isY then y.landed.yWord (x.yBank q) (q % 0x4000) = x.bank.dN reg.toNat else Store.get 0 y.landed.x q = x.bank.dN reg.toNat)

/-- Bus reads and writes, and accesses to delay lines. When it can issue: BRD gives the register the bus value in
force; BWR and BWRA add the register, or the accumulator narrowed after the pre-shift (SV set where clamped), to that
bus's accumulator and to no other. TRD gives the line's sample of the effective delay where the engine owns the tap,
the sample has been written in this period and the fetch was neither late nor uncorrectable, else zero. TWR by the
owner becomes the line's sample of the frame; by another engine it changes no line and counts in DLY_STAT.WFAULT.
Rests on: Fuller Engine Instruction Set, Bus and delay streamer access; Coefficient Banks, Parameter Updates and Delay
Lines, Delay lines in DRAM; Modulation, Placement and Buses, Buses. -/
def Obligations.EngineBuses : Prop :=
  (∀ (s : State) (g : EngAt) (num : BitVec 9) (reg : BitVec 4) (a sh : BitVec 2) (xf yf : BitVec 23), s.shape = unitCounts →
    let x := engAt s g.e.toNat
    (canIssue (.brd g num reg xf yf) s → Yields (.brd g num reg xf yf) s g.e.toNat fun _ y =>
      y.bank.dN reg.toNat = BitVec.ofInt 32 (Store.get 0 s.bus.val num.toNat)) ∧
    (canIssue (.bwr g num reg xf yf) s → ∃ t, exec (.bwr g num reg xf yf) s = .next t ∧ ∀ b,
      Store.get 0 t.bus.acc b = Store.get 0 s.bus.acc b + (if b = num.toNat then (x.bank.dN reg.toNat).toInt else 0)) ∧
    (canIssue (.bwra g num a sh xf yf) s → ∃ t v, exec (.bwra g num a sh xf yf) s = .next t ∧
      Narrows x (engAt t g.e.toNat) (x.oldAcc a.toNat) sh.toNat v ∧ ∀ b,
        Store.get 0 t.bus.acc b = Store.get 0 s.bus.acc b + (if b = num.toNat then v.toInt else 0))) ∧
  (∀ (s : State) (g : EngAt) (num : BitVec 9) (reg : BitVec 4) (xf yf : BitVec 23) (tap : DlyTap) (ln : DlyLine), s.shape = unitCounts →
    let x := engAt s g.e.toNat
    let e := g.e.toNat
    let f := s.frame.cnt
    let ed := if tap.cur = 0 ∨ ln.cur < tap.cur then ln.cur else tap.cur
    (canIssue (.trd g num reg xf yf) s → Store.get none s.dly.taps num.toNat = some tap → Store.get none s.dly.lines tap.line = some ln →
      Yields (.trd g num reg xf yf) s e fun _ y => y.bank.dN reg.toNat =
        if tap.owner = e ∧ s.frame.first + ed ≤ f ∧ s.dly.lateTaps.contains num.toNat = false ∧
          s.dly.eccTaps.contains (num.toNat, (f - ed) / 16) = false
        then Store.get 0 s.dly.pre num.toNat else 0) ∧
    (canIssue (.twr g num reg xf yf) s → Store.get none s.dly.lines num.toNat = some ln → ∃ t, exec (.twr g num reg xf yf) s = .next t ∧
      if ln.owner = e then Store.get none t.dly.wr num.toNat = some (x.bank.dN reg.toNat)
      else t.dly.wr = s.dly.wr ∧ t.dly.wfault = if s.dly.wfault < 255 then s.dly.wfault + 1 else s.dly.wfault))

/-- Integer operations on data registers, and moves between registers. When it can issue, ADD, SUB, ADDI, ANDI, ORI,
XORI, SHL, SHR and ASR leave the data register at the 32-bit result. MOV and MOVI put their source value into the
destination as the register table gives: accumulators at Q1.31 position with the pin cleared, pointers and bases at 15
bits, offsets and lengths at 16, loop registers at their width, and of ST the writable bits only; an accumulator as a
source is narrowed, with SV and the host's copy set where it is clamped. Rests on: Fuller Engine Instruction Set,
Register instructions. -/
def Obligations.EngineIntegers : Prop :=
  (∀ (s : State) (g : EngAt) (d r : BitVec 4) (imm : Word) (n : BitVec 5), s.shape = unitCounts →
    let sets := fun (i : Instr) (v : Word → Word → Word) => canIssue i s →
      Yields i s g.e.toNat fun x y => y.bank.dN d.toNat = v (x.bank.dN d.toNat) (x.bank.dN r.toNat)
    sets (.add g d r) (fun a b => a + b) ∧ sets (.sub g d r) (fun a b => a - b) ∧ sets (.addi g d imm) (fun a _ => a + imm) ∧
    sets (.andi g d imm) (fun a _ => a &&& imm) ∧ sets (.ori g d imm) (fun a _ => a ||| imm) ∧ sets (.xori g d imm) (fun a _ => a ^^^ imm) ∧
    sets (.shl g d n) (fun a _ => a <<< n.toNat) ∧ sets (.shr g d n) (fun a _ => a >>> n.toNat) ∧
    sets (.asr g d n) (fun a _ => BitVec.ofInt 32 (a.toInt / 2 ^ n.toNat))) ∧
  (∀ (s : State) (g : EngAt) (dst src : BitVec 8) (imm : Word), s.shape = unitCounts →
    (canIssue (.mov g dst src) s → Yields (.mov g dst src) s g.e.toNat fun x y => ∃ v, SourceIs x y dst.toNat src.toNat v ∧ DestHolds x y dst.toNat v) ∧
    (canIssue (.movi g dst imm) s → Yields (.movi g dst imm) s g.e.toNat fun x y => DestHolds x y dst.toNat imm))

/-- Repeats, loops, branches, conditions, LSAVE and LREST, END and TEND. When it can issue: REP and REPR set the
repeat count, LOOP and LOOPR the loop registers and LA, each leaving the pc at the next word; BR sets the pc to follow
the delay slot to the target where its condition holds (clearing LA), else past it. Conditions 0 to 8 hold as the
condition table says, tested on ST as the instruction before the last left it; a BR or SELA with condition 9 to 15 is
reserved and cannot issue. Every other instruction repeats while the count is above one, else closes the loop at its
end while the loop count is above one, else goes to the pending branch target or the next word. LSAVE and LREST copy
the loop registers out and back in four cycles. END in the last cycle ends the sample partition with every late write
in place; TEND ends the task and frees its context in the scheduler. Formalises R211. -/
def Obligations.EngineControl : Prop :=
  (∀ (s : State) (g : EngAt) (n : BitVec 16) (d : BitVec 4) (addr : BitVec 13) (c : BitVec 4), s.shape = unitCounts →
    (canIssue (.rep g n) s → Yields (.rep g n) s g.e.toNat fun x y => y.rc.toNat = n.toNat ∧ y.pc = x.pc + 1) ∧
    (canIssue (.repr g d) s → Yields (.repr g d) s g.e.toNat fun x y =>
      y.rc.toNat = max 1 (min (x.bank.dN d.toNat).toNat 256) ∧ y.pc = x.pc + 1) ∧
    (canIssue (.loop g addr n) s → Yields (.loop g addr n) s g.e.toNat fun x y =>
      y.ls = x.pc + 1 ∧ y.le = addr ∧ y.lc = n ∧ stBit y.st stLA = true ∧ y.pc = x.pc + 1) ∧
    (canIssue (.loopr g d addr) s → Yields (.loopr g d addr) s g.e.toNat fun x y =>
      let k := (x.bank.dN d.toNat).toNat % 2 ^ 16
      y.ls = x.pc + 1 ∧ y.le = addr ∧ y.lc.toNat = (if k = 0 then 1 else k) ∧ stBit y.st stLA = true ∧ y.pc = x.pc + 1) ∧
    (canIssue (.br g c addr) s → Yields (.br g c addr) s g.e.toNat fun x y =>
      y.pc = x.pc + 1 ∧ y.br = some (if condHolds x.stOld c.toNat then addr else x.pc + 2) ∧
      (condHolds x.stOld c.toNat = true → stBit y.st stLA = false) ∧ y.lc = x.landed.lc)) ∧
  (∀ (s : State) (c : Instr) (g : EngAt) (w : Nat), s.shape = unitCounts → engWord c = some (g, w) →
    (∀ cop reg cond addr imm, insOf w ≠ .ctl cop reg cond addr imm) → canIssue c s → Yields c s g.e.toNat fun x y =>
      if 1 < x.rc.toNat then y.pc = x.pc ∧ y.rc.toNat = x.rc.toNat - 1
      else y.rc = 0 ∧
        if stBit x.st stLA = true ∧ x.pc = x.le then
          (if 1 < x.lc.toNat then y.pc = x.ls ∧ y.lc = x.lc - 1 else y.pc = x.le + 1 ∧ y.lc = 0)
        else y.pc = x.br.getD (x.pc + 1)) ∧
  (∀ (s : State) (g : EngAt), s.shape = unitCounts →
    (canIssue (.lsave g) s → Yields (.lsave g) s g.e.toNat fun x y =>
      y.saveLc = x.landed.lc ∧ y.saveLs = x.landed.ls ∧ y.saveLe = x.landed.le ∧ y.cyc = x.cyc + 4 ∧ y.pc = x.pc + 1) ∧
    (canIssue (.lrest g) s → Yields (.lrest g) s g.e.toNat fun x y =>
      y.lc = x.saveLc ∧ y.ls = x.saveLs ∧ y.le = x.saveLe ∧ y.cyc = x.cyc + 4 ∧ y.pc = x.pc + 1)) ∧
  (∀ (s : State) (g : EngAt), s.shape = unitCounts →
    let x := engAt s g.e.toNat
    (engRuns s x = true → x.phase = .sample → g.perr % 16 = 0 → contextReserved x (.ctl 6 0 0 0 0) = false → x.cyc + 5 = x.slen →
      Yields (.end_ g) s g.e.toNat fun x y => y.phase = .ended ∧ y.due = false ∧ y.smp = x.landed.smp ∧ y.x = x.landed.x ∧ y.late = []) ∧
    (canIssue (.tend g) s → ∃ t, exec (.tend g) s = .next t ∧
      let y := engAt t g.e.toNat
      y.phase = .idle ∧ y.task = none ∧ y.bg = x.landed.bg ∧ y.x = x.landed.x ∧ y.late = [] ∧
      (schCore t (4 + g.e.toNat)).run = none)) ∧
  (∀ (s : State) (g : EngAt) (m : BitVec 2) (p : AccArgs) (c : BitVec 4) (addr : BitVec 13) (st : BitVec 16),
    let z := stBit st stZ = true
    let n := stBit st stN = true
    (∀ k, k < 9 → (condHolds st k = true ↔
      (k = 0 ∨ (k = 1 ∧ z) ∨ (k = 2 ∧ ¬ z) ∨ (k = 3 ∧ n) ∨ (k = 4 ∧ ¬ n) ∨ (k = 5 ∧ (n ∨ z)) ∨ (k = 6 ∧ ¬ n ∧ ¬ z) ∨
        (k = 7 ∧ stBit st stAV = true) ∨ (k = 8 ∧ stBit st stSV = true)))) ∧
    (9 ≤ c.toNat → ¬ canIssue (.br g c addr) s ∧ ¬ canIssue (.sela g m c p) s))

/-- Engine faults, task faults, preemption, sample start and background resume. A reserved word stops a sample
partition with code 6 and records pc and frame unless a fault is held; it ends a background task and counts in TFAULT.
An overrun stops the partition with code 1, an early END with code 2, and so does an instruction other than END in
END's cycle or later (code 1). A parity error stops the sample partition with its code, and ends a background task.
PREEMPTION saves a background context, only when one runs, and readies the engine; SAMPLE_PARTITION_START zeroes pc,
repeat count and flags and keeps the sample bank; BACKGROUND_RESUME restores the saved context, or idles. Rests on:
Fuller Engine Execution, Engine faults; Fuller Engine Execution, The sample partition; Fuller Engine Execution,
Background tasks and preemption; Fuller Engine Instruction Set, The instruction word. -/
def Obligations.EngineFaults : Prop :=
  (∀ (s : State) (g : EngAt) (w : DWord), s.shape = unitCounts →
    let x := engAt s g.e.toNat
    engRuns s x = true → g.perr % 16 = 0 →
    (x.phase = .sample → x.cyc + 5 < x.slen → (reservedWord w.toNat = true ∨ contextReserved x (insOf w.toNat) = true ∨ backgroundOnly (insOf w.toNat) = true) →
      Yields (.reservedInstruction g w) s g.e.toNat fun x y => y.phase = .stopped ∧
        (x.fltCode = 0 → y.fltCode = 6 ∧ y.fltPc = x.pc ∧ y.fltFrame = s.frame.cnt % 2 ^ 12)) ∧
    (x.phase = .background → (reservedWord w.toNat = true ∨ contextReserved x (insOf w.toNat) = true ∨ sampleOnly (insOf w.toNat) = true) →
      Yields (.reservedInstruction g w) s g.e.toNat fun x y => y.phase = .idle ∧ y.task = none ∧ y.bg = x.landed.bg ∧ y.x = x.landed.x ∧
        y.tfault = if x.tfault < 255 then x.tfault + 1 else x.tfault)) ∧
  (∀ (s : State) (e : BitVec 4) (early : Bool) (c : Instr) (g : EngAt) (w : Nat), s.shape = unitCounts →
    let faults := fun (x y : Engine) (code : Nat) => y.phase = .stopped ∧ y.due = false ∧
      (x.fltCode = 0 → y.fltCode = code ∧ y.fltPc = x.pc ∧ y.fltFrame = s.frame.cnt % 2 ^ 12)
    ((engAt s e.toNat).phase = .sample → Yields (.engineOverrun e early) s e.toNat fun x y => faults x y (if early then 2 else 1)) ∧
    (engWord c = some (g, w) → g.perr % 16 = 0 → engRuns s (engAt s g.e.toNat) = true → (engAt s g.e.toNat).phase = .sample →
      insOf w ≠ .ctl 6 0 0 0 0 → (engAt s g.e.toNat).slen ≤ (engAt s g.e.toNat).cyc + 5 → Yields c s g.e.toNat fun x y => faults x y 1) ∧
    (canIssue (.end_ g) s → Yields (.end_ g) s g.e.toNat fun x y => faults x y 2)) ∧
  (∀ (s : State) (c : Instr) (g : EngAt) (w : Nat), s.shape = unitCounts → engWord c = some (g, w) → g.perr % 16 ≠ 0 →
    engRuns s (engAt s g.e.toNat) = true →
    ((engAt s g.e.toNat).phase = .sample → (engAt s g.e.toNat).cyc + 5 < (engAt s g.e.toNat).slen → Yields c s g.e.toNat fun x y =>
      y.phase = .stopped ∧ (x.fltCode = 0 → y.fltCode = g.perr % 16 ∧ y.fltPc = x.pc)) ∧
    ((engAt s g.e.toNat).phase = .background → Yields c s g.e.toNat fun x y => y.phase = .idle ∧ y.fltCode = x.fltCode ∧
      y.tfault = if x.tfault < 255 then x.tfault + 1 else x.tfault)) ∧
  (∀ (s : State) (e : BitVec 4), s.shape = unitCounts →
    let x := engAt s e.toNat
    (x.preReq = true → x.phase = .background → x.rc = 0 → Yields (.preemption e) s e.toNat fun x y =>
      y.phase = .ready ∧ y.preReq = false ∧ y.saved = true ∧ y.savPc = x.landed.pc ∧ y.savSt = x.landed.st ∧ y.savRc = 0) ∧
    (x.preReq = true → x.phase ≠ .stopped → Yields (.preemption e) s e.toNat fun _ y => y.preReq = false ∧ y.phase = .ready) ∧
    (x.preReq = true → x.phase ≠ .background → Yields (.preemption e) s e.toNat fun x y =>
      y.preReq = false ∧ y.saved = x.saved ∧ y.phase = (if x.phase = .stopped then .stopped else .ready)) ∧
    (x.preReq = false → x.due = true → x.phase = .ready → Yields (.samplePartitionStart e) s e.toNat fun x y =>
      y.phase = .sample ∧ y.st = 1 ∧ y.rc = 0 ∧ y.pc = 0 ∧ y.cyc = 0 ∧ y.smp = x.smp ∧ y.lc = x.lc ∧ y.ls = x.ls ∧ y.le = x.le) ∧
    (x.phase = .ended → Yields (.backgroundResume e) s e.toNat fun x y =>
      if x.saved then y.phase = .background ∧ y.pc = x.savPc ∧ y.st = x.savSt ∧ y.rc = x.savRc ∧ y.saved = false ∧ y.bg = x.bg
      else y.phase = .idle ∧ stBit y.st stPART = false))

/-- What an instruction leaves unchanged, in its engine and elsewhere. An instruction command that can issue and is no
control operation changes outside its engine at most bus accumulators, delay writes and their fault count, and the
determinism record with its interrupt; no other engine changes. In its engine: every data register and accumulator but
its destinations stays; pointers stay but those it writes or moves; M, L, B, LS and LE stay unless a register
operation names a register above the data and accumulator ones; N and Z stay unless it compares, tests or moves into
ST; the bank of the other partition stays; every X and Y word but at the addresses it stores to reads as before;
program memory, the phase, the saved loop registers, ACT, the crossfade, the fault record and the task stay; one cycle
passes. Every register is meant as the instruction after next sees it. Rests on: Fuller Engine Execution; Fuller
Engine Instruction Set. -/
def Obligations.EngineFrame : Prop :=
  ∀ (s : State) (c : Instr) (g : EngAt) (w : Nat), s.shape = unitCounts → engWord c = some (g, w) → canIssue c s →
    (∀ cop reg cond addr imm, insOf w ≠ .ctl cop reg cond addr imm) →
    ∃ t, exec c s = .next t ∧
      { t with engines := s.engines, bus := s.bus, dly := s.dly, det := s.det, host := s.host } = s ∧
      { t.bus with acc := s.bus.acc } = s.bus ∧ { t.dly with wr := s.dly.wr, wfault := s.dly.wfault } = s.dly ∧
      { t.det with bgwrite := s.det.bgwrite, void_ := s.det.void_ } = s.det ∧
      { t.host with intLatched := s.host.intLatched } = s.host ∧
      (∀ k, k ≠ g.e.toNat → engAt t k = engAt s k) ∧
      let x := engAt s g.e.toNat
      let y := engAt t g.e.toNat
      let i := insOf w
      (∀ n, n < 16 → n ∉ insWrites i → y.bank.dN n = x.bank.dN n) ∧
      (∀ n, n < 4 → 16 + n ∉ insWrites i → y.bank.aN n = x.bank.aN n) ∧
      (∀ n, n < 8 → 32 + n ∉ insWrites i → n ∉ insPtrs i → y.landed.bank.pN n = x.landed.bank.pN n) ∧
      ((∀ rop dst src imm, i = .reg rop dst src imm → dst < 0x20) →
        y.landed.bank.m = x.landed.bank.m ∧ y.landed.bank.l = x.landed.bank.l ∧ y.landed.bank.b = x.landed.bank.b ∧
        y.landed.ls = x.landed.ls ∧ y.landed.le = x.landed.le) ∧
      (writesNZ i = false → stBit y.st stN = stBit x.st stN ∧ stBit y.st stZ = stBit x.st stZ) ∧
      (if x.phase = .sample then y.bg = x.bg else y.smp = x.smp) ∧
      (∀ a, insStoreX x i ≠ some a → Store.get 0 y.landed.x a = Store.get 0 x.landed.x a) ∧
      (∀ bb a, (∀ q, insStoreY x i = some q → ¬ (x.yBank q = bb ∧ q % 0x4000 = a)) → y.landed.yWord bb a = x.landed.yWord bb a) ∧
      y.imem = x.imem ∧ y.phase = x.phase ∧ y.saveLc = x.saveLc ∧ y.saveLs = x.saveLs ∧ y.saveLe = x.saveLe ∧ y.act = x.act ∧ y.xf = x.xf ∧
      y.fltCode = x.fltCode ∧ y.task = x.task ∧ y.cyc = x.cyc + 1

/-- A frame starts: number, window, accepted tick, on a tick, a held tick, run entry and relock. On an unpaired Derku
with no frame under way: a tick in RUN that is no glitch, not late and not at the wrong rate starts the next frame; a
held tick starts it two cycles before the row's time; RUN_ENTRY at a pending request starts the first frame of a
period, clearing VOID; RELOCK on a candidate domain with 256 good intervals starts the next frame after HOLD, makes
that domain the source and latches the clock interrupt. Starting a frame sets FRAME_CNT (the next number, or
FRAME_START for the first), and leaves no event due at it in the pending store but those deferred, with no more events
applied than the rate's capacity. Rests on: Frames, Events and Determinism, Frame numbering; Frames, Events and
Determinism, Acceptance and order; Audio Ports and Clock Domains, Frame watchdog and clock faults; Audio Ports and
Clock Domains, HOLD. -/
def Obligations.FrameStarts : Prop :=
  ∀ (s : State) (t : Nat) (errs : List FrameErr) (d : BitVec 2),
    s.shape = unitCounts → s.twin.paired = false → s.frame.open_ = false → leaves s = false →
    (s.mode.mode = .run → s.clocks.heldAt = none → goodTick t s → Does (.masterTick t errs) s fun u =>
      FrameBegun s u t (nextFrame s) ∧ u.clocks.acc = some t ∧ u.clocks.tick = some (nextFrame s, t)) ∧
    (∀ h, s.clocks.heldAt = some h → s.mode.mode = .run → 2 ≤ t → Does (.heldTickStart t) s fun u =>
      FrameBegun s u (t - 2) (nextFrame s) ∧ u.clocks.heldAt = none ∧ u.clocks.tick = some (nextFrame s, h)) ∧
    (∀ p, s.mode.pend = some p → s.mode.mode = .ready → p < t + 2 → windowWriting s = false → goodTick t s → Does (.runEntry t) s fun u =>
      FrameBegun s u t (nextFrame s) ∧ u.clocks.acc = some t ∧ framesRun u = true ∧ u.mode.pend = none ∧ u.det.void_ = false) ∧
    (s.mode.mode = .hold → s.mode.holdFrom = .run → s.hood.isSome = true → candidate s d.toNat = true →
      (∀ l, (domAt s d.toNat).last = some l → l + glitchTime (rateOf s).cycles ≤ t) →
      256 ≤ (Domain.tick (domCycles s d.toNat) t (domAt s d.toNat)).relock → tickReal s d.toNat t = true → s.clocks.relockAt ≠ some t → Does (.relock d t) s fun u =>
        FrameBegun s u t (nextFrame s) ∧ u.clocks.acc = some t ∧ u.clocks.src = d.toNat ∧ framesRun u = true ∧
        bitAt u.host.intLatched 7 = true)

/-- The end of a running period, the watchdog expiry, and muting in HOLD. On an unpaired Derku with no frame under
way: a tick after a STOP request leaves RUN for READY: FRAME_START becomes the number after the last frame, held
events are dropped and counted in DISCARDED, commit sets, voices, region enables and buses are emptied, a restore
begins where the DRAM is in use, DRAM and fault log stay. A watchdog expiry counts a loss, latches the interrupt, logs
class 0x0A with response 5, starts no frame, and switches to the qualified backup domain the first time in the period,
else enters HOLD. Eight nominal periods into HOLD the outputs of started synchronous ports are muted, and mode and
frame number stay. Rests on: Frames, Events and Determinism, Frame numbering; Audio Ports and Clock Domains, Frame
watchdog and clock faults; Audio Ports and Clock Domains, HOLD; Power, Reset, Modes and Faults, Modes and transitions.
-/
def Obligations.PeriodEnds : Prop :=
  ∀ (s : State) (t a : Nat), s.shape = unitCounts → s.twin.paired = false → s.frame.open_ = false → s.clocks.heldAt = none → s.hood.isSome = true →
    (s.mode.mode = .run → s.mode.stop = true → goodTick t s → Does (.leaveRunningMode t) s fun u =>
      u.mode.mode = .ready ∧ u.mode.stop = false ∧ u.mode.rest = dramOn s ∧
      u.frame.start = (if s.frame.ran then s.frame.cnt + 1 else s.frame.start) ∧ u.frame.ran = false ∧
      u.carder.store = [] ∧ u.carder.seq = 0 ∧ u.carder.sets = List.replicate 15 [] ∧
      (∃ n, s.carder.store.length ≤ n ∧ u.carder.disc = min 0xFFFF (s.carder.disc + n)) ∧
      u.slots = [] ∧ u.regions = [] ∧ u.bus.val = [] ∧ u.bus.acc = [] ∧ u.dram = s.dram ∧ u.flt.log = s.flt.log) ∧
    (s.mode.mode = .run → s.mode.stop = false → s.clocks.acc = some a → a + expiryTime (rateOf s).cycles ≤ t → Does (.watchdogExpiry t) s fun u =>
      u.frame = s.frame ∧ u.det.hold = true ∧ u.clocks.lossF = true ∧ bitAt u.host.intLatched 7 = true ∧
      u.clocks.loss = (if s.clocks.loss < 255 then s.clocks.loss + 1 else s.clocks.loss) ∧
      (s.flt.log.length < 16 → u.flt.log = s.flt.log ++ [⟨0x0A, s.clocks.src, 5, s.frame.cnt % 2 ^ 32⟩]) ∧
      (∀ b, switchTo s = some b → u.mode.mode = .run ∧ u.clocks.src = b ∧ u.clocks.onBackup = true ∧ u.clocks.switched = true ∧
        u.clocks.acc = (domAt s b).last) ∧
      (switchTo s = none → u.mode.mode = .hold ∧ u.mode.holdFrom = .run ∧ u.clocks.holdAt = a + expiryTime (rateOf s).cycles ∧
        u.clocks.muted = false)) ∧
    (s.mode.mode = .hold → s.clocks.muted = false → s.clocks.holdAt + 8 * (rateOf s).cycles ≤ t → Does (.holdOutputMute t) s fun u =>
      u.clocks.muted = true ∧ u.mode = s.mode ∧ u.frame = s.frame ∧
      ∀ p, p < 8 → ∀ h, hportOf s p = some h → syncDomain s h.domain = true → grpStarted s h = true →
        ∀ v ∈ (sapAt u p).iface.shifted, v = 0)

/-- What ends within frames: steal fades, crossfades, meter windows; group starts; ticks of other domains. A fade
whose last frame has been computed leaves its slot to the pending note, or FREE. A crossfade after its last step swaps
the active bank and ends. A full meter window puts the mean of its squares in MS and clears its sum. A triggered group
starts at the first tick after the trigger and records that frame in GSTART. A tick of a domain that is not the
source, with no ASRC losing lock, records its time, period and run of consistent intervals and starts no frame.
Nothing else of those units changes. Rests on: Voice Allocation and Stealing, The steal fade; Coefficient Banks,
Parameter Updates and Delay Lines, Crossfades; Modulation, Placement and Buses, Bus meters; Audio Ports and Clock
Domains, Alignment groups; Audio Ports and Clock Domains, Domains and the frame tick. -/
def Obligations.FrameUnits : Prop :=
  ∀ (s : State) (t : Nat) (d g : BitVec 2) (slot : BitVec 11) (e m : BitVec 4), s.shape = unitCounts →
    (∀ x, (slotAt s slot.toNat).fade = some x → framesRun s = true → x.from_ + x.n ≤ s.frame.cnt + 1 → Does (.stealFadeEnd slot) s fun u =>
      slotAt u slot.toNat = { slotAt s slot.toNat with cur := (slotAt s slot.toNat).pend, pend := none, fade := none, killed := false } ∧
      (∀ j, j ≠ slot.toNat → slotAt u j = slotAt s j) ∧ { u with slots := s.slots } = s) ∧
    (∀ x, (engAt s e.toNat).xf = some x → x.k + 1 = 2 ^ x.logn → s.frame.open_ = false → Does (.crossfadeEnd e) s fun u =>
      engAt u e.toNat = { engAt s e.toNat with xf := none, act := !(engAt s e.toNat).act } ∧
      (∀ k, k ≠ e.toNat → engAt u k = engAt s k) ∧ { u with engines := s.engines } = s) ∧
    (∀ x, s.bus.meters[m.toNat]? = some x → x.full = true → Does (.meterWindowEnd m) s fun u =>
      u.bus.meters[m.toNat]? = some { x with ms := x.sum / 2 ^ x.w, sum := 0, count := 0, full := false } ∧
      (∀ k, k ≠ m.toNat → u.bus.meters[k]? = s.bus.meters[k]?) ∧ { u with bus := { u.bus with meters := s.bus.meters } } = s) ∧
    (∀ x, s.audio.grps[g.toNat]? = some x → ∀ v, x.trig = some v → ∀ f u, s.clocks.tick = some (f, u) → framesRun s = true →
      grpModeOf s g.toNat ≠ 0 → x.started = false → v < u + 2 → Does (.groupStart g) s fun u =>
        u.audio.grps[g.toNat]? = some { x with started := true, trig := none, gstart := f % 2 ^ 32 } ∧
        ∀ k, k ≠ g.toNat → u.audio.grps[k]? = s.audio.grps[k]?) ∧
    (framesRun s = true → s.twin.paired = false → s.hood.isSome = true → d.toNat ≠ s.clocks.src →
      tickReal s d.toNat t = true → s.clocks.relockAt ≠ some t → (∀ n, n < 8 → (timerAt s n).src ≠ 2) →
      (∀ a, s.clocks.acc = some a → t + 2 < a + expiryTime (rateOf s).cycles) →
      (∀ k, k < 4 → (domAt s k).lock = true ∨ 1024 ≤ (domAt s k).run → ∃ l, (domAt s k).last = some l ∧ t < l + expiryTime (domCycles s k)) → Does (.domainTick d t) s fun u =>
        (domAt u d.toNat).last = some t ∧
        (∀ l, (domAt s d.toNat).last = some l → (domAt u d.toNat).period = min (t - l) 0xFFFF ∧
          (domAt u d.toNat).run = if consistent (domCycles s d.toNat) (t - l) then (domAt s d.toNat).run + 1 else 0) ∧
        (∀ k, k ≠ d.toNat → (domAt u k).last = (domAt s k).last ∧ (domAt u k).run = (domAt s k).run) ∧
        u.frame = s.frame ∧ u.clocks.acc = s.clocks.acc ∧ u.carder = s.carder)

/-- Sample lines, placement cells and delay samples that arrive, arrive late or arrive uncorrectable. A sample line in
flight or late that arrives without an uncorrectable error is held. One that is uncorrectable reads as an ECC line,
and counts in DUE, in the cluster's count and in the log (class 1); one that is late is marked late, counts, is logged
(class 2) and, in a period, sets DET_STAT.FAULT. A placement cell that arrives changes only the ECC counts;
uncorrectable or late, it is marked and counted. A delay sample that is late or uncorrectable is marked for its tap
and counted, and its stored samples stay; one that arrives well is cleared of its mark. ECC cases here are without
ECCSAFE and on an unpaired Derku. Rests on: Oscillators and Sample Streaming, Line buffers and the streamer;
Modulation, Placement and Buses, Placement; Coefficient Banks, Parameter Updates and Delay Lines, Delay lines in DRAM;
Power, Reset, Modes and Faults, Faults. -/
def Obligations.Fetches : Prop :=
  ∀ (s : State) (slot : BitVec 11) (o : LineOwner) (l : LineAt) (tap : BitVec 8) (ecc : EccKind) (b : Line) (f : CellFetch) (t : Nat),
    s.shape = unitCounts →
    let i := slot.toNat
    let c := i / 256
    let waits := ownedLine s o l = some b
    let unit := ownerUnit o
    let slots := unit ≠ 0xFF
    let fetch := fun (u : State) => (slotAt u i).cur.bind fun v => v.fetch
    let cluster := fun (u : State) (c : Nat) => u.clusters.getD c Cluster.empty
    (waits → b.stat = .inflight ∨ b.stat = .late → ecc ≠ .uncorrectable → Does (.streamLineArrival o l ecc) s fun u =>
      ownedLine u o l = some { b with stat := .held } ∧ u.flt = (countEcc ecc s).flt ∧
      { u with slots := s.slots, carder := { u.carder with store := s.carder.store }, flt := s.flt } = s) ∧
    (waits → b.stat = .inflight ∨ b.stat = .late → s.flt.eccsafe = false → s.twin.paired = false → Does (.streamLineArrival o l .uncorrectable) s fun u =>
      ownedLine u o l = some { b with stat := .ecc } ∧ u.flt.due = satInc 255 s.flt.due ∧
      (slots → (cluster u unit).eccue = satInc 255 (cluster s unit).eccue) ∧ (inPeriod s = true → u.det.fault = true) ∧
      (s.flt.log.length < 16 → u.flt.log = s.flt.log ++ [⟨1, unit, 0, s.frame.cnt % 2 ^ 32⟩])) ∧
    (waits → b.stat = .inflight → Does (.streamLineLate o l) s fun u => ownedLine u o l = some { b with stat := .late } ∧
      (¬ slots → { u with carder := { u.carder with store := s.carder.store } } = s) ∧
      (slots → (cluster u unit).late = satInc 255 (cluster s unit).late ∧ (inPeriod s = true → u.det.fault = true)) ∧
      (slots → s.flt.log.length < 16 → u.flt.log = s.flt.log ++ [⟨2, unit, 0, s.frame.cnt % 2 ^ 32⟩])) ∧
    (fetch s = some f → ecc ≠ .uncorrectable → Does (.cellArrival slot ecc) s fun u => u = countEcc ecc s) ∧
    (fetch s = some f → s.flt.eccsafe = false → s.twin.paired = false → Does (.cellArrival slot .uncorrectable) s fun u =>
      fetch u = some { f with ecc := true } ∧ u.flt.due = satInc 255 s.flt.due ∧ (cluster u c).cellEcc = satInc 255 (cluster s c).cellEcc) ∧
    (fetch s = some f → f.late = false → Does (.cellLate slot) s fun u =>
      fetch u = some { f with late := true } ∧ (cluster u c).cellLate = satInc 255 (cluster s c).cellLate) ∧
    (∀ x ln, tapOf s tap.toNat = some (x, ln) → framesRun s = true →
      (s.dly.lateTaps.contains tap.toNat = false → Does (.delayFetchLate tap) s fun u =>
        u.dly = { s.dly with lateTaps := tap.toNat :: s.dly.lateTaps, late := satInc 255 s.dly.late } ∧ u.det.fault = true) ∧
      (ecc ≠ .uncorrectable → Does (.delayFetchArrival tap ecc t) s fun u =>
        u.dly = { s.dly with eccTaps := s.dly.eccTaps.filter fun y => y != (tap.toNat, tapBlock s x ln t) } ∧
        u.flt = (countEcc ecc s).flt ∧ { u with dly := s.dly, flt := s.flt, now := s.now } = s) ∧
      (s.flt.eccsafe = false → s.twin.paired = false → Does (.delayFetchArrival tap .uncorrectable t) s fun u =>
        u.dly.eccTaps.contains (tap.toNat, tapBlock s x ln t) = true ∧ u.dly.eccue = satInc 255 s.dly.eccue ∧ u.dly.pre = s.dly.pre ∧ u.dram = s.dram))

/-- The fields of an event record are the operands of its command. The record that an event command builds has eight
words; its opcode, flags, target, commit set, NOW, REPLY and HANDLE flags, use count, tag or slot, stamp, index space,
index and words 5 to 7 are the operands given. Rests on: Frames, Events and Determinism, The event record. -/
def Obligations.EventRecords : Prop :=
  ∀ (op : Nat) (a : EvArgs), op < 2 ^ 8 →
    let r := a.toRec op
    r.length = 8 ∧ evOp r = op ∧ evFlags r = a.flags.toNat ∧ evTarget r = a.target.toNat ∧
    evCommit r = a.flags.toNat / 16 ∧ evNow r = a.flags.getLsbD 2 ∧ evReply r = a.flags.getLsbD 1 ∧ evHandle r = a.flags.getLsbD 0 ∧
    evUse r = a.w1.toNat / 2 ^ 24 ∧ evTag r = a.w1.toNat % 2 ^ 24 ∧ evSlot r = a.w1.toNat % 2 ^ 11 ∧
    evStamp r = a.w2.toNat + 2 ^ 32 * a.w3.toNat ∧ evSpace r = a.w4.toNat / 2 ^ 28 ∧ evIndex r = a.w4.toNat % 2 ^ 28 ∧
    Words.u r 5 = a.w5.toNat ∧ Words.u r 6 = a.w6.toNat ∧ Words.u r 7 = a.w7.toNat

/-- Acceptance: what an accepted event adds to the pending store, and what a refused one leaves. An offer other than a
link entry meets the carder after it has taken what it could of earlier offers. When it takes the offer now (it
accepts, and no earlier offer of the source waits): an event that passes the acceptance checks is appended to the
pending store with the next sequence number, its source, the effective stamp and the late mark (a record that starts a
note may hold a start buffer), and nothing else changes but the ring it came from, its forwarding to a partner and the
time. One that fails leaves the carder as it was; where its source has a REPLY ring with room, a reply with its
opcode, code, target and word 1 is written there. An opcode of 0 or above 17 fails with E_RSVD where events are taken
at all; a mode that takes none gives E_MODE, or E_ABSENT; an accepted event finds room among 4096, carries a stamp at
most 65535 frames ahead unless NOW, and joins a commit set only with opcodes 4 to 13. Rests on: Frames, Events and
Determinism, Acceptance and order; Frames, Events and Determinism, Lead, late events and capacity; Rings, Mailboxes
and the Task Scheduler, Ring types. -/
def Obligations.EventsTaken : Prop :=
  (∀ (s : State) (c : Instr) (src : Source) (op : Nat) (a : EvArgs), evCmd c = some (src, op, a) →
    let m := atOffer s src
    acceptErr m src (a.toRec op) = .ok → takesNow m src →
    Does c s fun u => ∃ (eff : Nat) (late : Bool) (b : Option StartBuf),
      u.carder.store = m.carder.store ++ [⟨a.toRec op, m.carder.seq, src, eff, late || (src == .twin && a.flags.getLsbD 3), false, b⟩] ∧
      Stamped m (a.toRec op) eff late ∧ (streamStart m (a.toRec op) = false → b = none) ∧
      u.carder = { m.carder with store := u.carder.store, seq := (m.carder.seq + 1) % 2 ^ 32, sbufPeak := u.carder.sbufPeak } ∧
      ((∀ k, src ≠ .ring k) → u.rings = m.rings) ∧
      { u with carder := m.carder, twin := m.twin, rings := m.rings, now := m.now } = m) ∧
  (∀ (s : State) (c : Instr) (src : Source) (op : Nat) (a : EvArgs), evCmd c = some (src, op, a) → takesNow (atOffer s src) src →
    let r := a.toRec op
    let m := atOffer s src
    let e := acceptErr m src r
    (e ≠ .ok → Does c s fun u =>
      let s1 := takeEntry src r m
      u.carder = m.carder ∧ { u with twin := m.twin, rings := m.rings, ringMem := m.ringMem, now := m.now } = m ∧
      ∀ k, replyRing m src = some k → ∀ h, hringOf m k = some h → k < m.rings.length → ringCount (ringState s1 k) < 2 ^ h.size →
        (ringState u k).head = (ringState s1 k).head + 1 ∧
        Memory.readWs 0 u.ringMem (ringAddr h (ringState s1 k).head.toNat) 8 =
          [BitVec.ofNat 32 (op * 2 ^ 24 + e.code * 2 ^ 16 + a.target.toNat), a.w1, 0xFFFFFFFF, 0xFFFFFFFF, 0xFFFFFFFF, 0, 0, 0]) ∧
    (op = 0 ∨ 17 < op → e = (if acceptMode (effMode m) = true ∧ (effMode m = .runShadow → src = .twin) ∧
      (atomicWord m r = true → evCommit r ≠ 0) then .rsvd else .mode)) ∧
    (acceptMode (effMode m) = false → e = .mode ∨ e = .absent) ∧
    (e = .ok → m.carder.store.length < 4096 ∧ (evNow r = false → evStamp r ≤ openWindow m + 65535) ∧ (evCommit r ≠ 0 → 4 ≤ op ∧ op ≤ 13)))

/-- Closing a window applies due events in sequence order up to the capacity and defers the rest. Closing the window
for f applies the first n due events of the pending store, n being the rate's capacity or their number: the store
keeps its order, every event stamped after f, and of the due ones exactly those beyond the first n, marked deferred;
APPLIED is the number applied and DEFER grows by the number kept back, or stays at its maximum. Frame number and mode
stay. The state after it is that of those n events applied one by one in sequence order, and then of the members of
the sets that COMMITs took. On an unpaired Derku in RUN with no frame under way and nothing offered, a good
MASTER_TICK applies the events of its window so: to the state of the pending store, rings, groups, regions and slots
as they stand, with the crossfades and slots that ended brought to their end, and what the events leave in pending
store, sets, rings, group settings, regions, CV channels, delay lines and engine banks stands after the tick. Rests
on: Frames, Events and Determinism, Lead, late events and capacity; Frames, Events and Determinism, Acceptance and
order. -/
def Obligations.WindowCapacity : Prop :=
  ∀ (s : State) (f t : Nat),
    let due := s.carder.store.filter fun e => decide (e.eff ≤ f)
    let n := (rateOf s).events
    let u := closeEvents f s
    let one := fun (q : State × List Member) (e : PendEv) =>
      let r := applyOne f (refetch s.regions q.1 e) q.1
      ({ r.1 with carder := { r.1.carder with applied := r.1.carder.applied + 1 } }, q.2 ++ r.2)
    let q := (due.take n).foldl one ({ s with carder := { s.carder with store := [], applied := 0 } }, [])
    let v := q.2.foldl (commitMember f) { q.1 with carder := { q.1.carder with defer := u.carder.defer } }
    let settings := fun (x : Group) => (x.limit, x.priority, x.mask, x.policy, x.fade, x.keys, x.bi, x.gctl)
    { u with carder := { u.carder with store := v.carder.store } } = v ∧
    (s.shape = unitCounts → s.twin.paired = false → s.frame.open_ = false → s.frame.ran = true → leaves s = false → s.mode.mode = .run → s.clocks.heldAt = none →
      goodTick t s → s.hood.isSome = true → s.flt.restart = .none → offering s = [] → (∀ n, n < 8 → (timerAt s n).src ≠ 2) → Store.wf Slot.free s.slots = true →
      Does (.masterTick t []) s fun u => ∃ w, w.carder = { s.carder with upTo := w.carder.upTo } ∧ w.rings = s.rings ∧ w.ringMem = s.ringMem ∧
        w.groups = s.groups ∧ w.hood = s.hood ∧ w.regions = s.regions ∧ w.bus = s.bus ∧ w.dram = s.dram ∧ w.fuses = s.fuses ∧
        w.frame = { s.frame with cnt := s.frame.cnt + 1, open_ := true, tickAt := t } ∧
        (∀ k, slotAt w k = slotEnd (s.frame.cnt + 1) (slotAt s k)) ∧ (∀ e, engAt w e = xfClose (engAt s e)) ∧
        let z := closeEvents (s.frame.cnt + 1) w
        u.carder = z.carder ∧ u.rings = z.rings ∧ u.ringMem = z.ringMem ∧ u.regions = z.regions ∧ u.cv = z.cv ∧ u.dly = z.dly ∧
        u.groups.map settings = z.groups.map settings ∧ (∀ e, (engAt u e).xf = (engAt z e).xf ∧ (engAt u e).ya = (engAt z e).ya ∧ (engAt u e).yb = (engAt z e).yb)) ∧
    u.carder.applied = min n due.length ∧
    u.carder.defer = max s.carder.defer (min 0xFFFF (s.carder.defer + (due.length - n))) ∧
    (u.carder.store.map (·.seq)).Sublist (s.carder.store.map (·.seq)) ∧
    (u.carder.store.filter fun e => decide (f < e.eff)).map (·.seq) = (s.carder.store.filter fun e => decide (f < e.eff)).map (·.seq) ∧
    (u.carder.store.filter fun e => decide (e.eff ≤ f)).map (·.seq) = (due.drop n).map (·.seq) ∧
    (∀ e ∈ u.carder.store, f < e.eff ∨ e.deferred = true) ∧ u.frame = s.frame ∧ u.mode = s.mode

/-- BANK_SWAP, XF_START, XF_FINISH and FUL_SET as they take effect. With no crossfade running, BANK_SWAP inverts ACT
and XF_START starts a crossfade over the words and duration given; XF_FINISH is refused with E_NOTFOUND. While one
runs, BANK_SWAP and XF_START are refused with E_BUSY, and XF_FINISH ends it and inverts ACT. FUL_SET writes one word
of the bank that its index names, active or by letter, and no other; a word that a running crossfade uses gives
E_BUSY. No other engine and nothing outside the engines changes. Rests on: Coefficient Banks, Parameter Updates and
Delay Lines, Bank roles; Coefficient Banks, Parameter Updates and Delay Lines, Crossfades; Coefficient Banks,
Parameter Updates and Delay Lines, Writing parameter words. -/
def Obligations.EngineEvents : Prop :=
  ∀ (s : State) (f : Nat) (a : EvArgs) (bb : Bool) (w : Nat), s.shape = unitCounts → a.target.toNat < 16 →
    let e := a.target.toNat
    let x := engAt s e
    let y := fun (op : Nat) => engAt (applyEvent f none (a.toRec op) s).st e
    let st := fun (op : Nat) => (applyEvent f none (a.toRec op) s).err
    (if x.xf = none then st 0x09 = .ok ∧ y 0x09 = { x with act := !x.act } else st 0x09 = .busy ∧ y 0x09 = x) ∧
    (if x.xf = none then st 0x0A = .ok ∧ (y 0x0A).xf = some ⟨a.w5.toNat % 2 ^ 14, a.w6.toNat % 2 ^ 15, a.w7.toNat % 2 ^ 4, 0⟩ ∧ (y 0x0A).act = x.act
      else st 0x0A = .busy ∧ y 0x0A = x) ∧
    (if x.xf = none then st 0x0B = .notFound ∧ y 0x0B = x else st 0x0B = .ok ∧ y 0x0B = { x with xf := none, act := !x.act }) ∧
    (let bank := if a.w4.toNat / 2 ^ 28 = 0 then x.yBank (a.w4.toNat % 2 ^ 15) else a.w4.getLsbD 14
     let word := a.w4.toNat % 2 ^ 14
     if xfBusy x word = true then st 0x08 = .busy ∧ y 0x08 = x
     else st 0x08 = .ok ∧ (y 0x08).yWord bb w = if bb = bank ∧ w = word then a.w5 else x.yWord bb w) ∧
    (∀ op, op = 0x08 ∨ op = 0x09 ∨ op = 0x0A ∨ op = 0x0B → { (applyEvent f none (a.toRec op) s).st with engines := s.engines } = s ∧
      ∀ k, k ≠ e → engAt (applyEvent f none (a.toRec op) s).st k = engAt s k)

/-- TEMPO, GROUP_SET, DELAY_SET, REGION_ENABLE and MARK as they take effect. TEMPO sets a group's beat increment, and
its beat phase unless the index is odd. GROUP_SET of space 0, index 0 to 5, sets the voice limit, priority, cluster
mask, policy, fade or ranking keys, and nothing else. DELAY_SET sets a tap's delay or a line's length, modulo 2^19.
REGION_ENABLE enables a deferred region and no other; a region that is not deferred gives E_NOTFOUND. MARK changes
nothing. Rests on: Filters, Envelopes and Shaping, Group LFOs and tempo; Voice Allocation and Stealing, Voice groups;
Coefficient Banks, Parameter Updates and Delay Lines, Delay lines in DRAM; The Structure Image and Blocking, The
blocking sequence. -/
def Obligations.SettingEvents : Prop :=
  ∀ (s : State) (f : Nat) (a : EvArgs) (tap : DlyTap) (ln : DlyLine) (gr : Group) (h : Hood) (rg : HRegion),
    let at_ := fun (op : Nat) => applyEvent f none (a.toRec op) s
    let ix := a.w4.toNat % 2 ^ 28
    (s.groups[a.target.toNat]? = some gr → (at_ 0x07).err = .ok ∧ { (at_ 0x07).st with groups := s.groups } = s ∧
      (at_ 0x07).st.groups[a.target.toNat]? = some { gr with
        bi := a.w5.toNat, bp := if a.w4.toNat % 2 = 1 then gr.bp else a.w6.toNat + 2 ^ 32 * a.w7.toNat }) ∧
    (s.groups[a.target.toNat]? = some gr → a.w4.toNat / 2 ^ 28 = 0 → ix < 6 → (at_ 0x05).err = .ok ∧ { (at_ 0x05).st with groups := s.groups } = s ∧
      (at_ 0x05).st.groups[a.target.toNat]? = some (
        [{ gr with limit := a.w5.toNat }, { gr with priority := a.w5.toNat }, { gr with mask := a.w5.toNat },
         { gr with policy := a.w5.toNat }, { gr with fade := a.w5.toNat }, { gr with keys := a.w5.toNat }].getD ix gr)) ∧
    (a.w4.toNat / 2 ^ 28 = 0 → Store.get none s.dly.taps ix = some tap → (at_ 0x0C).err = .ok ∧
      Store.get none (at_ 0x0C).st.dly.taps ix = some { tap with d := a.w5.toNat % 2 ^ 19 } ∧ (at_ 0x0C).st.dly.lines = s.dly.lines) ∧
    (a.w4.toNat / 2 ^ 28 = 1 → Store.get none s.dly.lines ix = some ln → (at_ 0x0C).err = .ok ∧
      Store.get none (at_ 0x0C).st.dly.lines ix = some { ln with len := a.w5.toNat % 2 ^ 19 } ∧ (at_ 0x0C).st.dly.taps = s.dly.taps) ∧
    (s.hood = some h → Store.get none h.dram.regions a.target.toNat = some rg →
      (if rg.deferred = true then (at_ 0x0E).err = .ok ∧ (at_ 0x0E).st.regions.contains a.target.toNat = true ∧
          (∀ k, k ≠ a.target.toNat → ((at_ 0x0E).st.regions.contains k ↔ s.regions.contains k))
        else (at_ 0x0E).err = .notFound ∧ (at_ 0x0E).st = s)) ∧
    ((at_ 0x11).err = .ok ∧ (at_ 0x11).st = s)

/-- Joining, committing and dropping commit sets. A held event with a commit number joins that set at its end when
applied, unless the set holds 64; a COMMIT hands the members of its set, in order, to step 3 and empties the set; a
COMMIT_DROP empties it without effect; any other event leaves all sets alone. Rests on: Frames, Events and
Determinism, Commit sets and atomic parameter groups. -/
def Obligations.CommitSets : Prop :=
  ∀ (s : State) (f : Nat) (e : PendEv), s.carder.sets.length = 15 →
    let q := applyOne f e s
    let n := evTarget e.rec_ - 1
    let j := evCommit e.rec_ - 1
    (evCommit e.rec_ ≠ 0 → q.2 = [] ∧
      q.1.carder.sets = if (s.carder.sets.getD j []).length < 64 then setAt s.carder.sets j (s.carder.sets.getD j [] ++ [⟨e.rec_, e.seq, e.src⟩]) else s.carder.sets) ∧
    (evCommit e.rec_ = 0 → evOp e.rec_ = 0x0F → q.2 = s.carder.sets.getD n [] ∧ q.1.carder.sets = setAt s.carder.sets n []) ∧
    (evCommit e.rec_ = 0 → evOp e.rec_ = 0x10 → q.2 = [] ∧ q.1.carder.sets = setAt s.carder.sets n []) ∧
    (evCommit e.rec_ = 0 → evOp e.rec_ ≠ 0x0F → evOp e.rec_ ≠ 0x10 → q.2 = [] ∧ q.1.carder.sets = s.carder.sets)

/-- NOTE_START, NOTE_RELEASE, NOTE_KILL, VOICE_SET, PLACE_SET and CV_SET as they take effect. By the handle of a
sounding note of its group: NOTE_RELEASE marks it released with its release velocity, the first time only; NOTE_KILL
starts a soft kill over the group's fade and unmaps the tag, or kills at once; VOICE_SET of space 0 sets a controller;
PLACE_SET of index 11 asks for a ramp. A handle of another generation gives E_STALE and counts in the group; an empty
slot gives E_NOTFOUND. CV_SET sets a channel's code, sine increment, amplitude and centre, span (a change starts a
span change) or source, of that channel only. A NOTE_START that succeeds raises the slot's generation by one modulo
256, answers that handle, and either takes a FREE slot from frame f on, or makes a sounding slot fade for the group's
fade and holds the new note until its end; refused, it leaves every slot as it was and counts E_NOVOICE or E_STALE in
its group. Rests on: Voice Allocation and Stealing, Note events; Voice Allocation and Stealing, Naming a note; Voice
Allocation and Stealing, The allocation procedure; Modulation, Placement and Buses, Controllers; Control-Voltage
Outputs, Setting a channel. -/
def Obligations.VoiceEvents : Prop :=
  ∀ (s : State) (f : Nat) (a : EvArgs) (v : Voice) (gr : Group) (c : Cv) (b : Option StartBuf),
    let at_ := fun (op : Nat) => applyEvent f none (a.toRec op) s
    let i := a.w1.toNat % 2 ^ 11
    let g := a.target.toNat
    let x := slotAt s i
    let mine := a.flags.getLsbD 0 = true ∧ x.gen = a.w1.toNat / 2 ^ 24 ∧ x.pend = none ∧ x.fade = none
    let only := fun (q : Applied) => (∀ k, k ≠ i → slotAt q.st k = slotAt s k) ∧ { q.st with slots := s.slots } = s
    let frames := 16 * 2 ^ gr.fade
    let ix := a.w4.toNat % 2 ^ 28
    let start := applyEvent f b (a.toRec 0x01) s
    let j := start.handle % 2 ^ 24
    let old := slotAt s j
    let new := slotAt start.st j
    let note := fun (v : Voice) => v.group = g ∧ v.tag = a.w1.toNat % 2 ^ 24 ∧ v.use = a.w1.toNat / 2 ^ 24 ∧ v.mapped = true ∧ v.released = false ∧
      v.pitch = a.w5.toInt ∧ v.vel = a.w6.toNat / 2 ^ 16 ∧ v.zone = a.w6.toNat % 2 ^ 16 ∧ v.first = start.start
    (mine → x.cur = some v → v.group = g → (at_ 0x02).err = .ok ∧ only (at_ 0x02) ∧
      slotAt (at_ 0x02).st i = { x with cur := some (if v.released then v else { v with released := true, relNow := true, rvel := a.w5.toNat / 2 ^ 16 }) }) ∧
    (mine → x.cur = some v → v.group = g → s.groups[g]? = some gr → (at_ 0x03).err = .ok ∧ only (at_ 0x03) ∧ slotAt (at_ 0x03).st i =
      if x.killed then x else if a.w5.getLsbD 0 then { x with fade := some ⟨f, frames, false⟩, cur := some { v with mapped := false } } else { x with killed := true }) ∧
    (mine → x.cur = some v → v.group = g → a.w4.toNat / 2 ^ 28 = 0 → (at_ 0x04).err = .ok ∧ only (at_ 0x04) ∧
      slotAt (at_ 0x04).st i = { x with cur := some { v with ctl := setAt v.ctl ix a.w5.toInt } }) ∧
    (mine → x.cur = some v → v.group = g → ix = 11 → (at_ 0x06).err = .ok ∧ only (at_ 0x06) ∧
      slotAt (at_ 0x06).st i = { x with cur := some { v with ramp := some (a.w5.toNat % 4) } }) ∧
    (a.flags.getLsbD 0 = true → x.gen ≠ a.w1.toNat / 2 ^ 24 → s.groups[g]? = some gr → ∀ op ∈ [0x02, 0x03, 0x04, 0x06],
      (at_ op).err = .stale ∧ { (at_ op).st with groups := s.groups } = s ∧ (at_ op).st.groups[g]? = some { gr with stale := satInc 255 gr.stale }) ∧
    (mine → x.cur = none → ∀ op ∈ [0x02, 0x03, 0x04, 0x06], (at_ op).err = .notFound ∧ { (at_ op).st with groups := s.groups } = s) ∧
    (s.cv.chans[g]? = some c → (at_ 0x0D).err = .ok ∧ { (at_ 0x0D).st with cv := s.cv } = s ∧ (∀ k, k ≠ g → cvAt (at_ 0x0D).st k = cvAt s k) ∧
      (ix = 0 → cvAt (at_ 0x0D).st g = { c with code := a.w5.toNat % 2 ^ 16 }) ∧ (ix = 3 → cvAt (at_ 0x0D).st g = { c with inc := a.w5.toNat }) ∧
      (ix = 1 → a.w5.toNat % 4 = c.span → cvAt (at_ 0x0D).st g = c) ∧
      (ix = 1 → a.w5.toNat % 4 ≠ c.span → cvAt (at_ 0x0D).st g = { c with span := a.w5.toNat % 4, spanNew := true }) ∧
      (ix = 4 → cvAt (at_ 0x0D).st g = { c with amp := a.w5.toNat / 2 ^ 16, center := a.w5.toNat % 2 ^ 16 }) ∧
      (ix = 2 → a.w5.getLsbD 31 = true → cvAt (at_ 0x0D).st g = { c with mode := true, bsrc := a.w5.getLsbD 30, bus := a.w5.toNat % 2 ^ 9, ph := 0, gen := false })) ∧
    (start.err = .ok → s.groups[g]? = some gr → old.gen < 256 → new.gen = (old.gen + 1) % 256 ∧ start.handle = new.gen * 2 ^ 24 + j ∧
      (voiceCount s g < gr.limit ∨ gr.policy ≠ 0) ∧
      (if old.state = .free then start.start = f ∧ new.pend = none ∧ new.fade = none ∧ (∀ q, new.cur = some q → note q) ∧ new.cur.isSome = true
        else old.state = .sounding ∧ start.start = f + frames ∧ new.fade = some ⟨f, frames, true⟩ ∧ (∀ q, new.pend = some q → note q) ∧ new.pend.isSome = true ∧
          (∀ q, new.cur = some q → q.mapped = false))) ∧
    (start.err = .noVoice → s.groups[g]? = some gr → start.st.slots = s.slots ∧ (∀ t, templateOf s g = some t → start.st.groups[g]? = some { gr with novoice := satInc 255 gr.novoice })) ∧
    (start.err = .stale → s.groups[g]? = some gr → start.st.slots = s.slots ∧ start.st.groups[g]? = some { gr with stale := satInc 255 gr.stale }) ∧
    (start.err = .notFound → start.st = s)

/-- Samples into and out of slots of 16, 24 and 32 bits, and AES3 audio words. An input word of 16, 24 or 32 bits
keeps its top bits and reads zero below. An output sample is rounded by half a last bit, clamped to the word length,
and marked as saturated exactly when the clamp changes it. The 24-bit audio of an AES3 subframe is read as signed and
placed at the top of 32 bits. Rests on: Scope, Variants and Conventions, Number formats and arithmetic conventions;
Audio Ports and Clock Domains, Serial audio ports; Audio Ports and Clock Domains, AES3 interfaces. -/
def Obligations.SampleFormats : Prop :=
  ∀ (w : Word) (x : Int) (n c : Nat) (a : Subframe) (tx : AesTx), n = 16 ∨ n = 24 ∨ n = 32 → -2 ^ 31 ≤ x → x < 2 ^ 31 →
    slotIn n w = w.toInt / 2 ^ (32 - n) * 2 ^ (32 - n) ∧
    (let t := if n = 32 then x else (x + 2 ^ (31 - n)) / 2 ^ (32 - n)
     (slotOut n x).1.toInt = max (-2 ^ (n - 1)) (min (2 ^ (n - 1) - 1) t) * 2 ^ (32 - n) ∧
     ((slotOut n x).2 = true ↔ t < -2 ^ (n - 1) ∨ 2 ^ (n - 1) ≤ t)) ∧
    subAudio a = (BitVec.ofNat 24 a.toNat).toInt * 2 ^ 8 ∧
    (let y := tx.subframe c
     let t := (tx.iface.shifted.getD c 0 + 2 ^ 7) / 2 ^ 8
     subAudio y = max (-2 ^ 23) (min (2 ^ 23 - 1) t) * 2 ^ 8 ∧ subV y = tx.iface.fill ∧ subU y = false ∧ subEven y = true ∧
     subC y = (tx.copy.getD (tx.pos / 32) 0).getLsbD (tx.pos % 32))

/-- Frames, stops and restarts of serial ports; SYNC_START; locks of the sample-rate converter. A frame start of a
running port records the time, counts a frame error where the cycle count differs from the frame length, captures the
ended frame under its number where the count is right and its group has started, and shifts zeros out where no frames
run; other ports stay. A stopped port counts good frames up to sixteen and then restarts, to be numbered at the next
tick (log entry 33). A port with no frame start for the expiry time stops, drives zeros and loses its number. A frame
of an AES3 transmitter counts while its PLL is locked. SYNC_START triggers exactly the armed, unstarted groups of mode
1. An asynchronous domain locks after 1024 good intervals and unlocks after the expiry time without a tick. Rests on:
Audio Ports and Clock Domains, Serial audio ports; Audio Ports and Clock Domains, Frame numbers and FIFOs; Audio Ports
and Clock Domains, Alignment groups; Audio Ports and Clock Domains, The asynchronous sample-rate converter. -/
def Obligations.AudioPorts : Prop :=
  (∀ (s : State) (p : BitVec 3) (x : BitVec 2) (t bclk : Nat) (rise fall : List (BitVec 3)) (h : HPort) (hx : HAes), s.shape = unitCounts →
    s.mode.mode ≠ .reset → s.mode.mode ≠ .sleep →
    let i := (sapAt s p.toNat).iface
    let late := i.s0.getD s.audio.since + expiryTime (domCycles s h.domain) ≤ t
    let port := fun (u : State) => sapAt u p.toNat
    let cyc := pinCycles rise fall
    (hportOf s p.toNat = some h → frameCycles h cyc = none → Does (.portFrame (.sap p) t rise fall) s fun u => u = later t s) ∧
    (hportOf s p.toNat = some h → frameCycles h cyc = some bclk → i.stopped = false → ¬ late → Does (.portFrame (.sap p) t rise fall) s fun u =>
      (port u).iface.s0 = some t ∧ (port u).iface.s1 = i.s0 ∧ (port u).iface.stopped = false ∧
      (port u).framerr = (if i.s0.isSome ∧ bclk ≠ frameLength h then satInc 255 (port s).framerr else (port s).framerr) ∧
      (∀ k, i.num = some k → i.s0.isSome = true → bclk = frameLength h → h.ins ≠ [] → framesRun s = true → syncDomain s h.domain = true →
        grpStarted s h = true → (port u).iface.inF = (startIface h.domain t s (i.capture k (slotSamples h cyc))).inF) ∧
      (framesRun s = false → effMode s ≠ .hold → (port u).iface.shifted = List.replicate h.outs.length 0) ∧
      (port u).before = (port s).sent ∧ (port u).sent = sentWords h (port u).iface.shifted ∧
      (∀ k, k ≠ p.toNat → sapAt u k = sapAt s k)) ∧
    (hportOf s p.toNat = some h → frameCycles h cyc = some bclk → i.stopped = true → i.good < 16 → Does (.portFrame (.sap p) t rise fall) s fun u =>
      (port u).framerr = (if i.s0.isSome ∧ bclk ≠ frameLength h then satInc 255 (port s).framerr else (port s).framerr) ∧
      (port u).iface = { i with good := if bclk = frameLength h ∧ i.s0.isSome then i.good + 1 else 0, s1 := i.s0, s0 := some t }) ∧
    (hportOf s p.toNat = some h → i.stopped = false → late → Does (.portStop p t) s fun u =>
      (port u).iface.stopped = true ∧ (port u).iface.num = none ∧ (∀ v ∈ (port u).iface.shifted, v = 0) ∧
      bitAt u.host.intLatched 8 = true ∧ u.frame = s.frame ∧ u.mode = s.mode) ∧
    (hportOf s p.toNat = some h → i.stopped = true → 16 ≤ i.good → Does (.portRestart p t) s fun u =>
      (port u).iface = { i with stopped := false, good := 0, atTick := true } ∧ bitAt u.host.intLatched 8 = true) ∧
    (htxOf s x.toNat = some hx → Does (.portFrame (.tx x) t rise fall) s fun u =>
      (txAt u x.toNat).iface.s0 = some t ∧ (txAt u x.toNat).count = (if (txAt s x.toNat).pll then (txAt s x.toNat).count + 1 else (txAt s x.toNat).count) ∧
      (txAt u x.toNat).cs = (txAt s x.toNat).cs) ∧
    (Does (.syncStartTrigger t) s fun u =>
      { u with audio := { u.audio with grps := s.audio.grps }, now := s.now } = s ∧
      ∀ g y, s.audio.grps[g]? = some y → u.audio.grps[g]? =
        some (if grpModeOf s g = 1 ∧ y.arm = true ∧ y.started = false ∧ y.trig = none then { y with trig := some t } else y))) ∧
  (∀ (s : State) (d : BitVec 2) (t : Nat), s.shape = unitCounts → s.hood.isSome = true →
    (syncDomain s d.toNat = false → (domAt s d.toNat).lock = false → 1024 ≤ (domAt s d.toNat).run → Does (.asrcLock d) s fun u =>
      (domAt u d.toNat).lock = true ∧ { u with clocks := { u.clocks with dom := s.clocks.dom }, use := s.use } = s) ∧
    ((domAt s d.toNat).lock = true → (domAt s d.toNat).last.getD 0 + expiryTime (domCycles s d.toNat) ≤ t → Does (.asrcUnlock d t) s fun u =>
      domAt u d.toNat = { domAt s d.toNat with lock := false, ratio := 0, run := 0 } ∧
      { u with clocks := { u.clocks with dom := s.clocks.dom }, now := s.now } = s))

/-- AES3 receivers and transmitters: frames, lock, blocks, channel status and non-audio data. A locked receiver takes
a good frame: audio of subframes with even parity, else the last sample, validity bits gathered, parity errors
counted, zeros while the data are not audio. A frame with a violation or a missing preamble counts as bad and repeats
the last samples. Eight good frames lock a receiver, two bad ones unlock it. A complete block gives its channel status
and user bits, PRO, and a CRC error where the professional check byte is wrong. Non-audio ends after 4096 quiet
frames. A transmitter's block start copies the channel status, with its CRC byte generated where CRCGEN is set; its
PLL lock is recorded. Rests on: Audio Ports and Clock Domains, AES3 interfaces. -/
def Obligations.AesPorts : Prop :=
  (∀ (s : State) (r : BitVec 2) (t : Nat) (a b : BitVec 28) (f : AesMarks) (h : HAes) (ca cb ua ub : List Bool), s.shape = unitCounts →
    s.mode.mode ≠ .reset → s.mode.mode ≠ .sleep → hrxOf s r.toNat = some h →
    let x := rxAt s r.toNat
    let rx := fun (u : State) => rxAt u r.toNat
    let raised := fun (u : State) => bitAt u.host.intLatched 8 = true
    (x.lock = true → x.bad < 2 → x.done = false → x.nonaud = false → f.violation = false → f.missing = false → Does (.aesFrameReceive r t a b f) s fun u =>
      (rx u).lock = true ∧ (rx u).bad = 0 ∧ (rx u).iface.s0 = some t ∧
      (rx u).prevA = (if subEven a then subAudio a else x.prevA) ∧ (rx u).prevB = (if subEven b then subAudio b else x.prevB) ∧
      (rx u).va = (x.va || subV a) ∧ (rx u).vb = (x.vb || subV b) ∧
      (rx u).parerr = min 255 (x.parerr + (if subEven a then 0 else 1) + (if subEven b then 0 else 1)) ∧
      (rx u).cur = (if (rx u).nonaud then [0, 0] else [(rx u).prevA, (rx u).prevB]) ∧
      ((rx u).nonaud = true → raised u)) ∧
    (x.lock = true → x.bad < 2 → x.done = false → x.nonaud = false → (f.violation || f.missing) = true → Does (.aesFrameReceive r t a b f) s fun u =>
      (rx u).bad = x.bad + 1 ∧ (rx u).cur = [x.prevA, x.prevB] ∧ (rx u).biphase = (if f.violation then satInc 255 x.biphase else x.biphase)) ∧
    (x.lock = false → 8 ≤ x.good → Does (.aesLock r) s fun u => rx u = { x with lock := true, bad := 0 } ∧ raised u) ∧
    (x.lock = true → 2 ≤ x.bad → Does (.aesUnlock r) s fun u => (rx u).lock = false ∧ (rx u).unlock = satInc 255 x.unlock ∧
      (rx u).cur = [0, 0] ∧ (rx u).iface.lastIn = [0, 0] ∧ raised u) ∧
    (x.done = true → x.blk = some (ca, cb, ua, ub) → Does (.aesBlockComplete r) s fun u =>
      (rx u).csA = packBits 24 (ca.take 192) ∧ (rx u).csB = packBits 24 (cb.take 192) ∧ (rx u).ubA = packBits 24 (ua.take 192) ∧
      (rx u).ubB = packBits 24 (ub.take 192) ∧ (rx u).pro = ca.getD 0 false ∧ (rx u).done = false ∧
      (rx u).crcerr = (x.crcerr || (ca.getD 0 false && (packBits 24 (ca.take 192)).getD 23 0 != aesCrc ((packBits 24 (ca.take 192)).take 23)))) ∧
    (x.nonaud = true → 4096 ≤ x.quiet → x.naA = false → x.naB = false → Does (.nonaudioRelease r) s fun u =>
      rx u = { x with nonaud := false, quiet := 0 } ∧ raised u)) ∧
  (∀ (s : State) (x : BitVec 2) (h : HAes), s.shape = unitCounts → s.mode.mode ≠ .reset → s.mode.mode ≠ .sleep → htxOf s x.toNat = some h →
    let a := txAt s x.toNat
    (a.due = true → a.cs.length = 6 → Does (.aesTxBlockStart x) s fun u =>
      let y := txAt u x.toNat
      y.due = false ∧ y.cs = a.cs ∧ (a.crcgen = false → y.copy = a.cs) ∧
      (a.crcgen = true → y.copy.take 5 = a.cs.take 5 ∧
        y.copy.getD 5 0 = BitVec.ofNat 32 ((a.cs.getD 5 0).toNat % 2 ^ 24 + (aesCrc ((wordBytes a.cs).take 23)).toNat * 2 ^ 24))) ∧
    (a.pll = false → Does (.aesTxPllLock x) s fun u => txAt u x.toNat = { a with pll := true, count := 0 } ∧
      { u with audio := { u.audio with tx := s.audio.tx } } = s))

/-- PDM groups: output samples, settling, stop, restart and the synchronising reset. An output sample advances
settling, takes a requested coefficient bank, and is zero until the preset's settling count has passed; then VALID is
set and signalled. A late group stops, loses VALID and counts; sixteen output periods of clock edges restart it
unsettled. A synchronising reset empties the chain, restarts settling, counts, and zeroes the DC estimates of the
microphones that are not frozen. The chain's arithmetic is open (log entry 12). Rests on: PDM Inputs and Decimation,
The decimation chain; PDM Inputs and Decimation, DC blocker; PDM Inputs and Decimation, Synchronising reset and
settling. -/
def Obligations.PdmGroups : Prop :=
  ∀ (s : State) (k : BitVec 2) (t edges : Nat) (rise fall : List (BitVec 16)) (h : HPdm), s.shape = unitCounts → s.mode.mode ≠ .reset → s.mode.mode ≠ .sleep →
    hpdmOf s k.toNat = some h →
    let g := pdmAt s k.toNat
    let grp := fun (u : State) => pdmAt u k.toNat
    let late := g.iface.s0.getD s.audio.since + expiryTime (domCycles s h.domain) ≤ t
    let settled := presetSettle h.preset ≤ g.settle
    let raised := fun (u : State) => bitAt u.host.intLatched 8 = true
    (g.stopped = false → ¬ late → Does (.pdmOutputSample k t rise fall) s fun u =>
      (grp u).iface.s0 = some t ∧ (grp u).settle = min (presetSettle h.preset) (g.settle + 1) ∧ (grp u).frz = s.audio.frz ∧
      ((grp u).valid = true ↔ g.valid = true ∨ settled) ∧ (grp u).actBank = (if g.swPend then g.bankReq else g.actBank) ∧ (grp u).swPend = false ∧
      (¬ settled → ∀ v ∈ (pdmSample h g rise fall).2, v = 0)) ∧
    (g.stopped = false → g.valid = false → settled → Does (.pdmSettled k) s fun u => grp u = { g with valid := true } ∧ raised u) ∧
    (g.stopped = false → late → Does (.pdmStop k t) s fun u =>
      grp u = { g with stopped := true, valid := false, stops := satInc 255 g.stops, iface := { g.iface with num := none } } ∧ raised u) ∧
    (g.stopped = true → 16 * (32 * 2 ^ h.ratio) ≤ edges → Does (.pdmRestart k edges) s fun u =>
      (grp u).stopped = false ∧ (grp u).valid = false ∧ (grp u).settle = 0 ∧ (grp u).resets = satInc 255 g.resets ∧
      (grp u).iface.atTick = true ∧ raised u) ∧
    (g.srst = true → Does (.synchronisingReset k) s fun u =>
      (grp u).srst = false ∧ (grp u).valid = false ∧ (grp u).settle = 0 ∧ (grp u).resets = satInc 255 g.resets ∧ (grp u).chain = [] ∧
      ∀ n, Store.get 0 (grp u).dc n = if n < 32 ∧ bitAt h.lines (n / 2) = true ∧ bitAt g.frz n = false then 0 else Store.get 0 g.dc n)

/-- Pairing checks, link entries, marks and their loss on a pair. The pairing checks pair the chips exactly when mode
and hood, role and start, part and level, and digest agree, in that order of codes: E_MODE, E_RANGE, E_INCOMPAT,
E_CHECK; the timeout gives E_NOTFOUND. A change of the link is recorded and signalled where enabled. A shadow accepts
a link entry under the lead's sequence and falls out of step on one that is too late; a chip that took over counts it;
a retired one ignores it. A mark with a line violation counts; a good one records its time, and in a running mode
leaves everything in step when frame, digest and, on the shadow, sequence agree, and otherwise clears INSTEP and
counts a mismatch of digests with the frame before. Loss of marks makes the shadow take over at the next tick, and the
lead only loses its partner; FAULT_N seen by the shadow starts a takeover. Rests on: Twin Operation and Failover,
Pairing; Twin Operation and Failover, Marks and digests; Twin Operation and Failover, Event forwarding; Twin Operation
and Failover, Failover. -/
def Obligations.TwinSteps : Prop :=
  (∀ (s : State) (p : PartnerId) (r : Words) (t a : Nat) (partner : Option Nat) (up : Bool), s.shape = unitCounts → s.part.twin = true →
    let role := if s.twin.roleOvr then s.twin.role else s.twin.strap
    let twinHood := s.hood.any fun h => h.hdr.twin
    let fails2 := p.faultHigh = false ∨ s.twin.hasRun = true ∨ p.hasRun = true ∨ twinHood = false
    let fails3 := p.lead = role ∨ p.start.toNat ≠ s.frame.start
    let fails4 := p.part.toNat ≠ s.part.number ∨ p.level.toNat ≠ behavLevel
    let fails5 := p.digest ≠ s.block.digest
    let ready := s.mode.mode = .ready ∧ s.twin.pair = true ∧ s.twin.linkup = true ∧ s.twin.pairAt.isSome = true
    let ended := fun (u : State) (e : Err) => u.twin.result = e.code ∧ u.twin.pairAt = none ∧ u.twin.paired = s.twin.paired ∧
      { u with twin := s.twin } = s
    (ready → ¬ fails2 → ¬ fails3 → ¬ fails4 → ¬ fails5 → Does (.pairingChecks p) s fun u =>
      u.twin.paired = true ∧ u.twin.result = 0 ∧ u.twin.lead = role ∧ u.twin.holder = role ∧ u.twin.instep = true ∧
      u.twin.retired = false ∧ { u with twin := s.twin } = s) ∧
    (ready → fails2 → Does (.pairingChecks p) s fun u => ended u .mode) ∧
    (ready → ¬ fails2 → fails3 → Does (.pairingChecks p) s fun u => ended u .range) ∧
    (ready → ¬ fails2 → ¬ fails3 → fails4 → Does (.pairingChecks p) s fun u => ended u .incompat) ∧
    (ready → ¬ fails2 → ¬ fails3 → ¬ fails4 → fails5 → Does (.pairingChecks p) s fun u => ended u .check) ∧
    (s.twin.pairAt = some a → max a (partner.getD a) + 7864320 ≤ t → Does (.pairingTimeout t partner) s fun u =>
      u.twin.result = Err.notFound.code ∧ u.twin.pairAt = none ∧ u.twin.paired = s.twin.paired ∧ { u with twin := s.twin, now := s.now } = s) ∧
    (s.twin.pairAt = some a → t < max a (partner.getD a) + 7864320 → Does (.pairingTimeout t partner) s fun u => { u with now := s.now } = s) ∧
    (s.twin.linkup ≠ up → (up = true → laneIdle s = false) → Does (.linkupChange up) s fun u =>
      u.twin = { s.twin with linkup := up } ∧ { u with twin := s.twin, host := s.host } = s ∧
      (∀ n, n < 16 → bitAt u.host.intLatched n = (bitAt s.host.intLatched n || (n == 9 && s.twin.linkie)))) ∧
    (s.twin.retired = false → s.twin.paired = true → s.twin.lead = false → s.mode.mode = .runShadow →
      acceptErr s .twin r = .ok → Does (.linkEntry r) s fun u =>
        u.twin.seq = s.carder.seq ∧ u.twin.entries = s.twin.entries ++ [r] ∧
        (evStamp r < openWindow s → u.twin.instep = false ∧ u.twin.lateent = satInc 255 s.twin.lateent ∧
          u.twin.outstep = true ∧ (s.twin.misie = true → s.twin.outstep = false → bitAt u.host.intLatched 9 = true)) ∧
        (openWindow s ≤ evStamp r → u.twin.instep = s.twin.instep ∧ u.twin.outstep = s.twin.outstep)) ∧
    (s.twin.retired = false → s.twin.paired = false → s.twin.tookOver = true → Does (.linkEntry r) s fun u =>
      u = { s with twin := { s.twin with discard := satInc 255 s.twin.discard } }) ∧
    (s.twin.retired = true → Does (.linkEntry r) s fun u => u = s)) ∧
  (∀ (s : State) (m : MarkMsg) (t a : Nat), s.shape = unitCounts → s.part.twin = true → s.twin.paired = true → s.twin.retired = false →
    let shadow := s.twin.lead = false
    let same := m.frame.toNat = s.frame.cnt % 2 ^ 32
    let sequence := m.seq.toNat = s.twin.seqClose ∧ m.ecrc.toNat = s.twin.ecrcClose
    let digest := m.digest.toNat = s.twin.digest
    let raised := fun (u : State) => bitAt u.host.intLatched 9 = true
    (m.violation = true → Does (.markReceive t m) s fun u =>
      u.twin = { s.twin with markerr := satInc 255 s.twin.markerr } ∧ { u with twin := s.twin, now := s.now } = s) ∧
    (m.violation = false → inPeriod s = false → Does (.markReceive t m) s fun u =>
      u.twin.markAt = some t ∧ u.twin.partner = true ∧ u.twin.instep = s.twin.instep ∧ u.twin.mismatch = s.twin.mismatch ∧
      u.twin.startRx = (s.twin.startRx || (!s.twin.lead && m.flags.getLsbD 7 && decide (effMode s = .ready)))) ∧
    (m.violation = false → inPeriod s = true → Does (.markReceive t m) s fun u =>
      u.twin.markAt = some t ∧ u.twin.partner = true ∧ u.mode = s.mode ∧ u.twin.holder = s.twin.holder ∧ u.twin.lead = s.twin.lead ∧
      u.twin.stopRx = (s.twin.stopRx || (!s.twin.lead && m.flags.getLsbD 6 && framesRun s)) ∧
      (same → digest → (shadow → sequence) → u.twin.instep = s.twin.instep ∧ u.twin.outstep = s.twin.outstep ∧
        u.twin.mismatch = s.twin.mismatch ∧ u.twin.mismN = s.twin.mismN ∧ u.twin.misf = s.twin.misf ∧ u.host = s.host) ∧
      (¬ same → u.twin.instep = false ∧ u.twin.mismatch = s.twin.mismatch) ∧
      (shadow → ¬ same ∨ ¬ sequence → u.twin.instep = false ∧
        u.twin.outstep = true ∧ (s.twin.misie = true → s.twin.outstep = false → raised u)) ∧
      (same → ¬ digest → u.twin.mismatch = true ∧ u.twin.instep = false ∧ u.twin.mismN = satInc 255 s.twin.mismN ∧
        u.twin.misf = (if s.twin.mismatch then s.twin.misf else (s.frame.cnt - 1) % 2 ^ 32) ∧ (s.twin.misie = true → raised u))) ∧
    (s.twin.markAt = some a → a + expiryTime (rateOf s).cycles ≤ t → effMode s = .runShadow → s.twin.takeNext = none → s.twin.takeYield = none →
      Does (.markLoss t) s fun u =>
        u.twin = { s.twin with takeNext := some (a + expiryTime (rateOf s).cycles), partner := false } ∧ u.mode = s.mode ∧
        u.frame = s.frame ∧ (s.flt.log.length < 16 → u.flt.log = s.flt.log ++ [⟨0x0B, 0xFF, 0, s.frame.cnt % 2 ^ 32⟩])) ∧
    (s.twin.markAt = some a → a + expiryTime (rateOf s).cycles ≤ t → effMode s = .runLead → s.twin.partner = true → Does (.markLoss t) s fun u =>
      u.twin = { s.twin with partner := false } ∧ (s.twin.tkie = true → raised u) ∧ { u with twin := s.twin, host := s.host, now := s.now } = s) ∧
    (effMode s = .runShadow → shadow → s.twin.takeNext = none → s.twin.takeYield = none → Does (.faultNSeen t) s fun u =>
      u.twin = { s.twin with faultN := true, takeYield := some s.frame.cnt, handOver := some ⟨s.frame.cnt + 1, true⟩ } ∧
      u.mode = s.mode ∧ u.frame = s.frame))

/-- Yield, retirement, planned swap and takeover of a pair. LEAD_YIELD in RUN_LEAD shuts the lead's acceptance, keeps
the mode, and logs class 0x0B. A lead that sees FAULT_N without pulling it retires: unpaired, out of step, every audio
output at high impedance. Two frames after a swap request the roles are exchanged, and the outputs follow two frames
later. A shadow that is due to take over does so at the next good tick: RUN, the frame begins, TOOK and its frame are
recorded, it holds the outputs and pulls FAULT_N. Rests on: Twin Operation and Failover, Failover; Twin Operation and
Failover, Planned swap; Twin Operation and Failover, Outputs in a pair. -/
def Obligations.TwinRoles : Prop :=
  ∀ (s : State) (t x a : Nat), s.shape = unitCounts → s.part.twin = true → s.twin.paired = true → s.twin.retired = false →
    let raised := fun (u : State) => s.twin.tkie = true → bitAt u.host.intLatched 9 = true
    (s.mode.mode = .runLead → s.twin.yieldAt = none → Does .leadYield s fun u =>
      u.twin = { s.twin with yieldAt := some s.frame.cnt, shut := true } ∧ u.mode = s.mode ∧ u.frame = s.frame ∧
      (s.flt.log.length < 16 → u.flt.log = s.flt.log ++ [⟨0x0B, 0xFF, 2, s.frame.cnt % 2 ^ 32⟩])) ∧
    (s.twin.lead = true → s.twin.faultN = true → s.twin.pull = false → Does .leadRetire s fun u =>
      u.twin.retired = true ∧ u.twin.instep = false ∧ u.twin.paired = false ∧ u.twin.holder = false ∧ u.twin.yielded = true ∧
      u.twin.cause = 3 ∧ u.twin.tkf = s.frame.cnt % 2 ^ 32 ∧ u.twin.lead = false ∧ raised u ∧ (s.mode.mode = .runLead → u.mode.mode = .runShadow) ∧
      (∀ m, audioDrive u m = .highZ)) ∧
    (s.twin.swapAt = some x → s.frame.cnt = x + 2 → s.twin.handOver = none → s.mode.mode = .runLead ∨ s.mode.mode = .runShadow →
      Does .swapRoleExchange s fun u =>
        u.twin.lead = !s.twin.lead ∧ u.mode.mode = (if s.mode.mode = .runLead then .runShadow else .runLead) ∧
        u.twin.handOver = some ⟨x + 4, !s.twin.lead⟩ ∧ u.twin.shut = false ∧ u.twin.instep = s.twin.instep ∧
        u.twin.holder = s.twin.holder ∧ u.frame = s.frame ∧ u.carder = s.carder) ∧
    (s.mode.mode = .runShadow → s.twin.takeNext = some a → a ≤ t → s.twin.takeYield = none → s.twin.yieldAt = none → s.twin.lead = false →
      s.twin.faultN = false → s.twin.swapAt = none → s.frame.open_ = false → s.clocks.heldAt = none → leaves s = false → goodTick t s → Does (.takeover t) s fun u =>
        FrameBegun s u t (nextFrame s) ∧ u.mode.mode = .run ∧ u.twin.took = true ∧ u.twin.cause = 2 ∧
        u.twin.tkf = nextFrame s % 2 ^ 32 ∧ u.twin.seq = s.twin.seq ∧ u.twin.paired = false ∧ u.twin.holder = true ∧ u.twin.pull = true ∧
        raised u)

/-- Writes of AUD_GRP, PDM_CTL, PDM_CDATA and TWIN_CTL, and their refusals. GROUP_GO arms and triggers a group where
the mode allows and GO finds a group of mode 2 armed and not started; an undefined group is E_ABSENT, another state
E_MODE. A PDM_CTL write requests a bank and a synchronising reset where audio can run; PDM_CDATA writes one
coefficient of the inactive bank and steps the index; out of range, busy or reserved writes are refused with E_RANGE,
E_BUSY or E_RSVD; a read of it gives the coefficient and steps the index. TWIN_CTL sets the enables, asks for pairing
or ends it in READY, and asks for a swap on an in-step lead; the role override changes only unpaired in READY; a
second swap is E_BUSY, reserved bits E_RSVD, else E_MODE. A refused write changes only HOST_ERR and that port's latch.
Rests on: Audio Ports and Clock Domains, Registers; PDM Inputs and Decimation, Registers; Twin Operation and Failover,
Registers; Host Port and Registers, Write validation and HOST_ERR. -/
def Obligations.AudioTwinRegisters : Prop :=
  (∀ (s : State) (p : Port) (g k : BitVec 2) (v : Word) (y : AudGrp) (h : HPdm), s.shape = unitCounts → s.accessible →
    let t := emptyWrite p (turnTo p 0 s)
    let running := framesRun s = true ∨ effMode s = .ready
    let held := running ∨ effMode s = .hold
    let go := v.getLsbD 29 = true → grpModeOf s g.toNat = 2 ∧ y.arm = true ∧ y.started = false
    let x := pdmAt s k.toNat
    let b := v.getLsbD 30
    let z := pdmAt s s.audio.selGroup
    let coef := fun (u : State) (n i : Nat) => Store.get 0 (if n = 0 then (pdmAt u s.audio.selGroup).bank0 else (pdmAt u s.audio.selGroup).bank1) i
    let written := fun (u : State) =>
      pdmAt u k.toNat = { x with bankReq := b.toNat, swPend := decide (b.toNat ≠ x.actBank), srst := x.srst || v.getLsbD 31 } ∧
      (∀ j, j ≠ k.toNat → pdmAt u j = pdmAt s j) ∧ { u with audio := { u.audio with pdm := s.audio.pdm } } = t
    let spare := v &&& 0x3FFFFFFF#32 = 0
    (s.audio.grps[g.toNat]? = some y → grpDefined s g.toNat = true → running → go → v &&& 0x1CFFFF00#32 = 0 → Does (.groupGo p g v) s fun u =>
      u.audio.grps[g.toNat]? = some { y with arm := v.getLsbD 30, trig := if v.getLsbD 29 = true ∧ y.trig = none then some s.now else y.trig } ∧
      (∀ j, j ≠ g.toNat → u.audio.grps[j]? = s.audio.grps[j]?) ∧ { u with audio := { u.audio with grps := s.audio.grps } } = t) ∧
    (grpDefined s g.toNat = false → Refuses (.groupGo p g v) s p 0 (0xE50 + 2 * g.toNat) .absent) ∧
    (s.audio.grps[g.toNat]? = some y → grpDefined s g.toNat = true → ¬ (running ∧ go) → Refuses (.groupGo p g v) s p 0 (0xE50 + 2 * g.toNat) .mode) ∧
    (hpdmOf s k.toNat = some h → held → spare → Does (.srst p k v) s written ∧ Does (.pdmBankRequest p k v) s written) ∧
    (hpdmOf s k.toNat = some h → ¬ held → Refuses (.srst p k v) s p 0 (0x1088 + 2 * k.toNat) .mode ∧
      Refuses (.pdmBankRequest p k v) s p 0 (0x1088 + 2 * k.toNat) .mode) ∧
    (hpdmOf s k.toNat = some h → held → ¬ spare → Refuses (.srst p k v) s p 0 (0x1088 + 2 * k.toNat) .rsvd ∧
      Refuses (.pdmBankRequest p k v) s p 0 (0x1088 + 2 * k.toNat) .rsvd) ∧
    (hpdmOf s s.audio.selGroup = some h → held → s.audio.selWord < presetTaps h.preset / 2 → z.swPend = false → s.audio.selBank ≠ z.actBank →
      s.audio.selBank < 2 → s.audio.selGroup < 4 → Does (.pdmCdataAccess p true v) s fun u =>
        coef u s.audio.selBank s.audio.selWord = v ∧ (∀ i, i ≠ s.audio.selWord → coef u s.audio.selBank i = coef s s.audio.selBank i) ∧
        (∀ i, coef u (1 - s.audio.selBank) i = coef s (1 - s.audio.selBank) i) ∧ u.audio.selWord = (s.audio.selWord + 1) % 64 ∧
        { u with audio := s.audio } = t) ∧
    (hpdmOf s s.audio.selGroup = some h → held → presetTaps h.preset / 2 ≤ s.audio.selWord → Refuses (.pdmCdataAccess p true v) s p 0 0x10A4 .range) ∧
    (hpdmOf s s.audio.selGroup = some h → held → s.audio.selWord < presetTaps h.preset / 2 → z.swPend = true ∨ s.audio.selBank = z.actBank →
      Refuses (.pdmCdataAccess p true v) s p 0 0x10A4 .busy) ∧
    (Does (.pdmCdataAccess p false v) s fun u =>
      u.host.readOut.map (·.toNat) = [(coef s s.audio.selBank s.audio.selWord).toNat % 2 ^ 16, (coef s s.audio.selBank s.audio.selWord).toNat / 2 ^ 16] ∧
      { u with host := s.host } = { s with audio := { s.audio with selWord := (s.audio.selWord + 1) % 64 } })) ∧
  (∀ (s : State) (p : Port) (v : Word), s.shape = unitCounts → s.part.twin = true → s.accessible →
    let w := s.twin
    let t := emptyWrite p (turnTo p 0 s)
    let keeps := v.getLsbD 29 = w.roleOvr ∧ v.getLsbD 28 = w.role
    let ready := s.mode.mode = .ready
    let may := (ready ∨ v.getLsbD 31 = w.pair) ∧ (keeps ∨ ready ∧ w.pair = false)
    let swaps := s.mode.mode = .runLead ∧ w.instep = true ∧ w.partner = true
    let set := { w with roleOvr := v.getLsbD 29, role := v.getLsbD 28, misie := v.getLsbD 2, tkie := v.getLsbD 1, linkie := v.getLsbD 0, written := true }
    let spare := v &&& 0x0FFFFFF8#32 = 0
    (may → ready → v.getLsbD 31 = true → v.getLsbD 30 = false → spare → Does (.pair p v) s fun u =>
      u = { t with twin := { set with pair := true, pairAt := if w.paired then w.pairAt else some (w.pairAt.getD s.now) } }) ∧
    (may → ready → v.getLsbD 31 = false → v.getLsbD 30 = false → spare → Does (.pair p v) s fun u =>
      u.twin.pair = false ∧ (w.pair = true → u.twin.paired = false ∧ u.twin.instep = false ∧ u.twin.pairAt = none) ∧
      (w.pair = false → u.twin = set) ∧ { u with twin := s.twin } = t) ∧
    (¬ may → s.mode.mode ≠ .handover → Refuses (.pair p v) s p 0 0x1100 .mode ∧ Refuses (.swap p v) s p 0 0x1100 .mode) ∧
    (may → (v.getLsbD 30 = true → swaps) → ¬ spare → Refuses (.pair p v) s p 0 0x1100 .rsvd ∧ Refuses (.swap p v) s p 0 0x1100 .rsvd) ∧
    (may → swaps → v.getLsbD 30 = true → v.getLsbD 31 = true → w.paired = true → spare → w.swapAt = none → Does (.swap p v) s fun u =>
      u = { t with twin := { set with pair := true, swapAt := some s.frame.cnt } }) ∧
    (may → swaps → v.getLsbD 30 = true → spare → w.swapAt ≠ none → Refuses (.swap p v) s p 0 0x1100 .busy) ∧
    (may → v.getLsbD 30 = true → s.mode.mode ≠ .handover → ¬ swaps → Refuses (.swap p v) s p 0 0x1100 .mode))

/-- Register writes of both ports: where they go, the write latch, commits and refusals. A write outside the pages or
to no register is E_RSVD, beyond the port's reach E_SECURITY, to an absent register E_ABSENT (CV_POL from the host
port E_SECURITY), to a read-only register E_MODE; HPAGE takes the page. INT_EN0, INT_EN1, INT_SEN, INT_STAT (which
clears the latched bits written as ones), FLT_CFG and FRAME_START (in READY, below 2^63) take their value or are
refused with E_RSVD, E_MODE or E_RANGE; HOST_CFG resets the other port's interface where its own port may. A lower
word is held in the latch, which another register's word empties; the top word commits the register with the held
words; without one it is E_FORMAT; a one-word register commits at once. Byte enables must both be low on page 0. A
ring memory write changes exactly its bytes. Rests on: Host Port and Registers, The address space; Host Port and
Registers, Registers wider than the bus; Host Port and Registers, Write validation and HOST_ERR; Host Port and
Registers, Registers. -/
def Obligations.RegisterWrites : Prop :=
  (∀ (s : State) (p : Port) (a : RegAddr) (v : DWord) (c : Word) (x : RegAt) (i : BitVec 1), s.shape = unitCounts → s.accessible →
    let t := emptyWrite p (turnTo p 0 s)
    let page := a.page.toNat
    let off := a.off.toNat
    let write := Instr.registerWrite (.port p) a v
    let w := v.toNat % 2 ^ 32
    let fits := regFind page off = some x ∧ reaches p page off = true ∧ inRingMem page off = false ∧ off ≠ 0xFFFF
    let cfg := fun (u : State) => (u.host.sintod, u.host.intod) = (c.getLsbD 2, c.getLsbD 1)
    (off ≠ 0xFFFF → 3 < page → Refuses write s p page off .rsvd) ∧
    (off ≠ 0xFFFF → page ≤ 3 → reaches p page off = false → 
      Refuses write s p page (((regFind page off).map (·.base)).getD off) .security) ∧
    (off ≠ 0xFFFF → page ≤ 3 → reaches p page off = true → inRingMem page off = false → regFind page off = none → Refuses write s p page off .rsvd) ∧
    (fits → regAbsent s x.reg = true → Refuses write s p page x.base (if x.reg = .cvPol ∧ p = .host then .security else .absent)) ∧
    (fits → regAbsent s x.reg = false → x.writable = false → Refuses write s p page x.base .mode) ∧
    (p = .host → off = 0xFFFF → v.toNat % 2 ^ 16 < 256 → Does write s fun u => u = { s with host := { s.host with hpage := v.toNat % 2 ^ 16 } }) ∧
    (p = .spi → off = 0xFFFF → Refuses write s p page off .rsvd) ∧
    (page = 0 → off = 0x18 + 2 * i.toNat → w < 2 ^ 17 → Does write s fun u =>
      u = { t with host := { t.host with intEn0 := if i = 0 then w else t.host.intEn0, intEn1 := if i = 0 then t.host.intEn1 else w } }) ∧
    (page = 0 → off = 0x18 + 2 * i.toNat → 2 ^ 17 ≤ w → Refuses write s p 0 off .rsvd) ∧
    (page = 0 → off = 0x1C → w < 2 ^ 17 → Does write s fun u => u = { t with host := { t.host with intSen := w } }) ∧
    (page = 0 → off = 0x16 → w < 2 ^ 17 → Does write s fun u => { u with host := t.host } = t ∧
      { u.host with intLatched := 0 } = { t.host with intLatched := 0 } ∧
      ∀ n, n < 17 → bitAt u.host.intLatched n = (bitAt s.host.intLatched n && !(bitAt w n && [2, 7, 8, 9, 10, 14].contains n))) ∧
    (page = 0 → off = 0x170C → w < 8 → Does write s fun u =>
      u = { t with flt := { t.flt with eccsafe := bitAt w 2, vcsafe := bitAt w 1, engsafe := bitAt w 0 } }) ∧
    (page = 0 → off = 0x44 → s.mode.mode = .ready → v.toNat < 2 ^ 63 → Does write s fun u => u = { t with frame := { t.frame with start := v.toNat } }) ∧
    (page = 0 → off = 0x44 → s.mode.mode ≠ .ready → Refuses write s p 0 off .mode) ∧
    (page = 0 → off = 0x44 → s.mode.mode = .ready → 2 ^ 63 ≤ v.toNat → Refuses write s p 0 off .range) ∧
    (c &&& 0x3FFFFFF8#32 = 0 → c.getLsbD 31 = false → Does (.sync .host c) s fun u => cfg u ∧ u.host.sync = c.getLsbD 0 ∧
      u.host.spiPort = (if c.getLsbD 30 then ⟨none, none⟩ else s.host.spiPort) ∧ { u with host := t.host } = t ∧
      Does (.srstSpi c) s fun q => q = u) ∧
    (c &&& 0x3FFFFFF8#32 = 0 → c.getLsbD 30 = false → Does (.prst c) s fun u => cfg u ∧ u.host.sync = (c.getLsbD 0 && !c.getLsbD 31) ∧
      u.host.hpage = (if c.getLsbD 31 then 0 else s.host.hpage) ∧ u.host.hostPort = (if c.getLsbD 31 then ⟨none, none⟩ else s.host.hostPort) ∧
      u.host.wins = s.host.wins ∧ { u with host := t.host } = t) ∧
    (c.getLsbD 31 = true → Refuses (.sync .host c) s .host 0 0x14 .security ∧ Refuses (.srstSpi c) s .host 0 0x14 .security) ∧
    (c.getLsbD 30 = true → Refuses (.prst c) s .spi 0 0x14 .security)) ∧
  (∀ (s : State) (p : Port) (a : RegAddr) (w : HWord) (be : BitVec 2) (x : RegAt) (l : WriteLatch) (w0 w1 w2 : HWord), s.shape = unitCounts → s.accessible →
    let page := a.page.toNat
    let off := a.off.toNat
    let here := (p = .host → s.host.hpage = page ∧ be = 3) ∧ page ≤ 3 ∧ reaches p page off = true ∧ inRingMem page off = false ∧ off ≠ 0xFFFF ∧
      regFind page off = some x
    let held := (portSt s p).wr = some l ∧ l.page = page ∧ l.base = x.base
    let base : RegAddr := ⟨a.page, BitVec.ofNat 16 x.base⟩
    let early := fun (e : Err) => e = .security ∨ e = .absent ∨ e = .mode
    let byte := fun (u : State) (n : Nat) => Memory.read 0 u.ringMem (65536 * (page - 1) + n)
    (here → off + 1 < x.base + x.width → Does (.lowerWordWrite p a w be) s fun u =>
      { u with host := s.host } = s ∧ (portSt u p).rd = (portSt s p).rd ∧ (portSt u p).wr.isSome = true ∧
      ∀ q, (portSt u p).wr = some q → q.page = page ∧ q.base = x.base ∧ Store.get none q.words (off - x.base) = some w ∧
        ∀ k, k ≠ off - x.base → Store.get none q.words k =
          if (portSt s p).wr.any fun l => decide (l.page = page ∧ l.base = x.base) then (portSt s p).wr.bind fun l => Store.get none l.words k else none) ∧
    (here → x.width = 2 → off = x.base + 1 → held → Store.get none l.words 0 = some w0 → Does (.lowerWordWrite p a w be) s fun u =>
      Does (.registerWrite (.port p) base ((w ++ w0).setWidth 64)) s fun q => u = q) ∧
    (here → x.width = 4 → off = x.base + 3 → held → Store.get none l.words 0 = some w0 → Store.get none l.words 1 = some w1 →
      Store.get none l.words 2 = some w2 → Does (.lowerWordWrite p a w be) s fun u =>
        Does (.registerWrite (.port p) base (w ++ w2 ++ w1 ++ w0)) s fun q => u = q) ∧
    (here → x.width = 1 → Does (.lowerWordWrite p a w be) s fun u => Does (.registerWrite (.port p) base (w.setWidth 64)) s fun q => u = q) ∧
    (here → 1 < x.width → off + 1 = x.base + x.width → (portSt s p).wr = none →
      let e := writeErr s (.port p) x (w.toNat * 2 ^ (16 * (x.width - 1)))
      Refuses (.lowerWordWrite p a w be) s p page x.base (if early e then e else .format)) ∧
    (p = .host → s.host.hpage = 0 → be ≠ 3 → off ≠ 0xFFFF → regFind 0 off = some x →
      let e := writeErr s (.port p) x (partValue s p x (off - x.base) (mergeBytes w 0 be))
      Refuses (.lowerWordWrite p a w be) s p 0 x.base (if early e then e else .rsvd)) ∧
    ((p = .host → s.host.hpage = page) → 1 ≤ page → page ≤ 3 → off < 0x8000 → Does (.lowerWordWrite p a w be) s fun u =>
      (byte u (2 * off)).toNat = (if p = .spi ∨ be.getLsbD 0 = true then w.toNat % 256 else (byte s (2 * off)).toNat) ∧
      (byte u (2 * off + 1)).toNat = (if p = .spi ∨ be.getLsbD 1 = true then w.toNat / 256 else (byte s (2 * off + 1)).toNat) ∧
      (∀ n, n ≠ 65536 * (page - 1) + 2 * off → n ≠ 65536 * (page - 1) + 2 * off + 1 → Memory.read 0 u.ringMem n = Memory.read 0 s.ringMem n) ∧
      { u with ringMem := s.ringMem } = s))

/-- Register and memory reads of both ports, read-to-clear registers, and SPI transactions. A read of no register, a
reserved page or an item out of reach gives zero and records nothing. A read of a base word gives its part of the
register and latches the whole; reads of the other words come from that latch, or from the register where nothing is
latched. Reading HOST_ERR, CARDER_DISC, CLK_CNT, DLY_STAT, RST_STAT, ECC_CNT and TEMP_STAT gives and clears their
counts. A FLT_LOG read gives and removes the oldest entry, or zero. Ring memory reads give its bytes. An SPI write
stores each word in turn and an SPI read gives each word; FRAME_CNT reads are whole, and a longer read starts again;
SPI_STATUS gives the interrupt and refusal bits and clears the refusal; an unknown command records E_RSVD. Rests on:
Host Port and Registers, The address space; Host Port and Registers, Registers wider than the bus; Host Port and
Registers, SPI service port; Power, Reset, Modes and Faults, The fault log. -/
def Obligations.PortReads : Prop :=
  (∀ (s : State) (p : Port) (a : RegAddr) (x : RegAt) (l : ReadLatch) (e : FaultEntry) (es : List FaultEntry), s.shape = unitCounts → s.accessible →
    let page := a.page.toNat
    let off := a.off.toNat
    let k := off - x.base
    let here := (p = .host → s.host.hpage = page) ∧ off ≠ 0xFFFF
    let gets := fun (u : State) (ws : List Nat) => u.host.readOut.map (·.toNat) = ws
    let words := fun (v n : Nat) => (List.range n).map fun i => v / 2 ^ (16 * i) % 2 ^ 16
    let fits := page ≤ 3 ∧ reaches p page off = true ∧ inRingMem page off = false ∧ regFind page off = some x
    let clears := fun (off : Nat) (r : Reg) (q : State) => Does (.readClear p ⟨0, BitVec.ofNat 16 off⟩) s fun u =>
      gets u (words (regVal s r) (if r = .hostErr then 4 else 2)) ∧ { u with host := s.host } = q
    (here → 3 < page ∨ reaches p page off = false → Does (.baseWordRead p a) s fun u => u = { s with host := { s.host with readOut := [0] } }) ∧
    (here → page ≤ 3 → inRingMem page off = false → regFind page off = none → Does (.baseWordRead p a) s fun u =>
      u = { s with host := { s.host with readOut := [0] } }) ∧
    (here → 1 ≤ page → page ≤ 3 → off < 0x8000 → Does (.baseWordRead p a) s fun u =>
      gets u [(Memory.read 0 s.ringMem (65536 * (page - 1) + 2 * off)).toNat + 256 * (Memory.read 0 s.ringMem (65536 * (page - 1) + 2 * off + 1)).toNat] ∧
      { u with host := { u.host with readOut := s.host.readOut } } = s) ∧
    (here → fits → k = 0 → 1 < x.width → (∀ c i, x.reg ≠ .aesRxcs c i ∧ x.reg ≠ .aesRxub c i) → Does (.baseWordRead p a) s fun u =>
      gets u [regVal s x.reg % 2 ^ 16] ∧ (portSt u p).rd = some ⟨page, x.base, regVal s x.reg⟩ ∧ (portSt u p).wr = (portSt s p).wr) ∧
    (here → fits → 0 < k → (portSt s p).rd = some l → l.page = page → l.base = x.base → Does (.baseWordRead p a) s fun u =>
      gets u [l.value / 2 ^ (16 * k) % 2 ^ 16] ∧ (portSt u p).rd = some l ∧ u.flt = s.flt ∧ u.twin = s.twin ∧ u.frame = s.frame) ∧
    (here → fits → 0 < k → (portSt s p).rd = none → Does (.baseWordRead p a) s fun u =>
      gets u [regVal s x.reg / 2 ^ (16 * k) % 2 ^ 16] ∧ (portSt u p).rd = none) ∧
    (clears 0x0010 .hostErr s ∧ clears 0x004C .carderDisc { s with carder := { s.carder with disc := 0 } } ∧
      clears 0x0E04 .clkCnt { s with clocks := { s.clocks with glitch := 0, held := 0, loss := 0, rateN := 0 } } ∧
      clears 0x0D00 .dlyStat { s with dly := { s.dly with late := 0, eccue := 0, wfault := 0 } } ∧
      clears 0x1706 .rstStat { s with mode := { s.mode with crst := 0, wdg := 0 } } ∧
      clears 0x1714 .eccCnt { s with flt := { s.flt with dce := 0, due := 0, sce := 0 } } ∧
      clears 0x1716 .tempStat { s with flt := { s.flt with tmax := 0 } } ∧
      Does (.readClear p ⟨0, 0x0010⟩) s fun u => u.host.errCount = 0) ∧
    (s.flt.log = e :: es → e.cls < 256 → e.unit < 256 → e.resp < 16 → e.frame < 2 ^ 32 → Does (.fltLogRead p) s fun u =>
      gets u [e.frame % 2 ^ 16, e.frame / 2 ^ 16, 4096 * e.resp, 256 * e.cls + e.unit] ∧
      { u with host := s.host } = { s with flt := { s.flt with log := es } }) ∧
    (s.flt.log = [] → Does (.fltLogRead p) s fun u => gets u [0, 0, 0, 0] ∧ { u with host := s.host } = s)) ∧
  (∀ (s : State) (a : RegAddr) (ws : List HWord) (n : Nat) (c : Byte), s.shape = unitCounts → s.accessible →
    let page := a.page.toNat
    let off := a.off.toNat
    let at_ := fun (k : Nat) => 65536 * (page - 1) + 2 * (off + k)
    (1 ≤ page → page ≤ 3 → off + ws.length ≤ 0x8000 → Does (.spiWrite a ws) s fun u =>
      (∀ k, k < ws.length → (Memory.read 0 u.ringMem (at_ k)).toNat = (ws.getD k 0).toNat % 256 ∧
        (Memory.read 0 u.ringMem (at_ k + 1)).toNat = (ws.getD k 0).toNat / 256) ∧
      (∀ b, b < at_ 0 ∨ at_ ws.length ≤ b → Memory.read 0 u.ringMem b = Memory.read 0 s.ringMem b) ∧ { u with ringMem := s.ringMem } = s) ∧
    (1 ≤ page → page ≤ 3 → off + n ≤ 0x8000 → Does (.spiRead a n) s fun u =>
      u.host.readOut.map (·.toNat) = ((List.range n).map fun k =>
        (Memory.read 0 s.ringMem (at_ k)).toNat + 256 * (Memory.read 0 s.ringMem (at_ k + 1)).toNat) ∧
      { u with host := { u.host with readOut := s.host.readOut } } = s) ∧
    (page = 0 → off = 0x40 → Does (.spiRead a 4) s fun u =>
      u.host.readOut.map (·.toNat) = ((List.range 4).map fun k => regVal s .frameCnt / 2 ^ (16 * k) % 2 ^ 16) ∧ { u with host := s.host } = s) ∧
    (page = 0 → off = 0x40 → Does (.spiRead a 8) s fun u => u.host.readOut.drop 4 = u.host.readOut.take 4) ∧
    (Does .spiStatus s fun u =>
      u = { s with host := { s.host with spiStatOut := BitVec.ofNat 8 ((if sintAsserted s then 128 else 0) + if s.host.spiRefused then 64 else 0),
                                         spiRefused := false } }) ∧
    ([0x02#8, 0x0B, 0x05].contains c = false → Does (.spiInvalidCommand c) s fun u =>
      u = { s with host := { s.host with errCount := satInc 255 s.host.errCount, errPort := .spi, errCode := Err.rsvd.code, errPage := 0, errOff := 0 } }) ∧
    (off = 0xFFFF → Does (.spiRead a 1) s fun u => u.host.readOut = [0] ∧ { u with host := { u.host with readOut := s.host.readOut } } = s))

/-- RUN, STOP, SLEEP, SERVICE and READY requests by a port or a mailbox channel, and MODE_STATUS. Outside LOAD and
HANDOVER: RUN in READY sets the pending start; STOP ends a running period at its next tick, a pending start, or HOLD;
SLEEP in LOADER or READY, with windows and update idle, enters SLEEP with hood, frame and log kept and mailboxes
emptied; SERVICE in READY stops the engines; READY from SAFE or SERVICE returns, with a restore where the DRAM is in
use. A request that the mode does not allow is E_MODE, one during a restore, a pending start, a standing fault or
unfinished windows or updates E_BUSY, through HOST_ERR or the reply. In LOAD and HANDOVER a port's request is E_BUSY.
MODE_STATUS answers mode, the mode that a handover began in, pending start and restore. Rests on: Power, Reset, Modes
and Faults, Modes and transitions; Power, Reset, Modes and Faults, SLEEP; Rings, Mailboxes and the Task Scheduler,
Ilukin messages. -/
def Obligations.ModeRequests : Prop :=
  ∀ (s : State) (p : Port) (c : BitVec 4) (q : Byte), s.shape = unitCounts → s.mode.mode ≠ .reset → s.mode.mode ≠ .sleep →
    let m := s.mode.mode
    let free := m ≠ .load ∧ m ≠ .handover
    let shadow := s.twin.paired = true ∧ s.twin.lead = false
    let msg := fun (r : Nat) => request 3 2 q [BitVec.ofNat 32 r]
    let asked := fun (r : Nat) => m ≠ .loader ∧ Asked s c.toNat (msg r)
    let answered := fun (u : State) (r : Nat) (e : Err) => Replied s u c.toNat (msg r) e []
    let mayRun := m = .ready ∧ ¬ shadow ∧ (s.twin.hasRun = true → dramOn s = true)
    let mayStop := (inPeriod s = true ∨ m = .ready ∧ s.mode.pend ≠ none) ∧ ¬ shadow
    let maySleep := (m = .loader ∨ m = .ready) ∧ s.twin.paired = false
    let mayServe := m = .ready ∧ s.twin.paired = false
    let mayReady := m = .safe ∨ m = .service
    let idle := (s.host.wins.any fun w => w.busy) = false ∧ s.fw.stage = .idle
    let runs := fun (u : State) => u.mode = { s.mode with pend := some s.now } ∧ (s.twin.paired = true → u.twin.startReq = true) ∧ u.frame = s.frame
    let stops := fun (u : State) => (m = .run → s.twin.paired = false → u.mode = { s.mode with stop := true } ∧ u.frame = s.frame) ∧
      (m = .runLead → s.twin.paired = true → u.mode = s.mode ∧ u.twin.stopReq = true) ∧
      (m = .ready → u.mode = { s.mode with pend := none }) ∧
      (m = .hold → s.hood.isSome = true → u.mode.mode = .ready ∧ u.carder.store = [] ∧ u.slots = [] ∧
        u.frame.start = (if s.frame.ran then s.frame.cnt + 1 else s.frame.start) ∧ u.mode.rest = dramOn s)
    let sleeps := fun (u : State) => u.mode.mode = .sleep ∧ u.hood = s.hood ∧ u.frame = s.frame ∧ u.flt.log = s.flt.log ∧
      (∀ i, i < 16 → (mbxAt u i).infull = false ∧ (mbxAt u i).outfull = false)
    let serves := fun (u : State) => u.mode = { s.mode with mode := .service, pend := none } ∧
      ∀ i, i < 16 → (engAt u i).phase = (if (engAt s i).phase = .stopped then .stopped else .idle)
    let readies := fun (u : State) => u.mode = { s.mode with mode := .ready, rest := if m = .safe then dramOn s else s.mode.rest } ∧
      (∀ i, i < 16 → (cvAt u i).loaded = false) ∧
      (m = .safe → dramOn s = true → ∀ i, i < 8 → (s.clusters.getD i Cluster.empty).stopped = true → (u.clusters.getD i Cluster.empty).stopped = false)
    (free → mayRun → s.mode.rest = false → s.mode.pend = none →
      Does (.runRequest (.port p)) s runs ∧ (asked 1 → Does (.runRequest (.chan c)) s fun u => runs u ∧ answered u 1 .ok)) ∧
    (free → ¬ mayRun → Refuses (.runRequest (.port p)) s p 0 0x1702 .mode ∧
      (asked 1 → Does (.runRequest (.chan c)) s fun u => u.mode = s.mode ∧ answered u 1 .mode)) ∧
    (free → mayRun → s.mode.rest = true ∨ s.mode.pend ≠ none → Refuses (.runRequest (.port p)) s p 0 0x1702 .busy ∧
      (asked 1 → Does (.runRequest (.chan c)) s fun u => u.mode = s.mode ∧ answered u 1 .busy)) ∧
    (free → mayStop → Does (.stopRequest (.port p)) s stops ∧ (asked 2 → Does (.stopRequest (.chan c)) s fun u => stops u ∧ answered u 2 .ok)) ∧
    (free → ¬ mayStop → Refuses (.stopRequest (.port p)) s p 0 0x1702 .mode ∧
      (asked 2 → Does (.stopRequest (.chan c)) s fun u => u.mode = s.mode ∧ answered u 2 .mode)) ∧
    (free → maySleep → idle → Does (.sleepRequest (.port p)) s sleeps ∧ (asked 3 → Does (.sleepRequest (.chan c)) s sleeps)) ∧
    (free → ¬ maySleep → Refuses (.sleepRequest (.port p)) s p 0 0x1702 .mode ∧
      (asked 3 → Does (.sleepRequest (.chan c)) s fun u => u.mode = s.mode ∧ answered u 3 .mode)) ∧
    (free → maySleep → ¬ idle → Refuses (.sleepRequest (.port p)) s p 0 0x1702 .busy ∧
      (asked 3 → Does (.sleepRequest (.chan c)) s fun u => u.mode = s.mode ∧ answered u 3 .busy)) ∧
    (free → mayServe → Does (.serviceRequest (.port p)) s serves ∧ (asked 4 → Does (.serviceRequest (.chan c)) s fun u => serves u ∧ answered u 4 .ok)) ∧
    (free → ¬ mayServe → Refuses (.serviceRequest (.port p)) s p 0 0x1702 .mode ∧
      (asked 4 → Does (.serviceRequest (.chan c)) s fun u => u.mode = s.mode ∧ answered u 4 .mode)) ∧
    (free → mayReady → s.flt.thermal = false → s.flt.power = 0 →
      Does (.readyRequest (.port p)) s readies ∧ (asked 5 → Does (.readyRequest (.chan c)) s fun u => readies u ∧ answered u 5 .ok)) ∧
    (free → ¬ mayReady → Refuses (.readyRequest (.port p)) s p 0 0x1702 .mode ∧
      (asked 5 → Does (.readyRequest (.chan c)) s fun u => u.mode = s.mode ∧ answered u 5 .mode)) ∧
    (free → mayReady → s.flt.thermal = true ∨ s.flt.power ≠ 0 → Refuses (.readyRequest (.port p)) s p 0 0x1702 .busy) ∧
    (¬ free → Refuses (.runRequest (.port p)) s p 0 0x1702 .busy ∧ Refuses (.stopRequest (.port p)) s p 0 0x1702 .busy ∧
      Refuses (.sleepRequest (.port p)) s p 0 0x1702 .busy ∧ Refuses (.serviceRequest (.port p)) s p 0 0x1702 .busy ∧
      Refuses (.readyRequest (.port p)) s p 0 0x1702 .busy) ∧
    (m ≠ .loader → Asked s c.toNat (request 3 1 q []) → Does (.modeStatus c) s fun u =>
      Replied s u c.toNat (request 3 1 q []) .ok [2 ^ 28 * modeCode m + (if m = .handover then 2 ^ 24 * modeCode s.mode.hoFrom else 0) +
        (if s.mode.pend = none then 0 else 2 ^ 23) + (if s.mode.rest then 2 ^ 22 else 0)] ∧ u.mode = s.mode)

/-- Power-on, pin, watchdog and full resets, control-core restarts, and waking from SLEEP. Power-on reset leaves a
fresh Derku in LOADER with an empty log. Pin reset (of 1 microsecond or more), the second watchdog expiry and a FULL
write do the same but keep frame start, log, trims and restart counts, record their cause, and mark a lost message on
each channel with a full mailbox. CORE, a first watchdog expiry and an uncorrectable error of control SRAM restart the
control cores only and count it, with the log entries of their classes; in LOAD a restart ends blocking with no hood.
A wrong key is E_RANGE. A wake event that is enabled starts the wake time; after it the Derku is in READY with its
hood, or in LOADER where a copy fails its check. Cases of a confirm under way are excluded. Rests on: Power, Reset,
Modes and Faults, Resets; Power, Reset, Modes and Faults, SLEEP; Power, Reset, Modes and Faults, Faults. -/
def Obligations.Resets : Prop :=
  ∀ (s : State) (p : Port) (v : Word) (strap : Bool) (ns t a : Nat) (src : WakeSource) (h : Hood) (code : Memory) (e c : EccKind) (r : BitVec 6) (g : HRing) (w : Words),
    s.shape = unitCounts → s.fw.stage ≠ .confirm →
    let on := s.mode.mode ≠ .reset ∧ s.mode.mode ≠ .sleep
    let fresh := fun (u : State) => u.mode.mode = .loader ∧ u.hood = none ∧ u.slots = [] ∧ u.carder = Carder.empty ∧ u.engines = State.reset.engines ∧
      u.rings = State.reset.rings ∧ u.timers = State.reset.timers ∧ u.uarts = State.reset.uarts ∧ u.audio = AudioSt.empty ∧
      u.host = HostSt.empty ∧ u.twin = Twin.reset strap ∧ u.frame = { State.reset.frame with start := u.frame.start } ∧
      u.part = s.part ∧ u.flash = s.flash ∧ u.fuses = s.fuses
    let warm := fun (u : State) (cause : Nat) => fresh u ∧ u.frame.start = s.frame.start ∧ u.flt.log = s.flt.log ∧ u.mode.cause = cause ∧
      u.mode.crst = s.mode.crst ∧ u.mode.wdg = s.mode.wdg ∧ u.cv.trim = s.cv.trim ∧
      ∀ c, c < 16 → (mbxAt u c).infull = false ∧ (mbxAt u c).outfull = false ∧
        (mbxAt u c).lost = ((mbxAt s c).lost || (mbxAt s c).infull || (mbxAt s c).outfull)
    let restarted := fun (x u : State) => u.mode = { x.mode with crst := satInc 255 x.mode.crst } ∧ u.hood = x.hood ∧ u.frame = x.frame ∧
      u.carder = x.carder ∧ u.slots = x.slots ∧ u.engines = x.engines ∧ u.rings = x.rings ∧ u.timers = x.timers ∧ u.uarts = x.uarts ∧
      u.mbx = x.mbx ∧ ∀ k, k < 4 → (schCore u k).run = none
    let calm := s.mode.mode ≠ .load ∧ s.fw.handover = none ∧ s.fw.stage ≠ .trial
    (Does (.powerOnReset strap) s fun u => fresh u ∧ u.frame.start = 0 ∧ u.flt.log = [] ∧ u.mode.cause = 0 ∧ u.mode.crst = 0 ∧
      u.mode.wdg = 0 ∧ u.cv.trim = s.fuses.trim ∧ ∀ c, c < 16 → mbxAt u c = Mbx.empty) ∧
    (1000 ≤ ns → Does (.pinReset ns strap) s fun u => warm u 1) ∧ (ns < 1000 → Does (.pinReset ns strap) s fun u => u = s) ∧
    (on → s.mode.expired = true → Does (.secondWatchdogExpiry strap) s fun u => warm u 4) ∧
    (on → v &&& 0xFFFFFFFE#32 = 0x5A000002#32 → Does (.full p v strap) s fun u => ∃ x, warm u x ∧ x = if p = .host then 2 else 3) ∧
    (on → v &&& 0x00FFFFFC#32 = 0 → v.toNat / 2 ^ 24 ≠ 0x5A → v &&& 3#32 ≠ 0 →
      Refuses (.full p v strap) s p 0 0x1704 .range ∧ Refuses (.core p v) s p 0 0x1704 .range) ∧
    (on → calm → v = 0x5A000001#32 → Does (.core p v) s fun u => restarted s u) ∧
    (on → s.mode.mode = .load → s.fw.handover = none → s.fw.stage ≠ .trial → v = 0x5A000001#32 → Does (.core p v) s fun u =>
      u.mode.mode = .loader ∧ u.hood = none ∧ u.mode.crst = satInc 255 s.mode.crst) ∧
    (on → calm → Does .firstWatchdogExpiry s fun u =>
      restarted { s with mode := { s.mode with wdg := satInc 255 s.mode.wdg, expired := true } } u ∧
      (s.flt.log.length < 16 → u.flt.log = s.flt.log ++ [⟨0x09, 0xFF, 4, s.frame.cnt % 2 ^ 32⟩])) ∧
    (on → calm → Does (.controlSramUncorrectable none) s fun u => restarted s u ∧
      (inPeriod s = true → u.det.fault = true ∧ detValid u = false) ∧ (inPeriod s = false → u.det = s.det) ∧
      (s.flt.log.length < 16 → u.flt.log = s.flt.log ++ [⟨0x06, 0xFF, 4, s.frame.cnt % 2 ^ 32⟩])) ∧
    (on → calm → hringOf s r.toNat = some g → ringFront s r.toNat = some w → Does (.controlSramUncorrectable (some r)) s fun u =>
      u.mode = { s.mode with crst := satInc 255 s.mode.crst } ∧ u.hood = s.hood ∧ u.frame = s.frame ∧ u.slots = s.slots ∧ u.timers = s.timers ∧
      (∀ j, j ≠ r.toNat → g.cons ≠ .carder → ringState u j = ringState s j) ∧
      (g.cons = .scheduler ∨ g.cons = .dram ∨ g.cons = .uart → (ringState u r.toNat).tail = (ringState s r.toNat).tail + 1) ∧
      (g.cons = .scheduler ∨ g.cons = .dram → Memory.read 0 u.ringMem (ringAddr g (ringState s r.toNat).tail.toNat + 31) = 13) ∧
      (g.cons = .uart → (uartAt u g.uart).txbad = decide (g.uart < 4))) ∧
    (s.mode.mode = .sleep → s.mode.wakeAt = none →
      (∀ k hi, src = .uart k hi → (uartAt s k.toNat).wake = true ∧ (hi = true ∨ s.mode.wakeFired.contains k.toNat = false)) → Does (.wakeEvent src t) s fun u =>
      u = { s with mode := { s.mode with wakeAt := some t, wakeFired := u.mode.wakeFired }, now := max s.now t } ∧
      ∀ k, u.mode.wakeFired.contains k = (s.mode.wakeFired.contains k || decide (∃ hi, src = .uart (BitVec.ofNat 2 k) hi ∧ k < 4))) ∧
    (∀ k hi, src = .uart k hi → (uartAt s k.toNat).wake = false ∨ hi = false ∧ s.mode.wakeFired.contains k.toNat = true →
      Does (.wakeEvent src t) s fun u => u = { s with now := max s.now t }) ∧
    (s.mode.mode = .sleep → s.mode.wakeAt = some a → t < a + 1179648 → Does (.wakeEnd t e c) s fun u => u = { s with now := max s.now t }) ∧
    (s.mode.mode = .sleep → s.mode.wakeAt = some a → a + 1179648 ≤ t → s.hood = some h → s.mode.hoodCopy = true → s.mode.codeCopy = some code →
      hoodIntact s = true → e ≠ .uncorrectable → c ≠ .uncorrectable → s.mode.codeDigest = sha256 (codeBytes code) → Does (.wakeEnd t e c) s fun u =>
        u.mode.mode = .ready ∧ u.hood = some (placesAgain s h) ∧ (if s.fw.bank = 0 then u.fw.bank0 = code else u.fw.bank1 = code) ∧ u.frame.start = s.frame.start ∧ u.flt.log = s.flt.log ∧ u.cv.trim = s.cv.trim ∧
        u.dram = s.dram ∧ u.fw.bank = s.fw.bank ∧ u.slots = [] ∧ u.carder.store = [] ∧ u.rings = State.reset.rings ∧
        u.host.intLatched = 4 ∧ u.twin.lead = s.twin.strap ∧ u.timers = State.reset.timers) ∧
    (s.mode.mode = .sleep → s.mode.wakeAt = some a → a + 1179648 ≤ t → s.hood = some h → s.mode.hoodCopy = true → hoodIntact s = false ∨ e = .uncorrectable ∨ s.mode.codeCopy = none ∨ c = .uncorrectable →
      Does (.wakeEnd t e c) s fun u =>
        u.mode.mode = .loader ∧ u.hood = none ∧ u.frame.start = s.frame.start ∧ u.flt.log = s.flt.log ∧ u.host.intLatched = 4 ∧
        u.block.result = (if hoodIntact s = false ∨ e = .uncorrectable then Err.check.code else 0))

/-- Starting blocking, filling HOOD_FIFO, and starvation. BLOCK_CTL with START in LOADER or READY begins blocking from
the source named, if the port may use it; else E_SECURITY, E_MODE, E_RSVD, or E_BUSY during blocking. A FIFO word is
taken while the loader needs it, the loader having taken any number of earlier words first (log entry 56); otherwise
E_MODE. One second with an empty FIFO ends blocking with E_FORMAT: in pass 1 with everything kept, in pass 2 in LOADER
with no hood. Rests on: The Structure Image and Blocking, Starting blocking; The Structure Image and Blocking,
Registers. -/
def Obligations.Blocking : Prop :=
  ∀ (s : State) (p : Port) (v w : Word) (t : Nat), s.shape = unitCounts → s.mode.mode ≠ .reset → s.mode.mode ≠ .sleep →
    let m := s.mode.mode
    let b := s.block
    let src := v.toNat / 2 ^ 24 % 4
    let mine := ¬ (src = 1 ∧ p = .spi) ∧ ¬ (src = 2 ∧ p = .host)
    let starts := m = .loader ∨ m = .ready
    let spare := v &&& 0x7CFF0000#32 = 0
    (v.getLsbD 31 = true → mine → starts → src ≠ 3 → spare → Does (.blockingStart p v) s fun u =>
      { u with engines := s.engines, sched := s.sched } = { emptyWrite p (pump (turnTo p 0 s)) with
        mode := { s.mode with mode := .load, pend := none }
        block := { b with src := src, qaddr := v.toNat % 2 ^ 16, from_ := m, stage := 1, need := decide (src ≠ 0), fifo := [], got := [],
                          emptyAt := s.now, head := [], body := none } } ∧
      (∀ i, i < 16 → { engAt u i with phase := .idle } = { engAt s i with phase := .idle, saved := false, preReq := false, due := false, task := none, xf := none } ∧
        (engAt u i).phase = (if (engAt s i).phase = .stopped then .stopped else .idle)) ∧
      ∀ j, j < 20 → (j < 4 → schCore u j = schCore s j) ∧ (4 ≤ j → (schCore u j).run = none ∧ (schCore u j).slot = none)) ∧
    (v.getLsbD 31 = true → ¬ mine → Refuses (.blockingStart p v) s p 0 0x60 .security) ∧
    (v.getLsbD 31 = true → mine → ¬ starts → m ≠ .load → Refuses (.blockingStart p v) s p 0 0x60 .mode) ∧
    (v.getLsbD 31 = true → mine → starts ∨ m = .load → ¬ (spare ∧ src ≠ 3) → Refuses (.blockingStart p v) s p 0 0x60 .rsvd) ∧
    (mine → m = .load → spare → src ≠ 3 → Refuses (.blockingStart p v) s p 0 0x60 .busy) ∧
    (m = .load → b.need = true → b.fifo.length < 1024 → Does (.hoodFifo p w) s fun u => ∃ k, k ≤ b.fifo.length ∧
      u.block.got = b.got ++ b.fifo.take k ∧ u.block.fifo = b.fifo.drop k ++ [w] ∧ u.block.result = b.result ∧ u.block.stage = b.stage ∧
      u.block.need = decide (b.got.length + b.fifo.length + 1 < 3 ∨
        4 * (b.got.length + b.fifo.length + 1) < ((b.got ++ b.fifo ++ [w]).getD 2 0).toNat) ∧
      { u with block := b, use := s.use } = turnTo p 0 s) ∧
    (m ≠ .load → Refuses (.hoodFifo p w) s p 0 0x62 .mode) ∧ (b.need = false → Refuses (.hoodFifo p w) s p 0 0x62 .mode) ∧
    (m = .load → b.need = true → b.fifo = [] → b.emptyAt + 786432000 ≤ t → b.stage ≤ 2 → Does (.hoodFifoStarvation t) s fun u =>
      u.mode = { s.mode with mode := b.from_ } ∧ u.block.result = Err.format.code ∧ u.block.stage = 0 ∧ u.hood = s.hood ∧ u.groups = s.groups ∧
      u.engines = s.engines ∧ u.dram = s.dram ∧ u.rings = s.rings ∧ bitAt u.host.intLatched 2 = true) ∧
    (m = .load → b.need = true → b.fifo = [] → b.emptyAt + 786432000 ≤ t → 3 ≤ b.stage → Does (.hoodFifoStarvation t) s fun u =>
      u.mode.mode = .loader ∧ u.block.result = Err.format.code ∧ u.block.stage = 0 ∧ u.hood = none ∧ bitAt u.host.intLatched 2 = true)

/-- The two passes of blocking: what each verdict leaves. A pass 1 that fails returns to the mode in which blocking
began, with the hood and all else unchanged but the result registers and the blocking interrupt, RESULT holding the
code and HOOD_FAIL the item: so for a wrong magic, header CRC or directory CRC, and for every other failing check of
its verdict. A pass 1 that waits changes no result; one that passes gives up the hood and goes to stage 3. Pass 2
fails into LOADER with no hood where training fails (E_CHECK), the DRAM is too small (E_RANGE), or installation fails;
where it passes, the Derku is in READY with that hood, rings, voices, events and buses empty, groups and clocks as the
hood sets them, and each engine restored from it with bank A active. Formalises R77. -/
def Obligations.Passes : Prop :=
  ∀ (s : State) (body b : Hood) (bad : Option (Nat × Err)) (h dir : List Byte) (e : Err) (k o mb : Nat) (tr : Bool),
    s.shape = unitCounts → s.mode.mode = .load →
    let one := s.block.stage = 1 ∨ s.block.stage = 2
    let word := fun (i : Nat) => leNat ((h.drop i).take 4)
    let ends := fun (u : State) (e : Err) => u.block.result = e.code ∧ u.block.stage = 0 ∧ u.block.need = false ∧ bitAt u.host.intLatched 2 = true
    let kept := fun (u : State) => u.mode = { s.mode with mode := s.block.from_ } ∧ u.block.digest = s.block.digest ∧
      { u with mode := s.mode, block := s.block, host := s.host, use := s.use } = s ∧ { u.host with intLatched := s.host.intLatched } = s.host
    let lost := fun (u : State) => u.mode.mode = .loader ∧ u.hood = none
    (one → imgHead s = some h → word 0 ≠ 0x48445657 → Does (.pass1 body bad) s fun u =>
      kept u ∧ ends u .format ∧ u.block.failEntry = 0xFF ∧ u.block.failOff = 0) ∧
    (one → imgHead s = some h → step1 h = .pass → word 0x3C ≠ crc32 (h.take 0x3C) → Does (.pass1 body bad) s fun u =>
      kept u ∧ ends u .check ∧ u.block.failEntry = 0xFF ∧ u.block.failOff = 0x3C) ∧
    (one → imgHead s = some h → step1 h = .pass → step23 h = .pass → imgDir s h = some dir → word 0x38 ≠ crc32 dir → Does (.pass1 body bad) s fun u =>
      kept u ∧ ends u .check ∧ u.block.failEntry = 0xFF ∧ u.block.failOff = 0x38) ∧
    (one → imgHead s = some h → imgDir s h = some dir → Does (.pass1 body bad) s fun u => (pass1Verdict s body bad).Says
      (u.mode = s.mode ∧ u.hood = s.hood ∧ u.block.got ++ u.block.fifo = s.block.got ++ s.block.fifo ∧ u.block.stage ≤ 2)
      (u.mode = s.mode ∧ u.block.stage = 3 ∧ u.block.result = s.block.result ∧ u.block.head = h ++ dir ∧ u.block.body.isSome = true ∧
        u.hood = none ∧ u.frame.start = s.frame.start ∧ u.mbx = s.mbx ∧ u.fw = s.fw ∧ u.dram = s.dram)
      (fun e k o => kept u ∧ ends u e ∧ u.block.failEntry = k ∧ u.block.failOff = min o 0xFFFFFF)) ∧
    (s.block.body = some b → s.block.stage = 3 → b.hdr.dramMin ≠ 0 → tr = false → Does (.pass2 mb tr) s fun u => lost u ∧ ends u .check) ∧
    (s.block.body = some b → s.block.stage = 3 → b.hdr.dramMin ≠ 0 → tr = true → mb = 1024 ∨ mb = 2048 ∨ mb = 4096 → mb < b.hdr.dramMin → Does (.pass2 mb tr) s fun u => lost u ∧ ends u .range) ∧
    (s.block.body = some b → s.block.stage = 3 → b.hdr.dramMin ≠ 0 → tr = true → mb ≠ 1024 → mb ≠ 2048 → mb ≠ 4096 → Does (.pass2 mb tr) s fun u => lost u ∧ ends u .check) ∧
    (s.block.body = some b → s.block.stage = 4 → installVerdict s = .wait → Does (.pass2 mb tr) s fun u => u.mode = s.mode ∧ u.hood = s.hood ∧ u.block.stage = 4 ∧
      u.block.got ++ u.block.fifo = s.block.got ++ s.block.fifo ∧ u.block.body = s.block.body) ∧
    (s.block.body = some b → s.block.stage = 4 → installVerdict s = .fail e k o → Does (.pass2 mb tr) s fun u =>
      lost u ∧ ends u e ∧ u.block.failEntry = k) ∧
    (s.block.body = some b → s.block.stage = 4 → installVerdict s = .pass → Does (.pass2 mb tr) s fun u =>
      u = { s with block := { s.block with stage := 5, need := false } }) ∧
    (s.block.body = some b → s.block.stage = 5 → Does (.pass2 mb tr) s fun u =>
      (b.hdr.dramMin = 0 → u.dramMb = 0) ∧ (b.hdr.dramMin ≠ 0 → u.dramMb = s.dramMb ∧ hoodIntact u = true) ∧
      (∀ k g p, u.audio.pdm[k]? = some g → k < 2 → Store.get none b.ports.pdm k = some p → g.srst = true) ∧
      u.mode.mode = .ready ∧ u.hood = some b ∧ ends u .ok ∧ u.slots = [] ∧ u.bus.val = [] ∧ u.bus.acc = [] ∧ u.regions = [] ∧
      u.carder.store = [] ∧ u.carder.sets = List.replicate 15 [] ∧ u.carder.seq = 0 ∧ u.det = Det.empty ∧ u.rings = State.reset.rings ∧
      u.mbx = s.mbx ∧ u.frame.start = s.frame.start ∧ u.groups = b.groups.map groupInit ∧ u.clocks.src = b.clocks.master ∧
      ∀ i, i < 16 → engAt u i = engOfHood s b i ∧ (engAt u i).act = false)

/-- The restore in READY, domain restarts, and power faults of a domain. RESTORE_COMPLETE ends the restore: X below
the region boundary and both Y banks of every enabled engine hold their hood values, ACT is 0, nothing else changes. A
DOMAIN_RESTART write names an enabled cluster or engine: in a running mode it is asked and recorded as a fault of
determinism, else the unit is held at once; it is refused with E_ABSENT, E_MODE, E_RSVD or E_BUSY.
DOMAIN_RESTART_COMPLETE reloads the engine from the hood, or frees the cluster. A power fault of a powered domain
enters SAFE, ends the period, is logged with class 7 and shown in FLT_STAT until recovery. Clauses on restarts and
power faults are for an unpaired Derku. Rests on: Power, Reset, Modes and Faults, Faults; Fuller Engine Execution,
Engine state between running periods. -/
def Obligations.Restores : Prop :=
  ∀ (s : State) (p : Port) (v : Word) (d : BitVec 4) (h : Hood), s.shape = unitCounts → s.hood = some h →
    let i := v.toNat % 16
    let cluster := v.getLsbD 29
    let on := if cluster then clusterOn s i = true else engineOn s i = true
    let may := s.mode.mode ≠ .handover ∧ (effMode s = .ready ∨ framesRun s = true ∨ effMode s = .hold ∨ effMode s = .safe) ∧ s.twin.paired = false ∧ h.hdr.dramMin ≠ 0
    let command := if cluster then Instr.domainRestartCluster p v else Instr.domainRestartEngine p v
    let code := fun (e : Err) => Refuses command s p 0 0x1708 e
    let dom := d.toNat
    let part := (s.hood.bind fun h => Store.get none h.engines s.flt.rstIndex).getD { (default : HEngine) with xb := 32768 }
    let old := engAt s s.flt.rstIndex
    (s.mode.rest = true → Does .restoreComplete s fun u =>
      u.mode = { s.mode with rest := false } ∧ { u with engines := s.engines, mode := s.mode } = s ∧
      ∀ e, e < 16 → ∀ x, Store.get none h.engines e = some x → (engAt s e).on = true →
        (engAt u e).ya = x.ya ∧ (engAt u e).yb = x.yb ∧ (engAt u e).act = false ∧
        ∀ a, Store.get 0 (engAt u e).x a = if a < (engAt s e).xb then Store.get 0 x.x a else Store.get 0 (engAt s e).x a) ∧
    (s.accessible → v.getLsbD 31 = true → v &&& 0x1FFFFFF0#32 = 0 → on → may → (cluster = true → i < 8) → s.flt.restart = .none → Does command s fun u =>
      u.flt.rstKind = cluster ∧ u.flt.rstIndex = i ∧ u.mode = s.mode ∧ u.frame = s.frame ∧
      (framesRun s = true → u.flt.restart = .asked ∧ u.det.fault = true ∧ u.engines = s.engines ∧ u.slots = s.slots) ∧
      (framesRun s = false → u.flt.restart = .held ∧ (cluster = false → (engAt u i).held = true ∧ (engAt u i).xf = none ∧
        (engAt u i).task = none) ∧ (cluster = true → ∀ k, k / 256 = i → slotAt u k = { slotAt s k with cur := none, fade := none, pend := none, killed := false }))) ∧
    (s.accessible → v.getLsbD 31 = true → ¬ on → (cluster = true → i < 8) → code .absent) ∧
    (s.accessible → v.getLsbD 31 = true → on ∨ (cluster = true ∧ 8 ≤ i) → ¬ may → code .mode) ∧
    (s.accessible → v.getLsbD 31 = true → on → may → (cluster = true → i < 8) → v &&& 0x1FFFFFF0#32 ≠ 0 → code .rsvd) ∧
    (s.accessible → v.getLsbD 31 = true → on → may → (cluster = true → i < 8) → v &&& 0x1FFFFFF0#32 = 0 → s.flt.restart ≠ .none → code .busy) ∧
    (s.flt.restart = .held → s.flt.rstKind = false → s.flt.rstIndex < 16 → Does .domainRestartComplete s fun u =>
      let g := engAt u s.flt.rstIndex
      u.flt.restart = (if framesRun s then .complete else .none) ∧ g.imem = part.imem ∧ g.ya = part.ya ∧ g.yb = part.yb ∧ g.act = false ∧
      g.smp = RegBank.zero ∧ g.bg = RegBank.zero ∧ g.st = 0 ∧ g.pc = 0 ∧ g.fltCode = 0 ∧ g.fltFrame = 0 ∧ g.xf = none ∧
      (∀ a, Store.get 0 g.x a = if a < old.xb then Store.get 0 part.x a else Store.get 0 old.x a) ∧ (framesRun s = false → g.held = false) ∧
      ∀ e, e ≠ s.flt.rstIndex → engAt u e = engAt s e) ∧
    (s.flt.restart = .held → s.flt.rstKind = true → Does .domainRestartComplete s fun u =>
      u.flt.restart = (if framesRun s then .complete else .none) ∧ (u.clusters.getD s.flt.rstIndex Cluster.empty).stopped = false ∧ u.engines = s.engines) ∧
    (dom ≠ 0 → bitAt (poweredMask s) dom = true → bitAt s.flt.power dom = false → s.twin.paired = false → s.accessible → Does (.domainPowerFault d) s fun u =>
      u.mode.mode = .safe ∧ bitAt u.flt.power dom = true ∧ u.hood = s.hood ∧ (inPeriod s = true → u.slots = [] ∧ u.carder.store = [] ∧ u.det.fault = true ∧
        u.frame.start = if s.frame.ran then s.frame.cnt + 1 else s.frame.start) ∧
      (s.flt.log.length < 16 → u.flt.log = s.flt.log ++ [⟨7, dom, 1, s.frame.cnt % 2 ^ 32⟩] ∧ bitAt u.host.intLatched 14 = true)) ∧
    (bitAt s.flt.power dom = true → Does (.domainPowerRecovery d) s fun u =>
      (∀ n, n < 16 → bitAt u.flt.power n = (bitAt s.flt.power n && n != dom)) ∧ { u with flt := { u.flt with power := s.flt.power } } = s)

/-- Starting a window transfer, and its refusals in order. A write of WIN_CTL by the window's own port with GO starts
the transfer described, where the target is present, the write allowed, the fields plain, the words inside the target,
and the window free outside LOAD; without GO it only stores the fields. Otherwise it is refused with E_SECURITY,
E_ABSENT, E_MODE, E_RSVD, E_RANGE or E_BUSY, in that order of conditions. Rests on: Host Port and Registers, Windows;
Host Port and Registers, Write validation and HOST_ERR. -/
def Obligations.WindowStarts : Prop :=
  ∀ (s : State) (p : Port) (w : BitVec 3) (v : Word) (c : Instr), s.shape = unitCounts → s.mode.mode ≠ .reset → s.mode.mode ≠ .sleep →
    c = .windowRead p w v ∨ c = .windowWrite p w v →
    let x := winAt s w.toNat
    let a := x.addr
    let tgt := v.toNat / 2 ^ 24 % 16
    let e := v.toNat / 2 ^ 20 % 16
    let len := v.toNat % 32
    let go := v.getLsbD 31 = true
    let own := p = .host ↔ w.toNat < 4
    let slot := fun (i : Nat) => (a + 4 * i) / 64
    let size := if tgt = 1 then s.dramMb * 2 ^ 20 else if tgt = 2 ∨ tgt = 6 then 0x20000 else 0x10000
    let engine := 2 ≤ tgt → tgt ≤ 5 → engineOn s e = true
    let present := engine ∧ (tgt = 1 → memOn s = true) ∧
      (tgt = 6 → ∀ i, i < len → slot i < 2048 → clusterOn s (slot i / 256) = true)
    let writable := tgt ≠ 5 ∧ (tgt = 6 → ∀ i, i < len → 5 ≤ (a / 4 + i) % 16 ∧ (a / 4 + i) % 16 ≤ 12) ∧
      (framesRun s = true → detHood s = true → ¬ (tgt = 2 ∨ tgt = 3 ∨ tgt = 4 ∨ tgt = 6 ∨ (tgt = 1 ∧ inRead s a (4 * len) = true))) ∧
      (tgt = 1 → inCopy s a (4 * len) = false ∧ inEnabled s a (4 * len) = false)
    let allowed := v.getLsbD 30 = true → writable
    let plain := v &&& 0x300FFF60#32 = 0 ∧ 1 ≤ tgt ∧ tgt ≤ 6 ∧ (tgt = 1 ∨ tgt = 6 → e = 0)
    let inside := 1 ≤ len ∧ len ≤ 16 ∧ a % 4 = 0 ∧ a + 4 * len ≤ size ∧ (tgt = 6 → ∀ i, i < len → slot i < 2048 ∧ slot i % 256 < (rateOf s).voices)
    let code := fun (e : Err) => Refuses c s p 0 (0x100 + 0x40 * w.toNat) e
    (own → go → present → allowed → plain → inside → x.busy = false → s.mode.mode ≠ .load → Does c s fun u =>
      u = updWin w.toNat (fun x => { x with
        dir := v.getLsbD 30, tgt := tgt, eng := e, doneie := v.getLsbD 7, len := len, busy := true, job := v.toNat }) (emptyWrite p (turnTo p 0 s))) ∧
    (own → ¬ go → engine → v &&& 0x300FFF60#32 = 0 → Does c s fun u => u = updWin w.toNat (fun x => { x with
        dir := v.getLsbD 30, tgt := tgt, eng := e, doneie := v.getLsbD 7, len := len }) (emptyWrite p (turnTo p 0 s))) ∧
    (¬ own → code .security) ∧
    (own → ¬ engine → code .absent) ∧ (own → go → ¬ present → code .absent) ∧
    (own → go → present → ¬ allowed → code .mode) ∧
    (own → go → present → allowed → ¬ plain → code .rsvd) ∧
    (own → go → present → allowed → plain → ¬ inside → code .range) ∧
    (own → go → present → allowed → plain → inside → x.busy = true ∨ s.mode.mode = .load → code .busy)

/-- A window transfer completes: words read, words written, voice records, status and ECC. A transfer that completes
clears BUSY, sets DONE and the code. A read fills the buffer from DRAM bytes, X, either Y bank or program memory, and,
of a sounding voice without a pending note, its state, flags, handle generation, group, tag, first frame, amplitude
and envelope levels; words beyond the length stay. A write puts the buffer's words in exactly the X, Y or DRAM words
that it covers; a write of a voice record sets the envelope levels covered; in a running mode such a write ends
determinism. Nothing else changes; an uncorrectable DRAM read counts in DUE. Rests on: Host Port and Registers,
Windows; Voice Allocation and Stealing, Slots and their states; Frames, Events and Determinism, The determinism
guarantee. -/
def Obligations.WindowTransfers : Prop :=
  ∀ (s : State) (w : BitVec 3) (ecc : EccKind) (i k : Nat) (t : Template) (v : Voice), s.shape = unitCounts →
    let x := winAt s w.toNat
    let a := x.addr
    let tgt := x.job / 2 ^ 24 % 16
    let e := x.job / 2 ^ 20 % 16
    let len := x.job % 32
    let c := Instr.windowTransferComplete w ecc
    let write := bitAt x.job 30 = true
    let ends := fun (u : State) => { winAt u w.toNat with buf := x.buf } = { x with busy := false, done := true, code := if ecc = .uncorrectable then 13 else 0 }
    let got := fun (u : State) (n : Nat) => (winAt u w.toNat).buf.getD n 0
    let put := fun (p : Nat) => x.buf.getD (p - a / 4) 0
    let covers := fun (p : Nat) => a / 4 ≤ p ∧ p < a / 4 + len
    let record := slotAt s (a / 64)
    (x.busy = false → Does c s fun u => u = s) ∧
    (x.busy = true → ¬ write → a % 4 = 0 → Does c s fun u => ends u ∧
      { u with flt := s.flt, host := s.host, det := s.det } = s ∧ { u.host with wins := s.host.wins, intLatched := s.host.intLatched } = s.host ∧
      (∀ n, len ≤ n → got u n = x.buf.getD n 0) ∧ (i < len →
        (tgt = 1 → ∀ j, j < 4 → (got u i).toNat / 2 ^ (8 * j) % 2 ^ 8 = (Memory.read 0 s.dram (a + 4 * i + j)).toNat) ∧
        (tgt = 2 → got u i = Store.get 0 (engAt s e).x (a / 4 + i)) ∧ (tgt = 3 → got u i = Store.get 0 (engAt s e).ya (a / 4 + i)) ∧
        (tgt = 4 → got u i = Store.get 0 (engAt s e).yb (a / 4 + i)) ∧
        (tgt = 5 → (got u i).toNat = (Store.get 0 (engAt s e).imem ((a / 4 + i) / 2)).toNat / 2 ^ (32 * ((a / 4 + i) % 2)) % 2 ^ 32))) ∧
    (x.busy = true → ¬ write → a % 64 = 0 → len = 16 → tgt = 6 → record.pend = none → record.cur = some v → record.gen < 256 → v.group < 64 →
      Does c s fun u =>
        (got u 0).toNat = slotStateCode record * 2 ^ 30 + (if v.released then 2 ^ 29 else 0) + (if v.detached then 2 ^ 28 else 0) +
          record.gen * 2 ^ 16 + v.group ∧ (got u 2).toNat + 2 ^ 32 * (got u 3).toNat = v.first % 2 ^ 64 ∧ (got u 4).toInt = v.ga.bmod (2 ^ 32) ∧
        (v.mapped = true → v.use < 256 → v.tag < 2 ^ 24 → (got u 1).toNat = v.use * 2 ^ 24 + v.tag) ∧ (v.mapped = false → got u 1 = 0) ∧
        ∀ n, n < 4 → (got u (9 + n)).toInt = ((v.env.getD n envInit).e).bmod (2 ^ 32)) ∧
    (x.busy = true → write → a % 4 = 0 → Does c s fun u => ends u ∧ got u k = x.buf.getD k 0 ∧
      { u with flt := s.flt, host := s.host, det := s.det, engines := s.engines, dram := s.dram, slots := s.slots } = s ∧
      (∀ n, n < 16 → n ≠ e ∨ tgt < 2 ∨ 4 < tgt → engAt u n = engAt s n) ∧
      { engAt u e with x := [], ya := [], yb := [] } = { engAt s e with x := [], ya := [], yb := [] } ∧
      Store.get 0 (engAt u e).x k = (if tgt = 2 ∧ covers k then put k else Store.get 0 (engAt s e).x k) ∧
      Store.get 0 (engAt u e).ya k = (if tgt = 3 ∧ covers k then put k else Store.get 0 (engAt s e).ya k) ∧
      Store.get 0 (engAt u e).yb k = (if tgt = 4 ∧ covers k then put k else Store.get 0 (engAt s e).yb k) ∧
      Memory.read 0 u.dram k = (if tgt = 1 ∧ covers (k / 4) then ((put (k / 4)) >>> (8 * (k % 4))).setWidth 8 else Memory.read 0 s.dram k) ∧
      (tgt ≠ 6 → u.slots = s.slots) ∧ (tgt = 6 → (slotAt s k).cur = none → slotAt u k = slotAt s k) ∧
      (inPeriod s = true → tgt = 2 ∨ tgt = 3 ∨ tgt = 4 ∨ tgt = 6 → u.det.winwrite = true ∧ detValid u = false)) ∧
    (x.busy = true → write → a % 64 = 36 → len ≤ 4 → tgt = 6 → record.cur = some v → templateOf s v.group = some t →
      Does c s fun u => ∀ n, n < v.env.length → n < 4 → ((slotAt u (a / 64)).cur.map fun v => ((v.env.getD n envInit).e, (v.env.getD n envInit).e0)) =
        some (if n < len then ((x.buf.getD n 0).toInt, (x.buf.getD n 0).toInt) else ((v.env.getD n envInit).e, (v.env.getD n envInit).e0))) ∧
    (x.busy = true → tgt ≠ 1 ∨ ecc = .clean → Does c s fun u => u.flt = s.flt ∧ (¬ write ∨ inPeriod s = false → u.det = s.det)) ∧
    (x.busy = true → tgt = 1 → ecc = .corrected → Does c s fun u => u.flt = { s.flt with dce := min (s.flt.dce + 1) 255 } ∧ u.det.fault = s.det.fault) ∧
    (x.busy = true → tgt = 1 → ecc = .uncorrectable → Does c s fun u => u.flt = { s.flt with due := min (s.flt.due + 1) 255 } ∧
      (inPeriod s = true → u.det.fault = true ∧ detValid u = false) ∧ (inPeriod s = false → u.det = s.det))

/-- Writes of ring indices by their owners, and their refusals. The producer moves HEAD over at most the free space
and the consumer TAIL over at most the waiting entries; nothing else changes. Further is E_FULL or E_RANGE; from
another party E_MODE; of a ring that the hood does not define E_ABSENT. Firmware moves the indices of its own rings
likewise. Rests on: Rings, Mailboxes and the Task Scheduler, Rings; Rings, Mailboxes and the Task Scheduler,
Registers. -/
def Obligations.RingIndices : Prop :=
  ∀ (s : State) (p : Port) (r : BitVec 6) (v : HWord) (h : HRing), s.shape = unitCounts → s.accessible →
    let me := if p = .host then EndPt.host else .spi
    let now := pump (turnTo p 3 s)
    let x := ringState now r.toNat
    let y := ringState s r.toNat
    let waiting := (x.head - x.tail).toNat
    let held := (y.head - y.tail).toNat
    let found := hringOf s r.toNat = some h
    let head := Instr.ringHead (.port p) r v
    let tail := Instr.ringTail (.port p) r v
    let others := fun (m u : State) => ∀ k, k ≠ r.toNat → ringState u k = ringState m k
    let acts := fwActs s = true
    (found → h.prod = me → (v - x.head).toNat ≤ 2 ^ h.size - waiting → Does head s fun u =>
      (ringState u r.toNat).head = v ∧ { ringState u r.toNat with head := x.head, seen := x.seen, at_ := x.at_ } = x ∧ others now u ∧ { u with rings := now.rings } = turnTo p 3 now) ∧
    (found → h.cons = me → h.type ≠ 5 → (v - y.tail).toNat ≤ held → Does tail s fun u =>
      ringState u r.toNat = { y with tail := v } ∧ others s u ∧ { u with rings := s.rings } = turnTo p 3 s) ∧
    (found → h.cons = me → h.type = 5 → rxRing s h.uart = some r.toNat → (v - y.tail).toNat ≤ held → Does tail s fun u =>
      (ringState u r.toNat).tail = v ∧ others s u ∧ { u with rings := s.rings, ringMem := s.ringMem, uarts := s.uarts } = turnTo p 3 s ∧
      (∀ j, j ≠ h.uart → uartAt u j = uartAt s j) ∧ (uartEntry (uartAt u h.uart) = none ∨ ringFull u r.toNat = true)) ∧
    (found → h.prod = me → 2 ^ h.size < waiting + (v - x.head).toNat → waiting ≤ 2 ^ h.size → Refuses head s p 3 (0x8002 + 8 * r.toNat) .full) ∧
    (found → h.cons = me → held < (v - y.tail).toNat → Refuses tail s p 3 (0x8003 + 8 * r.toNat) .range) ∧
    (found → h.prod ≠ me → Refuses head s p 3 (0x8002 + 8 * r.toNat) .mode) ∧ (found → h.cons ≠ me → Refuses tail s p 3 (0x8003 + 8 * r.toNat) .mode) ∧
    (hringOf s r.toNat = none → Refuses head s p 3 (0x8002 + 8 * r.toNat) .absent ∧ Refuses tail s p 3 (0x8003 + 8 * r.toNat) .absent) ∧
    (found → h.prod = .cores → acts → (v - y.head).toNat ≤ 2 ^ h.size - held → Does (.ringHead .firmware r v) s fun u =>
      (ringState u r.toNat).head = v ∧ (ringState u r.toNat).tail = y.tail ∧ others s u ∧ { u with rings := s.rings } = s) ∧
    (found → h.cons = .cores → h.type ≠ 5 → acts → (v - y.tail).toNat ≤ held → Does (.ringTail .firmware r v) s fun u =>
      ringState u r.toNat = { y with tail := v } ∧ others s u ∧ { u with rings := s.rings } = s)

/-- BULK requests: copies between ring memory and DRAM, refusals, and completion. With its entry sane, aligned, inside
both memories and allowed, a BULK request copies exactly its bytes one way and is taken; refused, it is taken with
E_ABSENT, E_MODE, E_RSVD or E_RANGE and copies nothing. Completion writes the code, or the ECC code, into word 7 of
the entry, zero below, and advances TAIL by one. Rests on: Rings, Mailboxes and the Task Scheduler, Ring types. -/
def Obligations.BulkRequests : Prop :=
  ∀ (s : State) (r : BitVec 6) (h : HRing) (q : Words) (k : Nat) (ecc : EccKind) (code : Nat), s.shape = unitCounts →
    hringOf s r.toNat = some h → h.type = 7 → ringFront s r.toNat = some q →
    let x := ringState s r.toNat
    let f := fun (i : Nat) => (q.getD i 0).toNat
    let op := f 0 / 2 ^ 24
    let ring := f 1
    let dram := f 2
    let n := f 3
    let sane := f 0 % 2 ^ 24 = 0 ∧ f 4 = 0 ∧ f 5 = 0 ∧ f 6 = 0
    let inside := ring % 32 = 0 ∧ dram % 64 = 0 ∧ n % 64 = 0 ∧ 64 ≤ n ∧ n ≤ 65536 ∧ ring + n ≤ 0x30000 ∧ dram + n ≤ s.dramMb * 2 ^ 20
    let free := inCopy s dram n = false ∧ inEnabled s dram n = false ∧ (framesRun s = true → detHood s = true → inRead s dram n = false)
    let good := memOn s = true ∧ (op = 1 → free) ∧ sane ∧ inside
    let taken := fun (u : State) (e : Err) => (ringState u r.toNat) = { x with job := some e.code } ∧ ∀ j, j ≠ r.toNat → ringState u j = ringState s j
    let only := fun (u : State) => { u with rings := s.rings, dram := s.dram, ringMem := s.ringMem } = s
    let last := 32 * (h.base + x.tail.toNat % 2 ^ h.size) + 28
    (x.job = none → op = 1 → good → Does (.bulkToDram r) s fun u => taken u .ok ∧ only u ∧ u.ringMem = s.ringMem ∧
      Memory.read 0 u.dram k = if dram ≤ k ∧ k < dram + n then Memory.read 0 s.ringMem (ring + (k - dram)) else Memory.read 0 s.dram k) ∧
    (x.job = none → op = 2 → good → Does (.bulkFromDram r) s fun u => taken u .ok ∧ only u ∧ u.dram = s.dram ∧
      Memory.read 0 u.ringMem k = if ring ≤ k ∧ k < ring + n then Memory.read 0 s.dram (dram + (k - ring)) else Memory.read 0 s.ringMem k) ∧
    (x.job = none → op = 1 → memOn s = true → ¬ free → Does (.bulkToDram r) s fun u => taken u .mode ∧ { u with rings := s.rings } = s) ∧
    (x.job = none → op = 1 → memOn s = true → free → ¬ sane → Does (.bulkToDram r) s fun u => taken u .rsvd ∧ { u with rings := s.rings } = s) ∧
    (x.job = none → op = 2 → memOn s = true → ¬ sane → Does (.bulkFromDram r) s fun u => taken u .rsvd ∧ { u with rings := s.rings } = s) ∧
    (x.job = none → op = 2 → memOn s = true → sane → ¬ inside → Does (.bulkFromDram r) s fun u => taken u .range ∧ { u with rings := s.rings } = s) ∧
    (x.job = none → op = 2 → memOn s = false → Does (.bulkFromDram r) s fun u => taken u .absent ∧ { u with rings := s.rings } = s) ∧
    (x.job = some code → code < 2 ^ 8 → Does (.bulkComplete r ecc) s fun u =>
      ringState u r.toNat = { x with tail := x.tail + 1, job := none } ∧ (∀ j, j ≠ r.toNat → ringState u j = ringState s j) ∧
      { u with rings := s.rings, ringMem := s.ringMem, flt := s.flt, det := s.det, host := s.host } = s ∧ { u.host with intLatched := s.host.intLatched } = s.host ∧
      u.flt = (if code ≠ 0 ∨ ecc = .clean then s.flt else if op = 2 then (if ecc = .corrected then { s.flt with dce := min (s.flt.dce + 1) 255 } else
        { s.flt with due := min (s.flt.due + 1) 255 }) else if ecc = .corrected then { s.flt with sce := min (s.flt.sce + 1) 255 } else s.flt) ∧
      (code = 0 → ecc = .uncorrectable → inPeriod s = true → u.det.fault = true ∧ detValid u = false) ∧ (ecc ≠ .uncorrectable ∨ inPeriod s = false → u.det = s.det) ∧
      Memory.read 0 u.ringMem k = (if last ≤ k ∧ k < last + 4 then (if k = last + 3 then BitVec.ofNat 8 (if code = 0 ∧ ecc = .uncorrectable then 13 else code) else 0)
        else Memory.read 0 s.ringMem k))

/-- TASK_READY, TASK_CANCEL and TASK_DELAY on every state of a task. From firmware, or for a task that the host may
command: READY stamps an idle or delayed task and makes it ready, marks a running one to run again, and leaves others;
CANCEL makes a ready, prefetched or delayed task idle (emptying its slot) and clears the mark of a running one; DELAY
makes an idle task delayed. Each takes the next command sequence number, changes no other task, and answers in its
ring entry OK, E_NOTFOUND or E_BUSY with that number. A command that the caller may not give, or a malformed one given
directly, changes nothing. Rests on: Rings, Mailboxes and the Task Scheduler, The task scheduler; Rings, Mailboxes and
the Task Scheduler, Ring types. -/
def Obligations.TaskCommands : Prop :=
  ∀ (s : State) (t : BitVec 10) (n : HWord) (who : Agent) (w : Words) (r : Nat) (h : HRing), s.shape = unitCounts →
    let t0 := t.setWidth 32
    let task := t.toNat
    let d := descAt s task
    let q := s.sched.seq
    let ready := fun (w : Words) => Instr.taskReady ⟨w, who⟩
    let cancel := Instr.taskCancel ⟨[t0], who⟩
    let delay := Instr.taskDelay ⟨[t0, n.setWidth 32], who⟩
    let may := who = .firmware ∨ d.host = true
    let direct := fun (cmd : Nat) (w : Words) => taskRingOf s (taskWords cmd ⟨w, who⟩) who = none
    let plain := direct 1 [t0] ∧ direct 2 [t0] ∧ direct 3 [t0, n.setWidth 32]
    let next := fun (u : State) => u.sched.seq = (q + 1) % 2 ^ 32 ∧ (∀ k, k ≠ task → descAt u k = descAt s k) ∧ { u with sched := s.sched } = s
    let same := fun (u : State) => next u ∧ descAt u task = d ∧ u.sched.cores = s.sched.cores
    let stamped := fun (u : State) => next u ∧ u.sched.cores = s.sched.cores ∧
      descAt u task = { d with state := .ready, stamp := q, readyAt := s.now, remain := 0 }
    let queued := d.state = .ready ∨ d.state = .prefetched
    let answers := fun (u : State) (e : Err) => (ringState u r).tail = (ringState s r).tail + 1 ∧
      Memory.readW 0 u.ringMem (ringAddr h (ringState s r).tail.toNat + 28) = BitVec.ofNat 32 (e.code * 2 ^ 24 + q % 2 ^ 24)
    let found := fun (cmd : Nat) (w : Words) => taskRingOf s (taskWords cmd ⟨w, who⟩) who = some r ∧ hringOf s r = some h
    (plain → may → d.state = .idle ∨ d.state = .delayed → Does (ready [t0]) s stamped) ∧
    (plain → may → queued → Does (ready [t0]) s same) ∧
    (plain → may → d.state = .running → Does (ready [t0]) s fun u => next u ∧ descAt u task = { d with rerun := true }) ∧
    (plain → may → d.state = .free → Does (ready [t0]) s same ∧ Does cancel s same ∧ (n ≠ 0 → Does delay s same)) ∧
    (plain → may → d.state = .idle → Does cancel s same) ∧
    (plain → may → queued → Does cancel s fun u => next u ∧ descAt u task = { d with state := .idle } ∧
      ∀ k, k < 20 → (schCore u k).slot = if (schCore s k).slot = some task then none else (schCore s k).slot) ∧
    (plain → may → d.state = .delayed → Does cancel s fun u => next u ∧ descAt u task = { d with state := .idle, remain := 0 }) ∧
    (plain → may → d.state = .running → Does cancel s fun u => next u ∧ descAt u task = { d with rerun := false }) ∧
    (plain → may → n ≠ 0 → d.state = .idle → Does delay s fun u =>
      next u ∧ descAt u task = { d with state := .delayed, remain := n.toNat, delaySeq := q }) ∧
    (plain → may → n ≠ 0 → d.state ≠ .idle → Does delay s same) ∧
    (plain → n = 0 → may → Does delay s fun u => u = s) ∧
    (plain → ¬ may → Does (ready [t0]) s (fun u => u = s) ∧ Does cancel s (fun u => u = s) ∧ Does delay s fun u => u = s) ∧
    (direct 1 w → Words.fld w 0 23 10 ≠ 0 ∨ ¬ (∀ i, i < 6 → w.getD (i + 1) 0 = 0) → Does (ready w) s fun u => u = s) ∧
    (found 1 [t0] → may → Does (ready [t0]) s fun u => answers u (if d.state = .free then .notFound else .ok)) ∧
    (found 2 [t0] → may → Does cancel s fun u =>
      answers u (if d.state = .free ∨ d.state = .idle then .notFound else if d.state = .running then .busy else .ok)) ∧
    (found 3 [t0, n.setWidth 32] → may → n ≠ 0 → Does delay s fun u =>
      answers u (if d.state = .free then .notFound else if d.state = .idle then .ok else .busy))

/-- Filling prefetch slots with the preferred ready task, and dispatching from them. A prefetch slot takes a ready
task of its core that no other ready one is preferred to, displacing only a task of lower priority, and stays when
none is better; slots are filled in order of core. TASK_DISPATCH runs the slot's task on an idle control core, or on
an engine whose background is free, recording waits; on a busy core nothing happens; an empty slot is filled first.
Rests on: Rings, Mailboxes and the Task Scheduler, The task scheduler. -/
def Obligations.Slots : Prop :=
  ∀ (s : State) (j t x : Nat), s.shape = unitCounts → j < 20 →
    let slot := fun (u : State) (k : Nat) => (schCore u k).slot
    let able := fun (s : State) (j t : Nat) => (descAt s t).state = .ready ∧ taskFor j (descAt s t) = true
    let fills := fun (j : Nat) (m u : State) =>
      (∀ t, slot u j = some t → slot m j ≠ some t → able m j t ∧ (∀ k, able m j k → prefers (descAt m k) (descAt m t) = false) ∧
        descAt u t = { descAt m t with state := .prefetched, core := j } ∧
        (∀ x, slot m j = some x → (descAt m x).prio < (descAt m t).prio ∧ descAt u x = { descAt m x with state := .ready })) ∧
      (slot u j = none → slot m j = none ∧ ∀ k, ¬ able m j k) ∧
      (∀ x, slot m j = some x → slot u j = some x → u = m ∧ ∀ k, able m j k → (descAt m k).prio ≤ (descAt m x).prio) ∧
      (∀ k, k ≠ j → slot u k = slot m k) ∧ (∀ k, slot u j ≠ some k → slot m j ≠ some k → descAt u k = descAt m k) ∧
      { u with sched := m.sched } = m
    let now := max s.now t
    let starts := fun (m u : State) =>
      let d := descAt m x
      let w := min ((now - d.readyAt) / 256) 65535
      schCore u j = { schCore m j with slot := none, run := some x, since := some now } ∧
      descAt u x = { d with state := .running, core := j, waitLast := w, waitMax := max d.waitMax w } ∧ u.now = now ∧
      (∀ k, k ≠ j → schCore u k = schCore m k) ∧ (∀ k, k ≠ x → descAt u k = descAt m k) ∧ u.sched.seq = s.sched.seq
    let idle := (schCore s j).run = none
    let g := engAt s (j - 4)
    let fuller := g.on = true ∧ g.held = false ∧ g.bgen = true ∧ g.phase = .idle ∧ g.preReq = false ∧ (inPeriod s = true ∨ effMode s = .ready)
    let control := j < 4 ∧ s.fw.handover = none
    (taskRings s = [] → Does (.prefetchSlotFill 0) s fun u => fills 0 s u) ∧
    (taskRings s = [] → j + 1 < 20 → Does (.prefetchSlotFill (j + 1)) s fun u => Does (.prefetchSlotFill j) s fun m => fills (j + 1) m u) ∧
    (taskRings s = [] → Does (.prefetchSlotFill j) s fun m => slot m j = some x → idle → control → Does (.taskDispatch j t) s fun u =>
      starts m u ∧ { u with sched := s.sched, now := s.now } = s) ∧
    (taskRings s = [] → Does (.prefetchSlotFill j) s fun m => slot m j = some x → idle → 4 ≤ j → fuller → Does (.taskDispatch j t) s fun u =>
      starts m u ∧ { u with sched := s.sched, now := s.now, engines := s.engines } = s ∧
      (engAt u (j - 4)).phase = .background ∧ (engAt u (j - 4)).pc.toNat = (descAt m x).entry % 2 ^ 13 ∧ (engAt u (j - 4)).st = 0 ∧
      (engAt u (j - 4)).task = some x ∧ (engAt u (j - 4)).bg = g.bg ∧ ∀ e, e + 4 ≠ j → engAt u e = engAt s e) ∧
    (taskRings s = [] → Does (.prefetchSlotFill j) s fun m => slot m j = none ∨ ¬ idle ∨ ¬ (control ∨ (4 ≤ j ∧ fuller)) →
      Does (.taskDispatch j t) s fun u => u = { m with now := now })

/-- The end of a task, delays counted by the millisecond, and load windows. A task that completes becomes IDLE, or,
with RERUN, READY with the stamp of its completion and RERUN cleared; one that faults becomes IDLE, counts in TFAULT
and is recorded with its core; a task of an engine stopped on entry into SERVICE becomes IDLE without RERUN. The core
is free, its busy time counted, the sequence number advanced. A millisecond counts delayed tasks down and readies
those at their end. A load window turns busy time into LOAD and PEAK and starts anew. Stated for cores whose scheduler
has no task ring waiting. Formalises R345. -/
def Obligations.TaskEnds : Prop :=
  ∀ (s : State) (j t x y fixes : Nat) (fault : Bool), s.shape = unitCounts → j < 20 → taskRings s = [] →
    s.fw.handover = none → s.fw.actAt = none →
    let now := max s.now t
    let c := schCore s j
    let d := descAt s x
    let q := s.sched.seq
    let ends := fun (u : State) (z : Desc) => descAt u x = z ∧ (schCore u j).run = none ∧ (schCore u j).slot = c.slot ∧
      (schCore u j).busy = c.busy + (match c.since with | some a => now - a | none => 0) ∧ (schCore u j).since = none ∧
      u.sched.seq = (q + 1) % 2 ^ 32 ∧ u.now = now ∧ (∀ k, k ≠ j → schCore u k = schCore s k) ∧ (∀ k, k ≠ x → descAt u k = descAt s k) ∧
      { u with sched := s.sched, now := s.now, engines := s.engines } = s ∧
      (j < 4 → u.engines = s.engines) ∧ (4 ≤ j → (engAt u (j - 4)).task = none ∧ ((engAt u (j - 4)).phase = .background → False) ∧
        (engAt u (j - 4)).tfault = if fault then min ((engAt s (j - 4)).tfault + 1) 255 else (engAt s (j - 4)).tfault)
    let counts := fun (u : State) => (u.sched.tfault, u.sched.fltTask, u.sched.fltCore)
    let e := descAt s y
    let due := e.state = .delayed ∧ e.tick = true ∧ e.remain = 1
    let busy := c.busy + (match c.since with | some a => now - a | none => 0)
    let load := min (busy * 65536 / (s.sched.lwinCur * 786432)) 65535
    let window := fun (u : State) => (schCore u j).load = load ∧ (schCore u j).peak = max c.peak load ∧ (schCore u j).busy = 0 ∧
      u.sched.msCount = 0 ∧ u.sched.lwinCur = s.sched.lwin
    (c.run = none → Does (.taskEnd j fault t) s fun u => u = { s with now := now }) ∧
    (c.run = some x → fault = false → d.rerun = false → Does (.taskEnd j fault t) s fun u => ends u { d with state := .idle } ∧ counts u = counts s) ∧
    (c.run = some x → fault = false → d.rerun = true → Does (.taskEnd j fault t) s fun u =>
      ends u { d with rerun := false, state := .ready, stamp := q, readyAt := now, remain := 0 } ∧ counts u = counts s) ∧
    (c.run = some x → fault = true → Does (.taskEnd j fault t) s fun u =>
      ends u { d with state := .idle, rerun := false } ∧ counts u = (min (s.sched.tfault + 1) 255, x, j)) ∧
    (s.mode.mode = .ready → s.twin.paired = false → 4 ≤ j → c.run = some x → d.state = .running → d.core = j → Does (.serviceRequest (.port .host)) s fun u =>
      descAt u x = { d with state := .idle, rerun := false } ∧ (schCore u j).run = none) ∧
    (s.mode.mode ≠ .reset → s.mode.mode ≠ .sleep → Does (.millisecondTick t fixes) s fun u => u.now = now ∧
      (due → (descAt u y).state = .ready ∧ (descAt u y).readyAt = now ∧ (descAt u y).remain = 0) ∧
      (e.state = .delayed → e.tick = true → 2 ≤ e.remain → descAt u y = { e with remain := e.remain - 1 }) ∧
      (¬ (e.state = .delayed ∧ e.tick = true) → descAt u y = e) ∧
      (s.sched.msCount < s.sched.lwinCur → u.sched.msCount = s.sched.msCount + 1 ∧ u.sched.cores = s.sched.cores) ∧
      (s.sched.lwinCur ≤ s.sched.msCount → u.sched.msCount = 1 ∧ (schCore u j).load = load)) ∧
    (s.mode.mode = .reset ∨ s.mode.mode = .sleep → Does (.millisecondTick t fixes) s fun u => u = { s with now := now }) ∧
    (s.sched.lwinCur ≤ s.sched.msCount → Does (.loadWindowEnd t) s window) ∧
    (s.sched.msCount < s.sched.lwinCur → Does (.loadWindowEnd t) s fun u => u = { s with now := now })

/-- Mailboxes: send, read, flush, take, and outbound messages. The channel's own port fills an empty inbound mailbox
by its last word, advancing its sequence and marking a crossing where the outbound is full; a full one is E_FULL,
another port E_SECURITY. Reading the last outbound word empties the outbound mailbox. MBX_CTL sets the enables and
flushes, reserved bits are E_RSVD. Serving firmware takes a message and holds a request until it answers; it sends
eight words to an empty outbound mailbox and can flush it; without serving firmware nothing happens. No other channel
changes. Rests on: Rings, Mailboxes and the Task Scheduler, Mailboxes; Rings, Mailboxes and the Task Scheduler,
Registers. -/
def Obligations.Mailboxes : Prop :=
  ∀ (s : State) (p : Port) (c : BitVec 4) (v : Word) (m : Words) (r : BitVec 6) (h : HRing), s.shape = unitCounts → s.accessible →
    let own := p = .host ↔ c.toNat < 8
    let n := c.toNat
    let x := mbxAt s n
    let base := 0x8400 + 0x40 * n
    let others := fun (u : State) => (∀ k, k ≠ n → mbxAt u k = mbxAt s k) ∧ { u with mbx := s.mbx, fw := s.fw, host := s.host } = s
    let serves := fwServes s = true
    let kind := (x.inw.getD 0 0).toNat / 2 ^ 28
    (own → x.infull = false → Does (.mailboxSend p c v) s fun u => others u ∧ u.fw = s.fw ∧ u.host = (turnTo p 3 s).host ∧
      mbxAt u n = { x with inw := setAt x.inw 7 v, infull := true, iseq := (x.iseq + 1) % 256, cross := x.cross || x.outfull, fwCross := x.fwCross || x.outfull }) ∧
    (own → x.infull = true → Refuses (.mailboxSend p c v) s p 3 (base + 14) .full) ∧
    (¬ own → Refuses (.mailboxSend p c v) s p 3 (base + 14) .security ∧ Refuses (.flush p c v) s p 3 (base + 34) .security) ∧
    (own → Does (.mbxOutRead p c) s fun u => others u ∧ u.fw = s.fw ∧ mbxAt u n = { x with outfull := false } ∧ (portSt u p).wr = (portSt s p).wr) ∧
    (own → v &&& 0x7FFFFFF8#32 = 0 → Does (.flush p c v) s fun u => others u ∧ u.fw = s.fw ∧ mbxAt u n = { x with
      errie := v.getLsbD 2, ineie := v.getLsbD 1, outie := v.getLsbD 0
      infull := x.infull && !v.getLsbD 31, flshd := x.flshd || (x.infull && v.getLsbD 31) }) ∧
    (own → v &&& 0x7FFFFFF8#32 ≠ 0 → Refuses (.flush p c v) s p 3 (base + 34) .rsvd) ∧
    (serves → x.infull = true → Does (.mailboxTake c) s fun u => others u ∧ u.host = s.host ∧ mbxAt u n = { x with infull := false } ∧
      fwReqs u n = (if kind = 2 ∨ kind = 3 then fwReqs s n else fwReqs s n ++ [x.inw]) ∧
      ∀ k, k ≠ n → fwReqs u k = fwReqs s k) ∧
    (serves → x.infull = false → Does (.mailboxTake c) s fun u => u = s) ∧
    (serves → x.outfull = false → fwOuts s n = [] → Does (.outboundSend c m none) s fun u => others u ∧ u.fw = s.fw ∧ u.host = s.host ∧
      mbxAt u n = { x with outw := (mbxAt u n).outw, outfull := true, oseq := (x.oseq + 1) % 256, cross := x.cross || x.infull, fwCross := x.fwCross || x.infull } ∧
      (mbxAt u n).outw.length = 8 ∧ ∀ i, i < 8 → (mbxAt u n).outw.getD i 0 = m.getD i 0) ∧
    (serves → x.outfull = true → Does (.outboundSend c m none) s fun u => u = s) ∧
    (serves → hringOf s r.toNat = some h → h.type = 3 → h.prod = .cores → (m.getD 0 0).toNat / 2 ^ 28 = 3 → Does (.outboundSend c m (some r)) s fun u =>
      (ringCount (ringState s r.toNat) < 2 ^ h.size → (ringState u r.toNat).head = (ringState s r.toNat).head + 1 ∧
        (ringState u r.toNat).lost = (ringState s r.toNat).lost ∧
        ∀ i, i < 8 → Memory.readW 0 u.ringMem (ringAddr h (ringState s r.toNat).head.toNat + 4 * i) = m.getD i 0) ∧
      (2 ^ h.size ≤ ringCount (ringState s r.toNat) → (ringState u r.toNat).lost = satInc 255 (ringState s r.toNat).lost ∧
        (ringState u r.toNat).head = (ringState s r.toNat).head ∧ u.ringMem = s.ringMem) ∧
      { u with rings := s.rings, ringMem := s.ringMem } = s) ∧
    (serves → Does (.outboundFlush c) s fun u => others u ∧ u.fw = s.fw ∧ u.host = s.host ∧ mbxAt u n = { x with outfull := false }) ∧
    (¬ serves → Does (.mailboxTake c) s (fun u => u = s) ∧ Does (.outboundSend c m (some r)) s (fun u => u = s) ∧ Does (.outboundSend c m none) s (fun u => u = s) ∧ Does (.outboundFlush c) s fun u => u = s)

/-- Replies of the INFO, LATENCY, OWNER_LOCK, MIDI and DMX services. A request that waits on a channel is answered
with KIND 2, its own service, function and sequence: INFO with the versions, LATENCY with the count or a path (E_RANGE
beyond, E_MODE with no hood), OWNER_LOCK on the SPI channels of an unlocked part in LOADER or READY by locking and
blowing the digest (E_SECURITY or E_MODE otherwise), MIDI_STATS, MIDI_SEND (its bytes join the queue; E_RANGE for a
bad count), DMX_STATUS (E_NOTFOUND for an unclaimed unit). An unknown service is E_NOTFOUND, a malformed request
E_RSVD. Nothing else changes. Rests on: Rings, Mailboxes and the Task Scheduler, Ilukin messages; Timers and Serial
Control Ports, MIDI and DMX services; The Structure Image and Blocking, Owner lock. -/
def Obligations.Services : Prop :=
  ∀ (s : State) (c : BitVec 4) (q : Byte) (k : Word) (u4 : BitVec 2) (ws : List Word) (n : BitVec 5) (digest : List Byte) (x : HPath) (m : Words), s.shape = unitCounts →
    let ch := c.toNat
    let mode := s.mode.mode
    let paths := pathsOf s
    let only := fun (u : State) => { u with mbx := s.mbx, fw := s.fw } = s
    let ok := fun (cmd : Instr) (m : Words) (args : List Nat) => Does cmd s fun u => Replied s u ch m .ok args ∧ only u
    let no := fun (cmd : Instr) (m : Words) (e : Err) => Does cmd s fun u => Replied s u ch m e [] ∧ only u
    let word := fun (m : Words) (i : Nat) => (m.getD i 0).toNat
    let uw := u4.setWidth 32
    let un := u4.toNat
    let midi := (uartAt s un).midi
    let dmx := (uartAt s un).dmx
    let info := request 1 1 q []
    let count := request 2 1 q []
    let path := request 2 2 q [k]
    let lock := request 0x10 1 q ws
    let stats := request 4 1 q [uw]
    let send := request 4 2 q ((uw ||| n.setWidth 32 <<< 8) :: ws)
    let status := request 5 1 q [uw]
    (Asked s ch info → ok (.info c) info [fwVersion s, hoodVer s, Config.loaderVersion.toNat]) ∧
    (Asked s ch count → mode ≠ .loader → mode ≠ .load → ok (.latencyCount c) count [paths.length]) ∧
    (Asked s ch path → mode ≠ .loader → mode ≠ .load → paths[k.toNat]? = some x →
      ok (.latencyPath c) path [0, x.input.toNat, x.output.toNat, x.max % 2 ^ 16 * 2 ^ 16 + x.min % 2 ^ 16]) ∧
    (Asked s ch path → mode ≠ .loader → mode ≠ .load → paths.length ≤ k.toNat → no (.latencyPath c) path .range) ∧
    (mode = .loader ∨ mode = .load → (Asked s ch count → no (.latencyCount c) count .mode) ∧ (Asked s ch path → no (.latencyPath c) path .mode)) ∧
    (Asked s ch lock → 8 ≤ ch → mode = .loader ∨ mode = .ready → s.fuses.lock = false → Does (.ownerLock c digest) s fun u => Replied s u ch lock .ok [] ∧
      u.fuses = { s.fuses with lock := true, owner := u.fuses.owner } ∧ { u with mbx := s.mbx, fw := s.fw, fuses := s.fuses } = s ∧
      ∀ i, i < 32 → u.fuses.owner.getD i 0 = if i < s.fuses.owner.length then s.fuses.owner.getD i 0 ||| digest.getD i 0 else 0) ∧
    (Asked s ch lock → ch < 8 → no (.ownerLock c digest) lock .security) ∧
    (Asked s ch lock → 8 ≤ ch → s.fuses.lock = true ∨ ¬ (mode = .loader ∨ mode = .ready) → no (.ownerLock c digest) lock .mode) ∧
    (Asked s ch stats → mode ≠ .loader → (midiMap s un).isSome = true → ok (.midiStats c) stats [midi.parsed, midi.unmapped, midi.late, midi.discarded]) ∧
    (Asked s ch stats → mode ≠ .loader → (midiMap s un).isNone = true → no (.midiStats c) stats .notFound) ∧
    (Asked s ch send → mode ≠ .loader → (midiMap s un).isSome = true → 1 ≤ n.toNat → n.toNat ≤ 20 → txRing s un = none →
      (uartAt s un).txq.length + n.toNat ≤ (uartAt s un).size → Does (.midiSend c) s fun u => Replied s u ch send .ok [] ∧
      { u with mbx := s.mbx, fw := s.fw, uarts := s.uarts } = s ∧ (∀ k, k ≠ un → uartAt u k = uartAt s k) ∧
      uartAt u un = { uartAt s un with txq := (uartAt s un).txq ++ (List.range n.toNat).map fun i => BitVec.ofNat 8 (word send (3 + i / 4) / 2 ^ (8 * (i % 4))) }) ∧
    (Asked s ch send → mode ≠ .loader → (midiMap s un).isSome = true → n = 0 ∨ 20 < n.toNat → no (.midiSend c) send .range) ∧
    (Asked s ch status → mode ≠ .loader → (dmxMap s un).isSome = true → ok (.dmxStatus c) status
      [dmx.packets, dmx.ckerrs, dmx.lastSlots % 2 ^ 10 * 2 ^ 16 + dmx.lastCode % 2 ^ 8]) ∧
    (Asked s ch status → mode ≠ .loader → (dmxMap s un).isNone = true → no (.dmxStatus c) status .notFound) ∧
    (Asked s ch m → mode ≠ .loader → word m 0 / 2 ^ 28 = 1 → word m 0 / 2 ^ 24 % 2 ^ 4 = 0 → word m 1 = 0 → (6 ≤ word m 0 / 2 ^ 16 % 2 ^ 8 ∧
      word m 0 / 2 ^ 16 % 2 ^ 8 ≤ 15) → no (.info c) m .notFound) ∧
    (Asked s ch m → mode ≠ .loader → mode ≠ .load → word m 0 / 2 ^ 16 % 2 ^ 8 < 16 → word m 0 / 2 ^ 28 ≠ 1 ∨ word m 1 ≠ 0 →
      ∀ cmd ∈ [Instr.info c, .latencyCount c, .midiStats c, .dmxStatus c], Does cmd s fun u => Replied s u ch m .rsvd [] ∧ only u)

/-- The UPDATE service: BEGIN, LOAD, VERIFY, ACTIVATE, CONFIRM, ABORT and STATUS. BEGIN in IDLE with a good length
erases the idle bank and starts a download (E_MODE, E_RANGE otherwise); LOAD copies aligned ring memory into it and
marks the blocks (E_RANGE, or E_BUSY on another channel); VERIFY of a complete image answers the image check and goes
to VERIFIED or IDLE (E_FORMAT if incomplete); ACTIVATE in VERIFIED and CONFIRM in TRIAL wait for their end; ABORT
returns to IDLE; STATUS answers four words. In another stage E_MODE. The end of a confirm records the version, raises
the epoch and writes the flash image, or reports E_ECC and changes neither. The running bank is never touched. Rests
on: Firmware Update and Handover, The UPDATE service; Firmware Update and Handover, Version floors. -/
def Obligations.Updates : Prop :=
  ∀ (s : State) (c : BitVec 4) (q : Byte) (len off a n v0 v1 f : Word) (k : Nat) (ok : Bool) (m : Words), s.shape = unitCounts →
    let ch := c.toNat
    let w := s.fw
    let idle := idleBank s
    let bank := fun (u : State) (b : Nat) => if b = 0 then u.fw.bank0 else u.fw.bank1
    let only := fun (u : State) => { u with mbx := s.mbx, fw := s.fw } = s
    let mine := w.chan = ch ∧ w.waiting = none
    let no := fun (cmd : Instr) (m : Words) (e : Err) => Does cmd s fun u => Replied s u ch m e [] ∧ only u ∧ u.fw.stage = w.stage ∧ u.fw.bank0 = w.bank0 ∧ u.fw.bank1 = w.bank1
    let kept := fun (u : State) => u.fw.bank = w.bank ∧ u.fw.rom = w.rom ∧ bank u (1 - idle) = bank s (1 - idle) ∧ u.fw.waiting = w.waiting ∧ u.fw.actAt = w.actAt
    let begin := request 0x11 1 q [len]
    let load := request 0x11 2 q [off, a, n]
    let verify := request 0x11 3 q []
    let activate := request 0x11 4 q [v0, v1, f]
    let confirm := request 0x11 5 q []
    let abort := request 0x11 6 q []
    let status := request 0x11 7 q []
    let good := len.toNat % 64 = 0 ∧ 256 ≤ len.toNat ∧ len.toNat ≤ 131072
    let fits := a.toNat % 32 = 0 ∧ off.toNat % 64 = 0 ∧ n.toNat % 64 = 0 ∧ 64 ≤ n.toNat ∧ n.toNat ≤ 8192 ∧ off.toNat + n.toNat ≤ w.length ∧ a.toNat + n.toNat ≤ 0x30000
    let complete := ∀ i, i < w.length / 64 → Store.get false w.loaded i = true
    let waits := fun (u : State) (m : Words) => u.fw.waiting = some m ∧ fwReqs u ch = (fwReqs s ch).drop 1 ∧ u.mbx = s.mbx ∧ only u
    (Asked s ch begin → w.stage = .idle → good → Does (.begin_ c) s fun u => Replied s u ch begin .ok [] ∧ only u ∧ kept u ∧
      u.fw.stage = .download ∧ u.fw.chan = ch ∧ u.fw.length = len.toNat ∧ bank u idle = [] ∧ Store.get false u.fw.loaded k = false) ∧
    (Asked s ch begin → w.stage ≠ .idle → no (.begin_ c) begin .mode) ∧ (Asked s ch begin → w.stage = .idle → ¬ good → no (.begin_ c) begin .range) ∧
    (Asked s ch load → w.stage = .download → mine → fits → Does (.load c) s fun u => Replied s u ch load .ok [] ∧ only u ∧ kept u ∧ u.fw.stage = .download ∧
      Memory.read 0 (bank u idle) k = (if off.toNat ≤ k ∧ k < off.toNat + n.toNat then Memory.read 0 s.ringMem (a.toNat + (k - off.toNat)) else Memory.read 0 (bank s idle) k) ∧
      Store.get false u.fw.loaded k = (decide (off.toNat / 64 ≤ k ∧ k < (off.toNat + n.toNat) / 64) || Store.get false w.loaded k)) ∧
    (Asked s ch load → w.stage = .download → mine → ¬ fits → no (.load c) load .range) ∧
    (Asked s ch load → w.stage = .download → ¬ mine → fits → no (.load c) load .busy) ∧
    (Asked s ch verify → w.stage = .download → mine → complete → Does (.verify c) s fun u => Replied s u ch verify (verifyErr s) [] ∧ only u ∧ kept u ∧
      u.fw.stage = (if verifyErr s = .ok then .verified else .idle) ∧ u.fw.done = true ∧ u.fw.result = (verifyErr s).code ∧ bank u idle = bank s idle) ∧
    (Asked s ch verify → w.stage = .download → mine → ¬ complete → no (.verify c) verify .format) ∧
    (Asked s ch activate → w.stage = .verified → mine → f.toNat ≤ 1 → w.rom = true ∨ hoMode s = true → Does (.activate c) s fun u => waits u activate ∧
      u.fw.actAt = some (if f = 1 then none else some (v1.toNat * 2 ^ 32 + v0.toNat)) ∧ u.fw.stage = w.stage) ∧
    (Asked s ch confirm → w.stage = .trial → mine → Does (.confirm c) s fun u => waits u confirm ∧ u.fw.stage = .confirm) ∧
    (Asked s ch abort → w.stage = .download ∨ w.stage = .verified → mine → Does (.abort c) s fun u => Replied s u ch abort .ok [] ∧ only u ∧ kept u ∧
      u.fw.stage = .idle ∧ u.fw.chan = 0 ∧ bank u idle = []) ∧
    (Asked s ch status → Does (.status c) s fun u => Replied s u ch status .ok [updStat s, fwVersion s, verFloor s, imgVersion s] ∧ only u ∧ kept u ∧ u.fw.stage = w.stage) ∧
    (Asked s ch activate → w.stage ≠ .verified → no (.activate c) activate .mode) ∧ (Asked s ch confirm → w.stage ≠ .trial → no (.confirm c) confirm .mode) ∧
    (Asked s ch abort → w.stage ≠ .download → w.stage ≠ .verified → no (.abort c) abort .mode) ∧
    (w.stage = .confirm → w.waiting = some m → (mbxAt s w.chan).outfull = false → fwOuts s w.chan = [] → Does (.confirmEnd ok) s fun u =>
      let image := runningImage s
      let ver := leNat ((image.drop 0x0C).take 4)
      u.fw.waiting = none ∧ u.fw.done = true ∧ u.fw.bank = w.bank ∧ u.fw.bank0 = w.bank0 ∧ u.fw.bank1 = w.bank1 ∧
      (mbxAt u w.chan).outfull = true ∧ (mbxAt u w.chan).outw.map (·.toNat) = (0x20000000 + (m.getD 0 0).toNat % 2 ^ 24) :: (if ok then 0 else 13) * 2 ^ 24 :: List.replicate 6 0 ∧
      (ok = true → u.fw.stage = .idle ∧ u.fw.result = 0 ∧ (genRec s + 1 < 2 ^ 32 → image.length ≤ 0x20000 → vRec u = ver ∧ genRec u = genRec s + 1) ∧ u.fuses = { s.fuses with epoch := max s.fuses.epoch (min (ver / 2 ^ 24) 63) } ∧
        (k < image.length → k < 0x20000 → Memory.read 0xFF u.flash k = image.getD k 0)) ∧
      (ok = false → u.fw.stage = .trial ∧ u.fw.result = 13 ∧ (image.length ≤ 0x20000 → vRec u = vRec s) ∧ u.fuses = s.fuses ∧ (image.length ≤ k → Memory.read 0xFF u.flash k = Memory.read 0xFF s.flash k)))

/-- Handover outside running frames: start, restart, acknowledgement, fallback; boot and resident loader. A due
activation in LOADER, READY or HOLD enters HANDOVER and writes the handover record; at the boundary the cores restart
in the other bank if their tasks have ended, else the old mode returns with E_BUSY; an acknowledgement is recorded;
without one after two boundaries the old bank returns with E_INCOMPAT. Under the resident loader activation goes to
bank 0 in TRIAL. At its start the firmware image that passes its check runs from bank 0 (completing a cut confirmation
above the recorded version), else the loader stays with the code. Otherwise these rows change nothing. Rests on:
Firmware Update and Handover, Activation and handover; Firmware Update and Handover, Boot. -/
def Obligations.Handovers : Prop :=
  ∀ (s : State) (h : Handover) (m : Words) (t k : Nat), s.shape = unitCounts → framesRun s = false →
    let w := s.fw
    let due := w.actAt.isSome = true
    let place := s.mode.mode = .loader ∨ s.mode.mode = .ready ∨ s.mode.mode = .hold
    let free := (mbxAt s w.chan).outfull = false ∧ fwOuts s w.chan = []
    let replies := fun (u : State) (code : Nat) => w.waiting = some m → free → u.fw.waiting = none ∧ (mbxAt u w.chan).outfull = true ∧
      (mbxAt u w.chan).outw.map (·.toNat) = (0x20000000 + (m.getD 0 0).toNat % 2 ^ 24) :: code * 2 ^ 24 :: List.replicate 6 0
    let ended := (List.range 4).all fun k => (schCore s k).run.isNone
    let back := if s.mode.mode = .handover then s.mode.hoFrom else s.mode.mode
    let area := fun (u : State) (n : Nat) => (Memory.readW 0 u.fw.hoArea (4 * n)).toNat
    (w.rom = false → w.handover = none → due → place → Does .handoverStart s fun u => u.mode = { s.mode with mode := .handover, hoFrom := s.mode.mode } ∧
      u.fw.stage = .handover ∧ u.fw.handover = some ⟨0, false, false⟩ ∧ u.fw.actAt = none ∧ u.fw.bank = w.bank ∧
      area u 0 = 0x4F485657 ∧ area u 1 % 2 ^ 16 = bankWord (bankOf s w.bank) 0x14 % 2 ^ 16 ∧ area u 1 / 2 ^ 16 < 6137 ∧ area u 2 = 0 ∧ area u 3 = 0 ∧
      area u 4 = bankWord (bankOf s w.bank) 0x0C ∧ { u with mode := s.mode, fw := s.fw, use := s.use } = s) ∧
    (w.rom = true ∨ w.handover.isSome = true ∨ ¬ due ∨ ¬ place → Does .handoverStart s fun u => u = s) ∧
    (w.handover = some h → h.restarted = false → ended = true → Does .handoverRestart s fun u =>
      u.fw.bank = 1 - w.bank ∧ u.fw.handover = some ⟨1, true, false⟩ ∧ { u with fw := s.fw } = s) ∧
    (w.handover = some h → h.restarted = false → ended = false → Does .handoverRestart s fun u => u.mode.mode = back ∧
      u.fw.handover = none ∧ u.fw.bank = w.bank ∧ u.fw.stage = .verified ∧ u.fw.done = true ∧ u.fw.result = 5 ∧ replies u 5) ∧
    (w.handover = some h → h.restarted = true → Does .handoverAck s fun u => u = { s with fw := { w with handover := some { h with ack := true } } }) ∧
    (w.handover = none ∨ (w.handover = some h ∧ h.restarted = false) → Does .handoverAck s fun u => u = s) ∧
    (w.handover = some h → h.restarted = true → h.ack = false → 2 ≤ h.count → Does .handoverFallback s fun u => u.mode.mode = back ∧
      u.fw.handover = none ∧ u.fw.bank = 1 - w.bank ∧ u.fw.stage = .verified ∧ u.fw.done = true ∧ u.fw.result = 17 ∧ replies u 17 ∧
      ∀ j, j < 4 → (schCore u j).run = none ∧ (schCore u j).slot = none) ∧
    (w.handover = some h → ¬ (h.restarted = true ∧ h.ack = false ∧ 2 ≤ h.count) → Does .handoverFallback s fun u => u = s) ∧
    (w.rom = true → w.handover = none → due → Does .loaderActivate s fun u => u.fw.rom = false ∧ u.fw.bank = 0 ∧ u.fw.stage = .trial ∧
      u.fw.actAt = none ∧ u.fw.loaderTrial = true ∧ u.fw.done = true ∧ u.fw.result = 0 ∧ replies u 0 ∧ { u with fw := s.fw, mbx := s.mbx } = s) ∧
    (w.rom = false ∨ w.handover.isSome = true ∨ ¬ due → Does .loaderActivate s fun u => u = s) ∧
    (w.bootAt.isNone = true → Does (.firmwareStart t) s fun u => u = { s with now := max s.now t }) ∧
    (w.bootAt.isSome = true → Does (.firmwareStart t) s fun u => u.fw.bootAt = none ∧ u.now = max s.now t ∧
      let image := bootImage s
      let e := imgCheck image s.fuses.fwRevoked (verFloor s)
      (e ≠ .ok → u.fw.rom = true ∧ u.fw.result = e.code ∧ u.fuses = s.fuses ∧ u.flash = s.flash) ∧
      (e = .ok → u.fw.rom = false ∧ u.fw.bank = 0 ∧ (k < image.length → Memory.read 0 u.fw.bank0 k = image.getD k 0) ∧
        (vRec s < imgWord image 0x0C → genRec s + 1 < 2 ^ 32 → u.fw.resumed = true ∧ vRec u = imgWord image 0x0C)))

/-- Timers: start, stop, source edges, count pulses, wraps, matches and captures. TMR_GO starts exactly the timers it
names from their phase, for their owner; a claimed timer is E_MODE from a port, a reserved bit E_RSVD. Clearing RUN
stops one. A source edge adds to the accumulator, and on a pulse CNT counts down or reloads BUF, with WRAPF, the pin,
and the event offer of a wrap, and a match sets CMPF, drives the pin and advances CMP under auto-add; the wrap and
match rows are that pulse (log entry 38). A capture records the pin, and at its edge count and frame, with OVR where
unread; reading it clears CAPF. Other timers stay. Rests on: Timers and Serial Control Ports, Timers; Timers and
Serial Control Ports, Counting; Timers and Serial Control Ports, Compare; Timers and Serial Control Ports, Capture;
Timers and Serial Control Ports, Events from timers. -/
def Obligations.Timers : Prop :=
  ∀ (s : State) (p : Port) (who : Agent) (v : Word) (n : BitVec 3) (up : Bool), s.shape = unitCounts → s.accessible →
    let m := timerAt s n.toNat
    let at_ := fun (u : State) => timerAt u n.toNat
    let only := fun (u : State) => { u with timers := s.timers, host := s.host } = s ∧ ∀ k, k ≠ n.toNat → timerAt u k = timerAt s k
    let claimed := fun (k : Nat) => timerClaimed s k = true
    let fw := who = .firmware
    let may := (¬ fw → ¬ claimed n.toNat) ∧ (fw → claimed n.toNat ∧ fwActs s = true)
    let mayAll := ∀ k, k < 8 → v.getLsbD k = true → (¬ fw → ¬ claimed k) ∧ (fw → claimed k ∧ fwActs s = true)
    let stop := 0x40000000#32 ||| (BitVec.ofNat 32 m.ctl &&& 0x3FFFFFFF#32)
    let sum := m.acc + 65536
    let pulse := m.run = true ∧ m.div ≤ sum
    let clock := m.src = 0 ∨ m.src = 1
    let picked := m.out = 0 ∧ m.src = 3 ∧ (m.edge = 2 ∨ m.edge = (if up then 0 else 1))
    let cnt := if m.cnt = 0 then m.buf else m.cnt - 1
    let low := m.out = 2 ∧ m.cnt = 0
    let auto := m.auto = true ∧ (s.mode.mode = .loader ∨ s.mode.mode = .ready ∨ s.mode.mode = .safe ∨ s.mode.mode = .service)
    let offers := m.cnt = 0 ∧ m.evt = true ∧ (timerTemplate s n.toNat).isSome = true ∧ effMode s ≠ .runShadow
    let counted := fun (x : Timer) => x.acc = sum - m.div ∧ x.cnt = cnt ∧ (m.cnt = 0 → x.wrapf = true) ∧ (m.cnt ≠ 0 → x.wrapf = m.wrapf) ∧
      (cnt = m.cmp → x.cmpf = true ∧ x.pin = if m.out = 1 then !m.pin else if m.out = 2 then true else m.pin) ∧
      (cnt ≠ m.cmp → x.cmpf = m.cmpf ∧ x.cmp = m.cmp ∧ x.pin = if low then false else m.pin) ∧ (cnt = m.cmp → ¬ auto → x.cmp = m.cmp) ∧
      (cnt = m.cmp → auto → (x.cmp : Int) = ((if m.intv ≤ m.cmp then (m.cmp - m.intv : Int) else m.cmp - m.intv + m.buf + 1)) % 2 ^ 32) ∧
      (¬ offers ∨ m.offer = false → x.evlost = m.evlost) ∧
      { x with acc := m.acc, cnt := m.cnt, wrapf := m.wrapf, cmpf := m.cmpf, pin := m.pin, cmp := m.cmp, offer := m.offer, evlost := m.evlost } = m
    let edge := fun (u : State) => counted (at_ u) ∧ u.mode = s.mode ∧ u.frame = s.frame ∧ u.hood = s.hood ∧
      (m.offer = false → ¬ offers → only u ∧ u.host = s.host ∧ (at_ u).offer = false) ∧ (offers → s.twin.shut = true → (at_ u).offer = true ∧ (m.offer = true → (at_ u).evlost = min (m.evlost + 1) 255))
    (mayAll → v.toNat < 256 → Does (.timerStart who v) s fun u => { u with timers := s.timers, host := s.host } = s ∧ ∀ k, k < 8 → timerAt u k =
      if v.getLsbD k then { timerAt s k with cnt := (timerAt s k).phase, acc := 0, run := true, pin := (timerAt s k).pin && (timerAt s k).out == 0 } else timerAt s k) ∧
    (v.toNat < 256 → ¬ (∀ k, k < 8 → v.getLsbD k = true → ¬ claimed k) → Refuses (.timerStart (.port p) v) s p 0 0x1500 .mode) ∧
    (256 ≤ v.toNat → (∀ k, k < 8 → v.getLsbD k = true → ¬ claimed k) → Refuses (.timerStart (.port p) v) s p 0 0x1500 .rsvd) ∧
    (may → m.src < 4 → m.dom < 4 → m.edge < 3 → m.cape < 4 → m.out < 3 → (m.out = 0 ∨ (m.src ≠ 3 ∧ m.cape = 0)) → (m.evt = true → (timerTemplate s n.toNat).isSome = true) →
      domUsed s m.dom = true → Does (.timerStop who n stop) s fun u => only u ∧ at_ u = { m with run := false }) ∧
    (claimed n.toNat → v &&& 0x0003F1FF#32 = 0 → Refuses (.timerStop (.port p) n v) s p 0 (0x1400 + 0x20 * n.toNat) .mode) ∧
    (clock → pulse → Does (.timerSourceEdge n) s edge) ∧
    (clock → m.run = true → sum < m.div → Does (.timerSourceEdge n) s fun u => at_ u = { m with acc := sum, offer := (at_ u).offer } ∧
      u.mode = s.mode ∧ u.frame = s.frame ∧ (m.offer = false → only u ∧ (at_ u).offer = false)) ∧
    (¬ clock ∨ (m.run = false ∧ m.offer = false) → Does (.timerSourceEdge n) s fun u => u = s) ∧
    (m.run = false → Does (.timerSourceEdge n) s fun u => at_ u = { m with offer := (at_ u).offer } ∧ u.mode = s.mode ∧ u.frame = s.frame) ∧
    (clock → pulse → m.cnt = 0 → Does (.timerWrap n) s edge) ∧
    (clock → pulse → cnt = m.cmp → Does (.compareMatch n) s edge) ∧
    (m.cnt ≠ 0 → Does (.timerWrap n) s fun u => u = s) ∧ (cnt ≠ m.cmp → Does (.compareMatch n) s fun u => u = s) ∧
    (picked → pulse → m.cape = 0 → Does (.capture n up) s fun u => (at_ u).pin = up ∧ counted { at_ u with pin := m.pin } ∧ u.mode = s.mode ∧ u.frame = s.frame) ∧
    (picked → Does (.capture n up) s fun u => (at_ u).pin = up ∧ u.mode = s.mode ∧ u.frame = s.frame ∧ u.hood = s.hood) ∧
    (¬ picked ∨ (m.run = false ∧ m.offer = false) → Does (.capture n up) s fun u => only u ∧ u.host = s.host ∧
      let hit := m.out = 0 ∧ (if up then m.cape = 1 ∨ m.cape = 3 else m.cape = 2 ∨ m.cape = 3)
      at_ u = { m with
        pin := if m.out = 0 then up else m.pin, capf := m.capf || decide hit, ovr := m.ovr || (m.capf && decide hit)
        capCount := if hit then m.cnt else m.capCount
        capFrame := if hit then (if effMode s = .ready then s.frame.start else s.frame.cnt) % 2 ^ 32 else m.capFrame }) ∧
    (Does (.tmrCapRead who n) s fun u => only u ∧ ((fw → fwActs s = true) → at_ u = { m with capf := false }))

/-- UART receivers: characters, tags, breaks, DMX frames, and receive rings. A listening receiver decides each bit by
majority, stores the character with the highest tag that applies and the frame, or counts a false start, a framing
error or an overrun (replacing the last entry with COMPAT). In frame mode slots, start code, RDM checksum and length
errors follow the packet; a break of 88 microseconds with a mark of 8 starts one. A break sets low and silent, re-arm
clears them; an idle line or a packet timeout closes the last entry. UART_RXD removes the oldest. With a ring,
characters gather and move there as one entry, with frame, slot, flags and count, at the trigger or on idle, if there
is room, and UART_RXD gives zero. Rests on: Timers and Serial Control Ports, UARTs; Timers and Serial Control Ports,
Bit timing; Timers and Serial Control Ports, Rings and direct access; Timers and Serial Control Ports, DMX512-A and
RDM. -/
def Obligations.Receivers : Prop :=
  (∀ (s : State) (p : Port) (u4 : BitVec 2) (ss : List (BitVec 3)) (c : RxChar) (pk : Packet) (lowUs high : Nat) (highUs : Option Nat), s.shape = unitCounts → s.accessible →
    rxRing s u4.toNat = none →
    let un := u4.toNat
    let a := uartAt s un
    let at_ := fun (u : State) => uartAt u un
    let stamp := if effMode s = .ready then s.frame.start else s.frame.cnt
    let only := fun (u : State) => { u with uarts := s.uarts, host := s.host } = s ∧ ∀ k, k ≠ un → uartAt u k = uartAt s k
    let hears := a.en = true ∧ (a.de = false ∨ a.echo = true)
    let listens := hears ∧ a.silent = false
    let bit := fun (i : Nat) => let x := ss.getD i 7; if 2 ≤ (if x.getLsbD 0 then 1 else 0) + (if x.getLsbD 1 then 1 else 0) + (if x.getLsbD 2 then 1 else 0) then 1 else 0
    let width := 5 + a.dbits
    let bits := 2 + width + (if a.par = 0 then 0 else 1)
    let data := ((List.range width).map fun i => bit (i + 1) * 2 ^ i).sum
    let ones := ((List.range (width + 1)).map fun i => bit (i + 1)).sum
    let noisy := (List.range bits).any fun i => ss.getD i 7 != 0 && ss.getD i 7 != 7
    let zero := (List.range bits).all fun i => bit i == 0
    let tag := if bit (bits - 1) = 0 then 3 else if (a.par = 1 ∧ ones % 2 = 1) ∨ (a.par = 2 ∧ ones % 2 = 0) then 2 else if noisy then 1 else 0
    let room := a.rxq.length < 16 * 2 ^ a.qsize
    let entry := fun (t d slot : Nat) (start fin ck : Bool) => (⟨BitVec.ofNat 16 (t * 256 + d), stamp, slot, start, fin, ck, fin⟩ : RxChar)
    let stores := fun (u : State) (x : RxChar) => (room → (at_ u).rxq = a.rxq ++ [x] ∧ (at_ u).ovr = a.ovr) ∧
      (¬ room → (at_ u).ovr = min (a.ovr + 1) 255 ∧ (at_ u).rxq = if a.compat then a.rxq.dropLast ++ [x] else a.rxq)
    let receive := Instr.receiveCharacter u4 ss
    let k := pk.slot
    let got := listens ∧ bit 0 = 0 ∧ zero = false
    let low := !(ss.getD (if bit 0 = 1 then 0 else bits - 1) 7).getLsbD 2
    let closed := a.rxq.dropLast ++ [{ c with close := true, fin := true }]
    let still := fun (u : State) => (at_ u).low = low ∧ (at_ u).silent = false
    let last := a.rxq.getLast?
    (got → a.mode = false → a.dbits ≤ 3 → Does receive s fun u => only u ∧ stores u (entry tag data 0 false false false) ∧
      (at_ u).ferr = (if tag = 3 then min (a.ferr + 1) 255 else a.ferr) ∧ still u ∧ { at_ u with rxq := a.rxq, ovr := a.ovr, ferr := a.ferr, low := a.low } = a) ∧
    (listens → bit 0 = 1 → Does receive s fun u => only u ∧ at_ u = { a with low := low, falseN := min (a.falseN + 1) 255 }) ∧
    (listens → zero = true → a.mode = false → Does receive s fun u => only u ∧ stores u (entry 4 0 0 false false false) ∧
      (at_ u).ferr = min (a.ferr + 1) 255 ∧ (at_ u).low = low ∧ (at_ u).silent = true) ∧
    (listens → zero = true → a.mode = true → Does receive s fun u => only u ∧ at_ u = { a with low := low, silent := true }) ∧
    (¬ listens → Does receive s (fun u => only u ∧ at_ u = { a with low := low }) ∧ Does (.break_ u4) s fun u => only u ∧ at_ u = { a with low := true }) ∧
    (got → a.mode = true → a.dbits = 3 → a.pkt = some pk → k ≤ 512 → pk.startCode ≠ 0xCC ∨ k = 0 → (k = 0 → data ≠ 0xCC) → Does receive s fun u => only u ∧
      stores u (entry tag data k (k == 0) false false) ∧ still u ∧
      (at_ u).pkt.map (fun q => (q.slot, q.startCode, q.ovr)) = some (k + 1, if k = 0 then data else pk.startCode, pk.ovr)) ∧
    (got → a.mode = true → a.dbits = 3 → a.pkt = some pk → 512 < k → Does receive s fun u => only u ∧ (at_ u).rxq = a.rxq ∧
      (at_ u).dmxerr = if pk.ovr then a.dmxerr else min (a.dmxerr + 1) 255) ∧
    (got → a.mode = true → a.dbits = 3 → a.pkt = some pk → 3 ≤ k → k ≤ 512 → pk.startCode = 0xCC → k = pk.len + 1 → Does receive s fun u => only u ∧
      stores u (entry tag data k false true (pk.hi * 256 + data != pk.sum % 65536)) ∧ (at_ u).pkt = none) ∧
    (got → a.mode = true → a.pkt = none → Does receive s fun u => only u ∧ (at_ u).rxq = a.rxq) ∧
    (listens → a.mode = false → Does (.break_ u4) s fun u => only u ∧ stores u (entry 4 0 0 false false false) ∧ (at_ u).ferr = min (a.ferr + 1) 255 ∧
      (at_ u).low = true ∧ (at_ u).silent = true) ∧
    (listens → a.mode = true → Does (.break_ u4) s fun u => only u ∧ at_ u = { a with low := true, silent := true }) ∧
    (¬ hears → Does (.deadLine u4) s fun u => only u ∧ at_ u = { a with low := true }) ∧
    (hears → a.mode = false ∨ a.pkt = none ∨ (a.pkt = some pk ∧ k = 0) → Does (.deadLine u4) s fun u => only u ∧
      at_ u = { a with low := true, dead := true, pkt := if a.mode then none else a.pkt }) ∧
    (hears → a.mode = true → a.pkt = some pk → k ≠ 0 → last = some c → Does (.deadLine u4) s fun u => only u ∧
      at_ u = { a with low := true, dead := true, pkt := none, rxq := closed }) ∧
    (Does (.uartRxRearm u4) s fun u => only u ∧ at_ u = { a with low := false, silent := false }) ∧
    (last = some c → Does (.rxEntryIdleClose u4) s fun u => only u ∧ at_ u = { a with low := false, rxq := a.rxq.dropLast ++ [{ c with close := true }] }) ∧
    (last = none → Does (.rxEntryIdleClose u4) s fun u => only u ∧ at_ u = { a with low := false }) ∧
    (hears → a.mode = true → 88 ≤ lowUs → a.pkt = none → Does (.dmxBreak u4 lowUs (some high)) s fun u => only u ∧ at_ u = { a with
      low := false, silent := a.silent && decide (high < 4), pkt := if 8 ≤ high then some ⟨0, 0, 0, 0, 0, false⟩ else none
      dmxerr := if 8 ≤ high then a.dmxerr else min (a.dmxerr + 1) 255 }) ∧
    (hears → a.mode = true → 88 ≤ lowUs → a.pkt = some pk → k ≠ 0 → last = some c → Does (.dmxBreak u4 lowUs (some high)) s fun u => only u ∧ at_ u = { a with
      low := false, silent := a.silent && decide (high < 4), pkt := if 8 ≤ high then some ⟨0, 0, 0, 0, 0, false⟩ else none, rxq := closed
      dmxerr := if 8 ≤ high then a.dmxerr else min (a.dmxerr + 1) 255 }) ∧
    (hears → a.mode = true → 88 ≤ lowUs → a.pkt = some pk → k ≠ 0 → last = some c → Does (.dmxBreak u4 lowUs none) s fun u => only u ∧
      at_ u = { a with low := true, pkt := none, rxq := closed }) ∧
    (¬ hears ∨ a.mode = false ∨ lowUs < 88 → Does (.dmxBreak u4 lowUs highUs) s fun u => only u ∧ at_ u = { a with low := highUs.isNone }) ∧
    (a.mode = true → a.de = false ∨ a.echo = true → a.pkt = some pk → k ≠ 0 → last = some c → Does (.dmxPacketTimeout u4) s fun u => only u ∧
      at_ u = { a with low := false, pkt := none, rxq := closed }) ∧
    (a.mode = false ∨ (a.de = true ∧ a.echo = false) ∨ a.pkt = none → Does (.dmxPacketTimeout u4) s fun u => only u ∧ at_ u = { a with low := false }) ∧
    (Does (.uartRxd (.port p) u4) s fun u => only u ∧ at_ u = { a with rxq := a.rxq.drop 1 })) ∧
  (∀ (s : State) (p : Port) (u4 : BitVec 2) (c x : RxChar) (ss : List (BitVec 3)) (r : Nat) (h : HRing), s.shape = unitCounts → s.accessible →
    rxRing s u4.toNat = some r → hringOf s r = some h → r < 64 →
    let un := u4.toNat
    let a := uartAt s un
    let q := ringState s r
    let room := (q.head - q.tail).toNat < 2 ^ h.size
    let n := a.rxq.length
    let most := min (if a.rxtrig = 0 then 128 else a.rxtrig) 14
    let whole := 1 ≤ n ∧ n ≤ most ∧ (∀ y ∈ a.rxq.dropLast, y.close = false)
    let words := fun (u : State) => (Memory.readWs 0 u.ringMem (ringAddr h q.head.toNat) 8).map (·.toNat)
    let half := fun (k : Nat) => if k < n then (a.rxq.getD k x).word.toNat else 0
    let entry := (c.stamp % 2 ^ 15 * 2 ^ 17 + (if x.ckerr then 2 ^ 16 else 0) + c.slot % 2 ^ 10 * 2 ^ 6 + (if c.start then 32 else 0) + (if x.fin then 16 else 0) + n) ::
      (List.range 7).map fun i => half (2 * i) + 2 ^ 16 * half (2 * i + 1)
    let plain := ss = 0 :: List.replicate 9 7 ∧ a.en = true ∧ a.silent = false ∧ a.de = false ∧ a.mode = false ∧ a.dbits = 3 ∧ a.par = 0 ∧
      n < 16 * 2 ^ a.qsize ∧ (∀ y ∈ a.rxq, y.close = false)
    let moved := fun (u : State) => (ringState u r).head = q.head + 1 ∧ (ringState u r).tail = q.tail ∧ (uartAt u un).rxq = []
    (whole → room → a.rxq.head? = some c → a.rxq.getLast? = some x → Does (.rxEntryIdleClose u4) s fun u => moved u ∧ words u = entry) ∧
    (¬ room → a.rxq.getLast? = some x → Does (.rxEntryIdleClose u4) s fun u => (ringState u r) = q ∧ u.ringMem = s.ringMem ∧
      (uartAt u un).rxq = a.rxq.dropLast ++ [{ x with close := true }]) ∧
    (Does (.uartRxd (.port p) u4) s fun u => u.uarts = s.uarts ∧ u.host.readOut = [0]) ∧
    (plain → n + 1 = most → room → Does (.receiveCharacter u4 ss) s moved) ∧
    (plain → n + 1 < most → Does (.receiveCharacter u4 ss) s fun u => (uartAt u un).rxq.length = n + 1 ∧ ringState u r = q ∧ u.ringMem = s.ringMem))

/-- UART transmitters: items, queue and ring entries; UART_TXD; disabling. An enabled transmitter sends its next item,
else the next byte of its queue, else the next ring entry: its bytes, after a break and mark where FIRST is set, with
the RDM checksum appended where asked; a malformed entry sets TXBAD; with nothing left DE falls. UART_TXD appends to
the queue of a free, enabled UART without ring, else E_FULL or E_MODE. Clearing EN empties queues, items and packet.
Another UART, and a disabled one, do not change. Rests on: Timers and Serial Control Ports, UARTs; Timers and Serial
Control Ports, Rings and direct access; Timers and Serial Control Ports, DMX512-A and RDM. -/
def Obligations.Transmitters : Prop :=
  ∀ (s : State) (p : Port) (u4 : BitVec 2) (b : Byte) (i : TxItem) (t : List TxItem) (v : Word) (e : Words) (r : Nat), s.shape = unitCounts → s.accessible →
    let un := u4.toNat
    let a := uartAt s un
    let at_ := fun (u : State) => uartAt u un
    let only := fun (u : State) => { u with uarts := s.uarts, host := s.host } = s ∧ ∀ k, k ≠ un → uartAt u k = uartAt s k
    let w0 := (e.getD 0 0).toNat
    let count := w0 % 32
    let data := (List.range count).map fun k => BitVec.ofNat 8 ((e.getD (1 + k / 4) 0).toNat / 2 ^ (8 * (k % 4)))
    let first := w0 / 2 ^ 8 % 2 = 1
    let plain := 1 ≤ count ∧ count ≤ 28 ∧ w0 / 2 ^ 10 = 0 ∧ w0 / 2 ^ 5 % 8 = 0 ∧ (a.mode = true ∨ w0 / 2 ^ 8 % 4 = 0)
    let send := Instr.transmitCharacter u4
    let free := uartClaimed s un = false
    let off := (BitVec.ofNat 32 a.cfg) &&& 0x7FFFFFFF#32
    let sane := a.dbits < 4 ∧ a.par < 3 ∧ a.qsize < 4 ∧ a.rxtrig < 128 ∧ a.txtrig < 128 ∧ trigOf a.rxtrig ≤ 16 * 2 ^ a.qsize ∧ trigOf a.txtrig ≤ 16 * 2 ^ a.qsize ∧
      (a.mode = true → a.dbits = 3 ∧ a.par = 0 ∧ a.stop2 = true)
    let width := 5 + a.dbits
    let parity := fun (x : Byte) => let ones := ((List.range width).map fun k => if bitAt x.toNat k then 1 else 0).sum
      if a.par = 0 then [] else [decide (ones % 2 = if a.par = 1 then 1 else 0)]
    let line := fun (x : Byte) => false :: ((List.range width).map fun k => bitAt x.toNat k) ++ parity x ++ List.replicate (if a.stop2 then 2 else 1) true
    let frame := fun (i : TxItem) => match i with | .byte x => line x | _ => []
    let idle := { a with sending := none, frame := [], de := false, silent := a.silent && !(a.de && !a.echo) }
    let sent := fun (u : State) (x : TxItem) (rest : List TxItem) => (at_ u).sending = some x ∧ (at_ u).frame = frame x ∧ (at_ u).items = rest ∧ (at_ u).de = true ∧ (at_ u).txq = a.txq ∧
      (ringState u r).tail = (ringState s r).tail + 1
    (a.en = true → a.items = i :: t → Does send s fun u => only u ∧ at_ u = { a with sending := some i, frame := frame i, items := t, de := true } ∧
      (∀ k, (at_ u).txLevel k = match i with | .byte x => (line x).getD k true | .brk => false | .mab => true)) ∧
    (a.en = true → a.items = [] → txRing s un = none → a.txq.head? = some b → Does send s fun u => only u ∧
      at_ u = { a with sending := some (.byte b), frame := line b, txq := a.txq.drop 1, de := true }) ∧
    (a.en = true → a.items = [] → txRing s un = none → a.txq = [] → Does send s fun u => only u ∧ at_ u = idle ∧ ∀ k, (at_ u).txLevel k = true) ∧
    (a.en = false → Does send s fun u => u = s) ∧
    (a.en = true → a.items = [] → txRing s un = some r → ringFront s r = some e → plain → ¬ first → (w0 / 2 ^ 9 % 2 = 0 ∨ a.txCode ≠ 0xCC) → Does send s fun u =>
      sent u (.byte (data.getD 0 0)) ((data.drop 1).map .byte)) ∧
    (a.en = true → a.items = [] → txRing s un = some r → ringFront s r = some e → plain → first → (w0 / 2 ^ 9 % 2 = 0 ∨ data.getD 0 0 ≠ 0xCC) → Does send s fun u =>
      sent u .brk (.mab :: data.map .byte)) ∧
    (a.en = true → a.items = [] → txRing s un = some r → ringFront s r = some e → plain → first → w0 / 2 ^ 9 % 2 = 1 → data.getD 0 0 = 0xCC → Does send s fun u =>
      sent u .brk (.mab :: (data ++ [BitVec.ofNat 8 ((data.map (·.toNat)).sum / 256), BitVec.ofNat 8 (data.map (·.toNat)).sum]).map .byte)) ∧
    (a.en = true → a.items = [] → txRing s un = some r → ringFront s r = some e → ¬ plain → ringCount (ringState s r) = 1 → a.txq = [] → Does send s fun u =>
      (at_ u).txbad = true ∧ (at_ u).sending = none ∧ (at_ u).de = false ∧ (ringState u r).tail = (ringState s r).tail + 1) ∧
    (free → a.en = true → txRing s un = none → a.txq.length < 16 * 2 ^ a.qsize → Does (.uartTxd (.port p) u4 (b.setWidth 16)) s fun u => only u ∧
      at_ u = { a with txq := a.txq ++ [b] }) ∧
    (free → a.en = true → txRing s un = none → 16 * 2 ^ a.qsize ≤ a.txq.length → Refuses (.uartTxd (.port p) u4 (b.setWidth 16)) s p 0 (0x152B + 0x20 * un) .full) ∧
    (free → a.en = false ∨ (txRing s un).isSome = true → Refuses (.uartTxd (.port p) u4 (b.setWidth 16)) s p 0 (0x152B + 0x20 * un) .mode) ∧
    (free → sane → Does (.uartDisable (.port p) u4 off) s fun u => only u ∧ at_ u = { idle with
      en := false, rxq := [], txq := [], items := [], pkt := none }) ∧
    (¬ free → v &&& 0x00000038#32 = 0 → Refuses (.uartDisable (.port p) u4 v) s p 0 (0x1520 + 0x20 * un) .mode)

/-- Sine generator, span changes, deglitcher, monitoring, polarity fuses and the boundary-scan port. In a running mode
a sine update loads the code of its phase and advances the phase, with a 400 ns hold where bits 15 to 12 change; span
changes and holds end at their times. A monitor slot of a channel whose output is compared counts readings off by more
than TOL, and CNT of them set its fault, closing the clamp only on the holder: a non-holder goes on comparing and sets
the fault alone. Slots 16 to 19 keep their readings; VMID out of range sixteen times is logged and faults bipolar
channels; the temperature sets and clears THERMAL. CV_POL blows polarity fuses from the SPI port in LOADER or READY,
else E_MODE, E_ABSENT or E_SECURITY. A boundary-scan instruction selects its register unless asleep. Formalises R396.
-/
def Obligations.CvOutputs : Prop :=
  ∀ (s : State) (c : BitVec 4) (t : Nat) (reading : BitVec 12) (v : HWord) (h : HCv) (slot : Nat) (code : BitVec 4) (low : Bool) (balls tdi : List Bool), s.shape = unitCounts →
    let n := c.toNat
    let x := cvAt s n
    let now := max s.now t
    let only := fun (u : State) => { u with cv := s.cv, now := s.now } = s ∧ u.now = now ∧ u.cv.mon = s.cv.mon
    let others := fun (u : State) => ∀ k, k ≠ n → cvAt u k = cvAt s k
    let mine := n < s.part.cvs ∧ hcvOf s n = some h
    let r := reading.toNat
    let watched := bitAt (poweredMask s) 11 = true
    let driven := if s.cv.svcEn = true ∧ s.cv.svcCh = n then s.cv.svcCode else x.dac
    let compared := cvClamped { s with now := now } n = false ∧ (∀ a, x.holdUntil = some a → a ≤ t) ∧ (∀ a, x.changedAt = some a → a + 3146 ≤ t)
    let lo := if x.span = 2 then 310 else 0
    let span := if x.span = 0 ∨ x.span = 2 then 3103 else 3724
    let off := ((r : Int) - (lo + (driven * span + 2 ^ 15) / 2 ^ 16 : Nat)).natAbs
    let reads := fun (u : State) (k : Nat) => u.cv.mon.getD k 0 = r ∧ u.now = now ∧ ∀ j, j ≠ k → u.cv.mon.getD j 0 = s.cv.mon.getD j 0
    let kept := fun (u : State) => { u with cv := s.cv, now := s.now } = s
    let pol := Instr.cvPol .spi (v.setWidth 32)
    let absent := (List.range 16).any fun k => v.getLsbD k && (decide (s.part.cvs ≤ k) || (s.hood.isSome && (hcvOf s k).isNone))
    (framesRun s = true → mine → x.gen = true → Does (.sineGeneratorUpdate t) s fun u => only u ∧
      (cvAt u n).dac = ((max 0 (min 65535 ((x.center : Int) + (x.amp * sinLookup x.ph + 2 ^ 30) / 2 ^ 31)))).toNat ∧
      (cvAt u n).ph = (x.ph + x.inc) % 2 ^ 32 ∧ (cvAt u n).loaded = true ∧ (x.dac ≠ (cvAt u n).dac → (cvAt u n).changedAt = some t) ∧
      (x.dac / 2 ^ 12 % 2 ^ 4 ≠ (cvAt u n).dac / 2 ^ 12 % 2 ^ 4 → (cvAt u n).holdUntil = some (t + 315))) ∧
    (hcvOf s n = none ∨ x.gen = false → Does (.sineGeneratorUpdate t) s fun u => cvAt u n = x) ∧
    (framesRun s = false → Does (.sineGeneratorUpdate t) s fun u => u = { s with now := now }) ∧
    (Does (.spanChangeEnd c t) s fun u => only u ∧ others u ∧ cvAt u n = { x with spanUntil := x.spanUntil.filter (t < ·) }) ∧
    (Does (.deglitchEnd c t) s fun u => only u ∧ others u ∧ cvAt u n = { x with holdUntil := x.holdUntil.filter (t < ·) }) ∧
    (watched → mine → compared → off ≤ h.tol → Does (.monitorSlot n reading t) s fun u => reads u n ∧ kept u ∧ others u ∧ cvAt u n = { x with run := 0 }) ∧
    (watched → mine → compared → h.tol < off → x.run + 1 < h.cnt → Does (.monitorSlot n reading t) s fun u => reads u n ∧ kept u ∧ others u ∧ cvAt u n = { x with run := x.run + 1 }) ∧
    (watched → mine → compared → h.tol < off → h.cnt ≤ x.run + 1 → Does (.monitorSlot n reading t) s fun u => reads u n ∧ kept u ∧ others u ∧
      cvAt u n = { x with fault := true, faultClamp := x.faultClamp || s.twin.cvHolder, run := 0 }) ∧
    (watched → ¬ (mine ∧ compared) → hcvOf s n = some h ∨ hcvOf s n = none → Does (.monitorSlot n reading t) s fun u => reads u n ∧ kept u ∧ cvAt u n = x) ∧
    (watched → 1800 ≤ r → r ≤ 1924 → Does (.monitorSlot 17 reading t) s fun u => reads u 17 ∧ { u with cv := s.cv, now := s.now, flt := s.flt } = s ∧
      u.flt = { s.flt with vgood := min 16 (s.flt.vgood + 1), vbad := 0, vmid := s.flt.vmid && decide (s.flt.vgood + 1 < 16) }) ∧
    (watched → r < 1800 ∨ 1924 < r → s.flt.vbad + 1 < 16 ∨ s.flt.vmid = true → Does (.monitorSlot 17 reading t) s fun u => reads u 17 ∧
      { u with cv := s.cv, now := s.now, flt := s.flt } = s ∧ u.flt = { s.flt with vbad := min 16 (s.flt.vbad + 1), vgood := 0 }) ∧
    (watched → r < 1800 ∨ 1924 < r → s.flt.vbad = 15 → s.flt.vmid = false → s.flt.log.length < 16 → Does (.monitorSlot 17 reading t) s fun u => u.flt.vmid = true ∧
      u.flt.log = s.flt.log ++ [⟨12, 255, 0, s.frame.cnt % 2 ^ 32⟩] ∧ bitAt u.host.intLatched 14 = true ∧
      (mine → bitAt s.fuses.cvPol n = true → (cvAt u n).fault = true ∧ (cvAt u n).faultClamp = true) ∧ (bitAt s.fuses.cvPol n = false → cvAt u n = x)) ∧
    (watched → Does (.monitorSlot 16 reading t) s (fun u => reads u 16 ∧ kept u ∧ u.cv.chans = s.cv.chans) ∧ Does (.monitorSlot 18 reading t) s fun u => reads u 18 ∧ kept u) ∧
    (watched → Does (.monitorSlot 19 reading t) s fun u => reads u 19 ∧ u.flt.temp = Config.temperature r ∧ (2560 ≤ Config.temperature r →
      u.flt.hot = min 16 (s.flt.hot + 1) ∧ (s.flt.hot = 15 → s.flt.thermal = false → u.flt.thermal = true)) ∧
      (Config.temperature r < 2560 → u.flt.hot = 0 ∧ u.flt.thermal = (s.flt.thermal && decide (2400 ≤ Config.temperature r)) ∧ kept { u with flt := s.flt })) ∧
    (¬ watched → slot < 20 → Does (.monitorSlot slot reading t) s fun u => u = { s with now := now }) ∧
    (s.part.cvs ≠ 0 → s.mode.mode = .loader ∨ s.mode.mode = .ready → absent = false → Does pol s fun u =>
      u.fuses = { s.fuses with cvPol := u.fuses.cvPol } ∧ { u with fuses := s.fuses } = emptyWrite .spi s ∧
      ∀ k, k < 16 → bitAt u.fuses.cvPol k = (bitAt s.fuses.cvPol k || v.getLsbD k)) ∧
    (s.part.cvs ≠ 0 → s.accessible → s.mode.mode ≠ .loader → s.mode.mode ≠ .ready → absent = false → Refuses pol s .spi 0 0x16A4 .mode) ∧
    (s.part.cvs ≠ 0 → s.accessible → absent = true → Refuses pol s .spi 0 0x16A4 .absent) ∧
    (s.part.cvs ≠ 0 → s.accessible → Refuses (.cvPol .host (v.setWidth 32)) s .host 0 0x16A4 .security) ∧
    (s.mode.mode ≠ .sleep → s.tap.trst = false → Does (.tapInstruction (.ir code)) s fun u => { u with tap := s.tap, use := s.use } = s ∧ u.tap.cells = s.tap.cells ∧
      u.tap.ins = (if code = 0 then .extest else if code = 1 then .idcode else if code = 2 then .sample else if code = 3 then .clamp else if code = 4 then .highz else .bypass)) ∧
    (s.mode.mode ≠ .sleep → Does (.tapInstruction (.trst low)) s (fun u => { u with tap := s.tap } = s ∧ u.tap.trst = low ∧ u.tap.cells = s.tap.cells ∧
        u.tap.ins = if low then .idcode else s.tap.ins) ∧
      Does (.tapInstruction .reset) s fun u => u = { s with tap := { s.tap with ins := .idcode } }) ∧
    (s.mode.mode ≠ .sleep → s.tap.trst = true → Does (.tapInstruction (.ir code)) s (fun u => u = s) ∧ Does (.tapInstruction (.dr balls tdi)) s fun u => u = s) ∧
    (s.mode.mode ≠ .sleep → s.tap.trst = false → s.tap.ins = .idcode → Does (.tapInstruction (.dr balls tdi)) s fun u => { u with tap := s.tap } = s ∧
      u.tap.cells = s.tap.cells ∧ u.tap.out.length = tdi.length ∧ (∀ k, k < tdi.length → u.tap.out.getD k false = if k < 32 then (BitVec.ofNat 32 (0x10000367 + 0x1000 * s.part.number)).getLsbD k else tdi.getD (k - 32) false)) ∧
    (s.mode.mode ≠ .sleep → s.tap.trst = false → s.tap.ins = .bypass → Does (.tapInstruction (.dr balls tdi)) s fun u =>
      u.tap.cells = s.tap.cells ∧ u.tap.out = (false :: tdi).take tdi.length) ∧
    (s.mode.mode ≠ .sleep → s.tap.trst = false → s.tap.ins = .sample → tdi.length = 402 → Does (.tapInstruction (.dr balls tdi)) s fun u =>
      u.tap.cells = tdi ∧ ∀ k, k < 402 → u.tap.out.getD k false = balls.getD k false) ∧
    (s.mode.mode = .sleep → Does (.tapInstruction (.ir code)) s fun u => u = s)

/-- The bus conversion of a CV channel, by polarity. The code of a bus value is its rounded value, unipolar from bit
15 and bipolar from bit 16 with 0x8000 added, clamped to 0 and 0xFFFF; negative values give 0 on a unipolar channel
and full scale gives 0xFFFF in both polarities; and a channel whose source is a bus converts the value of that bus.
Formalises R390. -/
def Obligations.BusConversion : Prop :=
  ∀ (v : Word) (bipolar : Bool) (s : State) (x : Cv),
    let c := if bipolar then 0x8000 + (v.toInt + 2 ^ 15) / 2 ^ 16 else (v.toInt + 2 ^ 14) / 2 ^ 15
    let code := cvConvert bipolar v.toInt
    ((code : Int) = min (max c 0) 0xFFFF) ∧
    (v.toInt < 0 → bipolar = false → code = 0) ∧
    (v.toInt = 0x7FFFFFFF → code = 0xFFFF) ∧
    (x.bsrc = true → Store.get 0 s.bus.val x.bus = v.toInt → cvFrameCode bipolar s.bus.val x = code)

/-- When INT_STAT.CV, UART, TIMER, MBX and THERM read one. CV: a faulted channel with its bit in FIE. UART: an enabled
receive level without ring, transmit space without ring, or DEAD, TXBAD or OVER. TIMER: an enabled wrap, match, or
capture or overrun. MBX: an enabled full outbound, empty inbound, or CROSS or LOST. THERM: the temperature at or above
TWARN. Formalises R397, R383. -/
def Obligations.InterruptConditions : Prop :=
  ∀ (s : State), s.shape = unitCounts →
    let on := fun (n : Nat) => bitAt (regVal s .intStat) n = true
    let u := fun (k : Nat) => uartAt s k
    let level := fun (c : Nat) => if c = 0 then 128 else c
    (on 11 ↔ ∃ k, k < 16 ∧ (cvAt s k).fault = true ∧ bitAt s.cv.fie k = true) ∧
    (on 13 ↔ ∃ k, k < 4 ∧
      (((u k).rxie = true ∧ rxRing s k = none ∧ level (u k).rxtrig ≤ (u k).rxq.length) ∨
       ((u k).txie = true ∧ txRing s k = none ∧ level (u k).txtrig ≤ 16 * 2 ^ (u k).qsize - (u k).txq.length) ∨
       ((u k).errie = true ∧ ((u k).dead = true ∨ (u k).txbad = true ∨ (u k).ovr ≠ 0)))) ∧
    (on 12 ↔ ∃ n, n < 8 ∧ (let m := timerAt s n
      (m.wrapf = true ∧ m.wrapie = true) ∨ (m.cmpf = true ∧ m.cmpie = true) ∨ ((m.capf = true ∨ m.ovr = true) ∧ m.capie = true))) ∧
    (on 4 ↔ ∃ c, c < 16 ∧ (let m := mbxAt s c
      (m.outie = true ∧ m.outfull = true) ∨ (m.ineie = true ∧ m.infull = false) ∨ (m.errie = true ∧ (m.cross = true ∨ m.lost = true)))) ∧
    (on 15 ↔ s.flt.twarn ≤ s.flt.temp)

/-- The fault log: adding, dropping, reading, and retention over a reset. An entry is appended with its class, unit,
response and frame, and latches the interrupt; when the log holds sixteen it is dropped and OVF is set. Reading
FLT_LOG gives the oldest entry in its layout and removes it; an empty log reads zero. A pin reset keeps the log.
Formalises R418. -/
def Obligations.FaultLog : Prop :=
  ∀ (s : State) (p : Port) (cls unit resp : Nat) (e : FaultEntry) (es : List FaultEntry) (strap : Bool) (ns : Nat), s.shape = unitCounts →
    let f := s.frame.cnt % 2 ^ 32
    let gets := fun (u : State) (ws : List Nat) => u.host.readOut.map (·.toNat) = ws
    (s.flt.log.length < 16 → (logFault cls unit resp s).flt.log = s.flt.log ++ [⟨cls, unit, resp, f⟩] ∧ bitAt (logFault cls unit resp s).host.intLatched 14 = true ∧
      (logFault cls unit resp s).flt.ovf = s.flt.ovf) ∧
    (16 ≤ s.flt.log.length → (logFault cls unit resp s).flt.log = s.flt.log ∧ (logFault cls unit resp s).flt.ovf = true) ∧
    (s.accessible → s.flt.log = e :: es → e.cls < 256 → e.unit < 256 → e.resp < 16 → e.frame < 2 ^ 32 → Does (.fltLogRead p) s fun u =>
      u.flt.log = es ∧ gets u [e.frame % 2 ^ 16, e.frame / 2 ^ 16, 4096 * e.resp, 256 * e.cls + e.unit]) ∧
    (s.accessible → s.flt.log = [] → Does (.fltLogRead p) s fun u => u.flt.log = [] ∧ gets u [0, 0, 0, 0]) ∧
    (s.fw.stage ≠ .confirm → 1000 ≤ ns → Does (.pinReset ns strap) s fun u => u.flt.log = s.flt.log)

/-- What each receiver command leaves in every mode, with a UART_RX ring or without (LOW: log entry 36).
RECEIVE_CHARACTER, BREAK, DEAD_LINE, RX_ENTRY_IDLE_CLOSE, DMX_BREAK, DMX_PACKET_TIMEOUT and UART_RX_REARM complete in
every state: in RESET and SLEEP they change nothing; otherwise they change only the receiver of the UART named, and,
where it has a UART_RX ring, that ring's head and the ring memory of its entries. LOW takes the level that the command
reports (the last sample of a character, log entry 36); a receiver that is disabled, or ignores RX while it sends
without ECHO, changes nothing else at a character, a break or a dead line; a break silences, a rearm ends silence; a
dead line sets DEAD and in frame mode ends the packet; a timeout ends the packet. UART_RXD removes the oldest
character of a UART without ring, and nothing otherwise. Rests on: Timers and Serial Control Ports, Bit timing; Timers
and Serial Control Ports, Rings and direct access; Timers and Serial Control Ports, DMX512-A and RDM. -/
def Obligations.ReceiverCommands : Prop :=
  ∀ (s : State) (who : Agent) (u4 : BitVec 2) (ss : List (BitVec 3)) (lowUs : Nat) (highUs : Option Nat), s.shape = unitCounts →
    let un := u4.toNat
    let a := uartAt s un
    let at_ := fun (u : State) => uartAt u un
    let on := s.mode.mode ≠ .reset ∧ s.mode.mode ≠ .sleep
    let first := ss.getD 0 7
    let idle := 2 ≤ (if first.getLsbD 0 then 1 else 0) + (if first.getLsbD 1 then 1 else 0) + (if first.getLsbD 2 then 1 else 0)
    let low := !(if idle then first else ss.getD (6 + a.dbits + (if a.par = 0 then 0 else 1)) 7).getLsbD 2
    let ignores := a.en = false ∨ (a.de = true ∧ a.echo = false)
    let bounds := fun (u : State) (r : Nat) (h : HRing) => (∀ k, k ≠ r → ringState u k = ringState s k) ∧ (ringState u r).tail = (ringState s r).tail ∧
      (ringState u r).lost = (ringState s r).lost ∧
      ∀ x, x < 32 * h.base ∨ 32 * (h.base + 2 ^ h.size) ≤ x → Memory.read 0 u.ringMem x = Memory.read 0 s.ringMem x
    let only := fun (u : State) => { u with uarts := s.uarts, rings := s.rings, ringMem := s.ringMem } = s ∧ (∀ k, k ≠ un → uartAt u k = uartAt s k) ∧
      (rxRing s un = none → u.rings = s.rings ∧ u.ringMem = s.ringMem) ∧ (∀ r h, rxRing s un = some r → hringOf s r = some h → bounds u r h)
    let same := fun (u : State) => { at_ u with low := a.low, rxq := a.rxq } = a
    (on → Does (.receiveCharacter u4 ss) s fun u => only u ∧ (at_ u).low = low ∧ (at_ u).dead = a.dead ∧
      { at_ u with low := a.low, silent := a.silent, ovr := a.ovr, ferr := a.ferr, falseN := a.falseN, dmxerr := a.dmxerr, pkt := a.pkt, rxq := a.rxq } = a ∧
      (ignores ∨ a.silent = true → same u) ∧ (¬ ignores → a.silent = false → idle → (at_ u).falseN = min (a.falseN + 1) 255)) ∧
    (on → Does (.break_ u4) s fun u => only u ∧ (at_ u).low = true ∧ (at_ u).silent = (a.silent || !decide ignores) ∧ (at_ u).pkt = a.pkt ∧
      { at_ u with low := a.low, silent := a.silent, ovr := a.ovr, ferr := a.ferr, rxq := a.rxq } = a ∧ (ignores ∨ a.silent = true ∨ a.mode = true → (at_ u).ferr = a.ferr)) ∧
    (on → Does (.deadLine u4) s fun u => only u ∧ (at_ u).low = true ∧ (at_ u).dead = (a.dead || !decide ignores) ∧
      { at_ u with low := a.low, dead := a.dead, pkt := a.pkt, rxq := a.rxq } = a ∧ (at_ u).pkt = if ¬ ignores ∧ a.mode = true then none else a.pkt) ∧
    (on → Does (.rxEntryIdleClose u4) s fun u => only u ∧ (at_ u).low = false ∧ same u) ∧
    (on → Does (.dmxBreak u4 lowUs highUs) s fun u => only u ∧ (at_ u).low = highUs.isNone ∧
      { at_ u with low := a.low, silent := a.silent, dmxerr := a.dmxerr, pkt := a.pkt, rxq := a.rxq } = a ∧ (ignores ∨ a.mode = false ∨ lowUs < 88 → same u) ∧
      (¬ ignores → a.mode = true → 88 ≤ lowUs → (at_ u).pkt = (if highUs.any (8 ≤ ·) then some ⟨0, 0, 0, 0, 0, false⟩ else none) ∧
        (at_ u).silent = (a.silent && highUs.all (· < 4)) ∧ (at_ u).dmxerr = if highUs.any (· < 8) then min (a.dmxerr + 1) 255 else a.dmxerr)) ∧
    (on → Does (.dmxPacketTimeout u4) s fun u => only u ∧ (at_ u).low = false ∧ { at_ u with low := a.low, pkt := a.pkt, rxq := a.rxq } = a ∧
      (at_ u).pkt = if a.mode = true ∧ (a.de = false ∨ a.echo = true) then none else a.pkt) ∧
    (on → Does (.uartRxRearm u4) s fun u => only u ∧ { at_ u with rxq := a.rxq } = { a with low := false, silent := false }) ∧
    (¬ on → ∀ c ∈ ([.receiveCharacter u4 ss, .break_ u4, .deadLine u4, .rxEntryIdleClose u4, .dmxBreak u4 lowUs highUs, .dmxPacketTimeout u4, .uartRxRearm u4] : List Instr),
      Does c s fun u => u = s) ∧
    (s.accessible → Does (.uartRxd who u4) s fun u => { u with uarts := s.uarts, host := s.host } = s ∧ (∀ k, k ≠ un → uartAt u k = uartAt s k) ∧
      at_ u = if (rxRing s un).isSome = true ∨ (who = .firmware ∧ fwActs s = false) then a else { a with rxq := a.rxq.drop 1 })

/-- What step 5 of a frame leaves: bus values, meters, input samples, output FIFOs and the digest. On an unpaired
Derku whose frame f is under way, with no interface behind a locked ASRC, a good tick after step 5 completes the
frame. Each bus takes the sum of its accumulator, as the engines leave it, and of the samples that the input
interfaces contribute (the FIFO entry numbered f-2, else the last sample), saturated to 32 bits; SAT is set where one
clamps; each enabled meter whose setting does not change takes the peak and counts the clamp. Each output port and
transmitter gets the values of its buses, in its FIFO as entry f+2 if there is room, or for its ASRC. The output
digest is the CRC-32 of the frame's output words and is numbered f. The next frame, f+1, is under way, and no delay
write and no late tap of f remains. Rests on: How the Derku Is Put Together, The frame; Modulation, Placement and
Buses, Buses; Modulation, Placement and Buses, Bus meters; Audio Ports and Clock Domains, Frame numbers and FIFOs;
Twin Operation and Failover, Running in step. -/
def Obligations.FrameEnds : Prop :=
  ∀ (s : State) (t : Nat), s.shape = unitCounts → s.twin.paired = false → s.frame.open_ = true → s.frame.ran = true → leaves s = false →
    s.mode.mode = .run → s.clocks.heldAt = none → goodTick t s →
    s.frame.tickAt + (max (94 + 60 * (rateOf s).voices) (266 + (rateOf s).limit) + 16) ≤ t →
    (∀ d, d < 4 → (domAt s d).run < 1024) → (∀ d, d < 4 → syncDomain s d = true ∨ (domAt s d).lock = false) → (∀ n, n < 8 → (timerAt s n).src ≠ 2) →
    let m : State := (List.range 16).foldl (fun u e => finishEngine [] e u) s
    m.frame.open_ = true → m.mode = s.mode →
    let f := s.frame.cnt
    let sample := fun (d c : Nat) (i : Iface) =>
      if syncDomain s d then (match (if 2 ≤ f then i.inF.find? (fun (e : Nat × List Int) => e.1 == f - 2) else none) with | some e => e.2 | none => i.lastIn).getD c 0 else 0
    let part := fun (n d : Nat) (buses : List (Option Nat)) (i : Iface) =>
      ((List.range buses.length).map fun c => if buses.getD c none = some n then sample d c i else 0).sum
    let sap := fun (n p : Nat) => match hportOf s p with
      | some h => if grpStarted s h && !h.ins.isEmpty then part n h.domain (h.ins.map fun x => some x.bus) (sapAt s p).iface else 0
      | none => 0
    let rx := fun (n r : Nat) => match hrxOf s r with | some h => part n h.domain [h.busA, h.busB] (rxAt s r).iface | none => 0
    let pdm := fun (n k : Nat) => match hpdmOf s k with | some h => part n h.domain (h.mics.map fun x => some x.2) (pdmAt s k).iface | none => 0
    let total := fun (n : Nat) => Store.get 0 m.bus.acc n + ((List.range 8).map (sap n)).sum + ((List.range 4).map (rx n)).sum + ((List.range 4).map (pdm n)).sum
    let value := fun (n : Nat) => max (-2 ^ 31) (min (2 ^ 31 - 1) (total n))
    let codes := { s.cv with chans := s.cv.chans.mapIdx fun c x => { x with frameCode := cvFrameCode (cvBipolar s c) s.bus.val x } }
    let loads := fun (d : Nat) (xs : List Int) (a b : Iface) =>
      if syncDomain s d then b.outF = if a.outF.length < 8 then a.outF ++ [(f + 2, xs)] else a.outF else b.asrc = xs ∧ b.outF = a.outF
    Does (.masterTick t []) s fun u =>
      (∀ n, Store.get 0 u.bus.val n = value n) ∧ (u.bus.sat = true ↔ m.bus.sat = true ∨ ∃ n, value n ≠ total n) ∧
      (∀ (k : Nat) (x : Meter), m.bus.meters[k]? = some x → x.en = true → x.next = none → ∃ y, u.bus.meters[k]? = some y ∧ y.peak = max x.peak (value x.bus).natAbs ∧
        y.clip = if value x.bus ≠ total x.bus then min 0xFFFF (x.clip + 1) else x.clip) ∧
      (∀ p h, hportOf s p = some h → p < 8 → grpStarted s h = true → h.outs ≠ [] →
        loads h.domain (h.outs.map fun x => value x.bus) (sapAt s p).iface (sapAt u p).iface) ∧
      (∀ k h, htxOf s k = some h → k < 4 →
        loads h.domain ([h.busA, h.busB].map fun b => match b with | some n => value n | none => 0) (txAt s k).iface (txAt u k).iface) ∧
      (∀ p h, hportOf s p = some h → p < 8 → grpStarted s h = true → h.ins ≠ [] → syncDomain s h.domain = true → ∀ c,
        (sapAt u p).iface.lastIn.getD c 0 = sample h.domain c (sapAt s p).iface) ∧
      u.twin.digest = crc32 (wordBytes (digestWords { s with bus := u.bus, cv := codes })) ∧ u.twin.digestF = f ∧
      u.frame.cnt = f + 1 ∧ u.frame.open_ = true ∧ u.dly.wr = [] ∧ u.dly.lateTaps = []

/-- What a frame leaves in every voice and in the buses: routes, oscillators, envelopes, LFOs, mixer, amplifier and
sends. With no events and no fades, a good tick gives every slot the voice-sample of its voice from the bus values and
group LFOs of the frame, adds the sends of all voices to the bus accumulators, keeps the bus values, and advances each
group's beat phase and seed. A destination is its default plus the rounded contributions of its active routes, through
curve and via source. Oscillators advance their phase by the increment of the limited pitch (wavetables limited by
their level), samples by their advance; sine, saw, operator 3, white noise, sample-and-hold and an ended one-shot give
the outputs stated. Envelopes follow their segment's level and progress, enter DELAY in the first frame and RELEASE at
release where that segment is not instant. LFOs give their shape at their phase. Amplifier gain is envelope 0 times
LEVEL; without filters and shaper the output is that gain times the saturated mix; a direct placement sends to each
bus named, with the fade where one runs. White noise keeps its phase (log entry 81). Rests on: Oscillators and Sample
Streaming, Models and the oscillator record; Oscillators and Sample Streaming, Pitch to phase increment; Oscillators
and Sample Streaming, Noise; Oscillators and Sample Streaming, Sample playback; Filters, Envelopes and Shaping, The
voice chain; Filters, Envelopes and Shaping, Amplifier; Filters, Envelopes and Shaping, Envelopes; Filters, Envelopes
and Shaping, LFOs; Filters, Envelopes and Shaping, Group LFOs and tempo; Modulation, Placement and Buses, Modulation
routes; Modulation, Placement and Buses, Placement; Modulation, Placement and Buses, Buses. -/
def Obligations.VoiceFrames : Prop :=
  ∀ (s : State) (t : Nat) (h : Hood) (c : VCtx) (dram : Memory) (tp : Template) (rb : List Nat) (fade : Option Int) (v : Voice) (n : Nat),
    let f := s.frame.cnt + 1
    let ctx := fun (u : State) (g : Nat) => ({ frame := f, base := (rateOf s).base, bus := s.bus.val
                                               bp := (s.groups[g]?.map (·.bp)).getD 0, glfo := (u.groups[g]?.map fun x => x.lfo.map (·.st.out)).getD []
                                               gctl := (s.groups[g]?.map (·.gctl)).getD [], curves := h.curves, shapers := h.shapers
                                               sets := h.place.filterMap fun kp => kp.2.map fun p => (kp.1, some p.set) } : VCtx)
    let sounds := fun (u : State) (k : Nat) => (slotAt s k).cur.bind fun a => (templateOf s a.group).map fun q =>
      voiceSample (ctx u a.group) s.dram q (regBases s q a.zone) none a
    let x := voiceSample c dram tp rb fade v
    let y := x.voice
    let w1 : View := ⟨v.env.map (·.e), v.lfo.map (·.out), v.osc.map (·.outL), v.filt.map (·.out), v.amp⟩
    let w2 := { w1 with env := y.env.map (·.e), lfo := y.lfo.map (·.out) }
    let w3 := { w2 with osc := y.osc.map (·.outL) }
    let dest := fun (w : View) (code : Nat) => destRaw c tp { v with noise := y.noise } w code
    let clamp := fun (lo hi z : Int) => max lo (min hi z)
    let sat := clamp (-2 ^ 31) (2 ^ 31 - 1)
    let top : Int := 2 ^ 31 - 1
    let round := fun (a : Int) (k : Nat) => (a + 2 ^ (k - 1)) / 2 ^ k
    let whole := v.osc.length = 4 ∧ v.env.length = 4 ∧ v.lfo.length = 3 ∧ v.filt.length = 2
    let first := c.frame = v.first
    let o := v.osc.getD n default
    let o' := y.osc.getD n default
    let or_ := tp.osc.getD n []
    let model := Words.fld or_ 0 31 29
    let shape := Words.fld or_ 0 28 27
    let pitch := sat (dest w2 (1 + n) + if Words.fld or_ 0 26 26 = 1 then v.pitch else 0)
    let inc := pitchInc c.base pitch
    let feedback := round ((o.y1 + o.y2) / 2 * sat (dest w2 (0x0D + n))) 28
    let white := s32 (rotl y.noise (8 * n))
    let e := v.env.getD n default
    let e' := y.env.getD n default
    let er := tp.env.getD n []
    let rate := fun (j : Nat) => sat (dest w1 (0x28 + 6 * n + j))
    let sus := clamp 0 top (dest w1 (0x28 + 6 * n + 5))
    let runs := fun (j : Nat) => min (e.p + pitchInc c.base (rate j)) (2 ^ 32)
    let stays := e.next = none ∧ v.relNow = false ∧ ¬ first
    let l := v.lfo.getD n default
    let l' := y.lfo.getD n default
    let lr := tp.lfo.getD n []
    let lp := if Words.fld lr 0 28 28 = 1 then syncPhase c.bp (Words.fld lr 0 15 0) (if Words.fld lr 0 26 26 = 1 then rotl v.seed (8 * n + 4) else Words.u lr 2)
      else if first then (if Words.fld lr 0 26 26 = 1 then rotl v.seed (8 * n + 4) else Words.u lr 2) else l.phase
    let ls := Words.fld lr 0 31 29
    let lv : Int := if ls = 0 then sinLookup lp else if ls = 1 then sat (2 * ((lp : Int) - 2 ^ 31).natAbs - 2 ^ 31) else if ls = 2 then (lp : Int) - 2 ^ 31
      else if ls = 3 then 2 ^ 31 - 1 - lp else if ls = 4 then (if lp < 2 ^ 31 then top else -2 ^ 31)
      else if first ∨ lp < l.prev then s32 (rotl y.noise (8 * n + 4)) else l.hold
    let mixed := fun (side : Nat) => ((List.range 4).map fun k => if (Words.fld tp.chain 0 7 0) / 2 ^ (2 * k + side) % 2 = 1 then
      round (sat (dest w3 (0x17 + k)) * (if side = 0 then (y.osc.getD k default).outL else (y.osc.getD k default).outR)) 31 else 0).sum
    let level := fun (g : Int) => match fade with | some q => round (round (g * y.amp) 31 * q) 31 | none => round (g * y.amp) 31
    let send := fun (word bit code : Nat) (ws : Words) => let b := Words.fld ws word (bit + 15) bit; if b = 0xFFFF then [] else [(b, level (sat (dest w3 code)))]
    (s.shape = unitCounts → s.twin.paired = false → s.frame.open_ = false → s.frame.ran = true → leaves s = false → s.mode.mode = .run → s.clocks.heldAt = none →
      goodTick t s → s.hood = some h → s.flt.restart = .none → s.carder.store = [] → offering s = [] → (∀ n, n < 8 → (timerAt s n).src ≠ 2) → s.bus.acc = [] →
      Store.wf Slot.free s.slots = true → (∀ k, (slotAt s k).fade = none ∧ (slotAt s k).killed = false ∧ (slotAt s k).pend = none ∧
        ((slotAt s k).cur.all fun a => clusterServes s (k / 256) && !a.ended && decide (a.first < f)) = true) →
      Does (.masterTick t []) s fun u => (∀ k, slotAt u k = match sounds u k with | some r => { slotAt s k with cur := some r.voice } | none => slotAt s k) ∧
        (∀ b, Store.get 0 u.bus.acc b = ((Store.keys s.slots).map fun k => match sounds u k with
          | some r => ((r.sends.filter fun q => q.1 == b).map (·.2)).sum | none => 0).sum) ∧
        u.bus.val = s.bus.val ∧ (∀ g : Nat, u.groups[g]?.map (·.bp) = s.groups[g]?.map (fun a => (a.bp + a.bi) % 2 ^ 64) ∧
          u.groups[g]?.map (·.gs) = s.groups[g]?.map (fun a => galois 32 a.gs))) ∧
    (∀ w code, dest w code = destBase tp v code + ((List.range 24).map fun k : Nat =>
      let r := tp.routes.getD k []
      let z := srcValue c tp { v with noise := y.noise } w (Words.fld r 0 31 24)
      let sq := round (z * z) 31
      let curve := Words.fld r 0 7 4
      let shaped := if curve = 0 then z else if curve = 1 then (if z < 0 then -sq else sq) else if curve = 2 then round (sq * z) 31
        else if curve = 3 then min (z.natAbs : Int) top else if curve = 4 then z / 2 + 2 ^ 30 else if curve = 5 then sat (2 * z - 2 ^ 31) else sat (top - z)
      let part := round (((Store.get none v.amounts k).getD (Words.s r 1)) * shaped) 31
      if Words.fld r 0 15 8 = code ∧ Words.fld r 0 31 24 ≠ 0 then
        (if Words.fld r 0 23 16 = 0 then part else round (part * srcValue c tp { v with noise := y.noise } w (Words.fld r 0 23 16)) 31)
      else 0).sum) ∧
    (whole → n < 4 → model = 1 ∨ model = 4 ∨ (model = 5 ∧ shape ≠ 0) → o'.phase = (o.phase + inc) % 2 ^ 32 ∧ o'.inc = inc) ∧
    (whole → n < 4 → model = 1 → shape = 3 → o'.outL = sinLookup o.phase ∧ o'.outR = o'.outL) ∧
    (whole → n < 4 → model = 1 → shape = 0 → o'.outL = sat (sawf o.phase inc) ∧ o'.outR = o'.outL) ∧
    (whole → n < 4 → model = 2 → o'.phase = (o.phase + min inc (2 ^ (22 + o.mip) - 1)) % 2 ^ 32 ∧ (o'.wtpos : Int) = clamp 0 (255 * 65536) (dest w2 (9 + n)) ∧ o'.outR = o'.outL) ∧
    (whole → n < 4 → model = 3 → let z := (tp.zones.getD v.zone []).getD n []
      let a := smpAdvance z (effCap or_ v.prCap) pitch
      let over_ := Words.fld z 0 15 14 ≠ 1 ∧ Words.u z 5 ≤ o.pos / 2 ^ 32
      (Words.fld z 0 15 14 ≠ 1 → o'.pos = (o.pos + a * 8) % 2 ^ 64) ∧ (o.past = true ∨ over_ → o'.outL = 0 ∧ o'.outR = 0 ∧ o'.past = true)) ∧
    (whole → model = 4 → n = 3 → o'.outL = sinLookup (o.phase + unsigned 32 feedback) ∧ o'.y1 = o'.outL ∧ o'.y2 = o.y1 ∧ o'.outR = o'.outL) ∧
    (whole → n < 4 → model = 5 → shape = 0 → o'.outL = white ∧ o'.outR = white ∧ o'.phase = o.phase) ∧
    (whole → n < 4 → model = 5 → shape ≠ 0 → o'.outL = (if first ∨ o.phase < o.prevPhase then white else o.hold) ∧ o'.hold = o'.outL ∧ o'.outR = o'.outL) ∧
    (whole → n < 4 → stays → (e.seg = .delay → e'.p = runs 0 ∧ e'.e = 0) ∧
      (e.seg = .attack → e'.p = runs 1 ∧ e'.e = e.e0 + round ((top - e.e0) * curveAt c (Words.fld er 0 29 26) (runs 1)) 31) ∧
      (e.seg = .hold → e'.p = runs 2 ∧ e'.e = top) ∧
      (e.seg = .decay → e'.p = runs 3 ∧ e'.e = e.e0 + round ((sus - e.e0) * curveAt c (Words.fld er 0 25 22) (runs 3)) 31) ∧
      (e.seg = .sustain → e'.e = sus) ∧
      (e.seg = .release → e'.p = runs 4 ∧ e'.e = e.e0 - round (e.e0 * curveAt c (Words.fld er 0 21 18) (runs 4)) 31) ∧
      (e.seg = .done → e'.e = 0 ∧ e'.complete = true) ∧ e'.seg = e.seg ∧ e'.e0 = e.e0 ∧ (e.seg ≠ .sustain → e.seg ≠ .done → (e'.next = none ↔ e'.p < 2 ^ 32))) ∧
    (whole → n < 4 → v.relNow = true → ¬ first → rate 4 ≠ top → e'.seg = .release ∧ e'.e0 = e.e ∧ e'.p = min (pitchInc c.base (rate 4)) (2 ^ 32) ∧
      e'.e = e.e - round (e.e * curveAt c (Words.fld er 0 21 18) e'.p) 31) ∧
    (whole → n < 4 → v.relNow = false → first → rate 0 ≠ top → e'.seg = .delay ∧ e'.e = 0 ∧ e'.p = min (pitchInc c.base (rate 0)) (2 ^ 32)) ∧
    (whole → n < 3 → l'.out = (if Words.fld lr 0 27 27 = 1 then lv / 2 + 2 ^ 30 else lv) ∧ l'.prev = lp ∧
      l'.phase = (lp + if Words.fld lr 0 28 28 = 1 then 0 else pitchInc c.base (sat (dest w1 (0x40 + n)))) % 2 ^ 32) ∧
    (whole → y.ga = round ((y.env.getD 0 default).e * sat (dest w3 0x20)) 31 ∧ y.noise = galois 32 v.noise ∧ y.relNow = false) ∧
    (whole → (∀ k, k < 2 → Words.fld (tp.filt.getD k []) 0 31 30 = 0) → Words.fld tp.shaper 0 31 31 = 0 →
      y.amp = round (y.ga * if Words.fld tp.chain 0 31 30 = 1 then sat (sat (mixed 0) + sat (mixed 1)) else sat (mixed 0)) 31) ∧
    (whole → Words.fld tp.place 0 31 31 = 1 → x.sends = ((List.range 8).map fun k => send (4 + k / 2) (if k % 2 = 0 then 16 else 0) (0x4B + k) tp.place).flatten ++
      send 0 16 0x53 tp.send ++ send 0 0 0x54 tp.send)

end
end

