-- ==== Sys2Proof/Laws/Memory.lean ====
section
/-! SUPPORT. Laws of sparse stores and of byte memories: what a write leaves, and the canonical form. -/

namespace Sys2Proof.Laws

open Sys2Proof.Machine

variable {α : Type} {d : α}

/-- A bound may be lowered. -/
theorem store_above_mono {m : Store α} {a b : Nat} (h : Store.above b m = true) (hab : a ≤ b) : Store.above a m = true := by
  cases m with
  | nil => rfl
  | cons p t => simp [Store.above] at h ⊢; omega

/-- A listed index reads as listed. -/
theorem store_get_put (m : Store α) (k j : Nat) (v : α) : Store.get d (Store.put m k v) j = if j = k then v else Store.get d m j := by
  induction m with
  | nil => rfl
  | cons p t ih =>
    simp only [Store.put]
    split
    · rfl
    · split
      · rename_i hk
        simp only [Store.get]
        by_cases hj : j = k
        · rw [if_pos hj, if_pos hj]
        · rw [if_neg hj, if_neg hj, if_neg (by omega)]
      · rename_i h1 h2
        simp only [Store.get, ih]
        by_cases hj : j = p.1
        · rw [if_pos hj, if_pos hj, if_neg (by omega)]
        · rw [if_neg hj, if_neg hj]

/-- An index that is erased reads as the fill value. -/
theorem store_get_erase (m : Store α) (k j : Nat) : Store.get d (Store.erase m k) j = if j = k then d else Store.get d m j := by
  induction m with
  | nil => simp [Store.erase, Store.get]
  | cons p t ih =>
    simp only [Store.erase]
    split
    · rename_i hk
      rw [ih]
      simp only [Store.get]
      by_cases hj : j = k
      · rw [if_pos hj, if_pos hj]
      · rw [if_neg hj, if_neg hj, if_neg (by omega)]
    · rename_i hk
      simp only [Store.get, ih]
      by_cases hj : j = p.1
      · rw [if_pos hj, if_pos hj, if_neg (by omega)]
      · rw [if_neg hj, if_neg hj]

variable [DecidableEq α]

/-- What every index reads as after a write. -/
theorem store_get_set_eq (m : Store α) (k j : Nat) (v : α) : Store.get d (Store.set d m k v) j = if j = k then v else Store.get d m j := by
  unfold Store.set
  split
  · rename_i h
    rw [store_get_erase, h]
  · exact store_get_put m k j v

/-- The index written reads as written. -/
theorem store_get_set {m : Store α} {k : Nat} {v : α} : Store.get d (Store.set d m k v) k = v := by
  rw [store_get_set_eq, if_pos rfl]

/-- Every other index reads as before. -/
theorem store_get_set_of_ne {m : Store α} {k j : Nat} {v : α} (hj : j ≠ k) :
    Store.get d (Store.set d m k v) j = Store.get d m j := by
  rw [store_get_set_eq, if_neg hj]

theorem store_above_erase {m : Store α} {b k : Nat} (h : Store.above b m = true) (hw : Store.wf d m = true) :
    Store.above b (Store.erase m k) = true := by
  induction m with
  | nil => rfl
  | cons p t ih =>
    simp [Store.above] at h
    simp [Store.wf] at hw
    simp only [Store.erase]
    split
    · exact ih (store_above_mono hw.1.2 (by omega)) hw.2
    · simpa [Store.above] using h

omit [DecidableEq α] in
theorem store_above_put {m : Store α} {b k : Nat} {v : α} (h : Store.above b m = true) (hk : b < k) :
    Store.above b (Store.put m k v) = true := by
  cases m with
  | nil => simpa [Store.put, Store.above] using hk
  | cons p t =>
    simp [Store.above] at h
    simp only [Store.put]
    split
    · simpa [Store.above] using hk
    · split
      · simpa [Store.above] using hk
      · simpa [Store.above] using h

theorem store_wf_erase {m : Store α} {k : Nat} (hw : Store.wf d m = true) : Store.wf d (Store.erase m k) = true := by
  induction m with
  | nil => rfl
  | cons p t ih =>
    have hw' := hw
    simp [Store.wf] at hw'
    simp only [Store.erase]
    split
    · exact ih hw'.2
    · simp [Store.wf, hw'.1.1, ih hw'.2, store_above_erase hw'.1.2 hw'.2]

theorem store_wf_put {m : Store α} {k : Nat} {v : α} (hv : v ≠ d) (hw : Store.wf d m = true) : Store.wf d (Store.put m k v) = true := by
  induction m with
  | nil => simp [Store.put, Store.wf, Store.above, hv]
  | cons p t ih =>
    have hw' := hw
    simp [Store.wf] at hw'
    simp only [Store.put]
    split
    · simp_all [Store.wf, Store.above]
    · split
      · simp_all [Store.wf]
      · rename_i h1 h2
        simp [Store.wf, hw'.1.1, ih hw'.2, store_above_put hw'.1.2 (show p.1 < k by omega)]

/-- A write keeps the canonical form. -/
theorem store_wf_set {m : Store α} {k : Nat} {v : α} (hw : Store.wf d m = true) : Store.wf d (Store.set d m k v) = true := by
  unfold Store.set
  split
  · exact store_wf_erase hw
  · exact store_wf_put (by assumption) hw

/-- Consecutive writes keep the canonical form. -/
theorem store_wf_setRange {m : Store α} {k : Nat} (vs : List α) (hw : Store.wf d m = true) :
    Store.wf d (Store.setRange d m k vs) = true := by
  induction vs generalizing m k with
  | nil => exact hw
  | cons v vs ih => exact ih (store_wf_set hw)

/-- An index outside a range that is written reads as before. -/
theorem store_get_setRange_of_out {m : Store α} {k j : Nat} (vs : List α) (hj : j < k ∨ k + vs.length ≤ j) : Store.get d (Store.setRange d m k vs) j = Store.get d m j := by
  induction vs generalizing m k with
  | nil => rfl
  | cons v vs ih =>
    simp only [List.length_cons] at hj
    simp only [Store.setRange]
    rw [ih (by omega), store_get_set_of_ne (by omega)]

/-- An index in a range that is written reads as written. -/
theorem store_get_setRange {m : Store α} {k i : Nat} (vs : List α) (hi : i < vs.length) :
    Store.get d (Store.setRange d m k vs) (k + i) = vs[i] := by
  induction vs generalizing m k i with
  | nil => simp at hi
  | cons v vs ih =>
    simp only [Store.setRange]
    cases i with
    | zero =>
      show Store.get d (Store.setRange d (Store.set d m k v) (k + 1) vs) k = v
      rw [store_get_setRange_of_out vs (by omega), store_get_set]
    | succ i =>
      have := ih (m := Store.set d m k v) (k := k + 1) (i := i) (by simpa using hi)
      simpa [Nat.add_assoc, Nat.add_comm 1 i] using this

/-- An index of a list that is set. -/
@[simp] theorem length_setAt {β : Type} (l : List β) (i : Nat) (v : β) : (setAt l i v).length = l.length := by
  induction l generalizing i with
  | nil => rfl
  | cons a t ih => cases i <;> simp [setAt, ih]

@[simp] theorem length_updAt {β : Type} (l : List β) (i : Nat) (f : β → β) : (updAt l i f).length = l.length := by
  induction l generalizing i with
  | nil => rfl
  | cons a t ih => cases i <;> simp [updAt, ih]

theorem getD_setAt {β : Type} (l : List β) (i j : Nat) (v x : β) :
    (setAt l i v).getD j x = if j = i ∧ i < l.length then v else l.getD j x := by
  induction l generalizing i j with
  | nil => simp [setAt]
  | cons a t ih =>
    cases i with
    | zero => cases j <;> simp [setAt]
    | succ i =>
      cases j with
      | zero => simp [setAt]
      | succ j => simpa [setAt] using ih i j

theorem getD_updAt {β : Type} (l : List β) (i j : Nat) (f : β → β) (x : β) :
    (updAt l i f).getD j x = if j = i ∧ i < l.length then f (l.getD j x) else l.getD j x := by
  induction l generalizing i j with
  | nil => simp [updAt]
  | cons a t ih =>
    cases i with
    | zero => cases j <;> simp [updAt]
    | succ i =>
      cases j with
      | zero => simp [updAt]
      | succ j => simpa [updAt] using ih i j

/-! ## Byte memories -/

variable {fill : Byte} {m : Memory}

theorem memory_wf_write (a : Nat) (v : Byte) (h : Memory.wf fill m) : Memory.wf fill (Memory.write fill m a v) := store_wf_set h

theorem memory_wf_writeN (a : Nat) (vs : List Byte) (h : Memory.wf fill m) : Memory.wf fill (Memory.writeN fill m a vs) :=
  store_wf_setRange vs h

theorem memory_wf_writeW (a : Nat) (w : Word) (h : Memory.wf fill m) : Memory.wf fill (Memory.writeW fill m a w) :=
  store_wf_setRange _ h

theorem memory_wf_writeWs (a : Nat) (ws : Words) (h : Memory.wf fill m) : Memory.wf fill (Memory.writeWs fill m a ws) := by
  induction ws generalizing m a with
  | nil => exact h
  | cons w t ih => exact ih _ (memory_wf_writeW a w h)

theorem memory_wf_nil : Memory.wf fill [] := rfl

/-- A byte outside the bytes written reads as before. -/
theorem memory_read_writeN_of_out {a j : Nat} (vs : List Byte) (hj : j < a ∨ a + vs.length ≤ j) :
    Memory.read fill (Memory.writeN fill m a vs) j = Memory.read fill m j := store_get_setRange_of_out vs hj

/-- A byte written reads as written. -/
theorem memory_read_writeN {a i : Nat} (vs : List Byte) (hi : i < vs.length) :
    Memory.read fill (Memory.writeN fill m a vs) (a + i) = vs[i] := store_get_setRange vs hi

theorem length_leBytes (x n : Nat) : (leBytes x n).length = n := by
  induction n generalizing x with
  | zero => rfl
  | succ n ih => simp [leBytes, ih]

/-- A byte outside a word that is written reads as before. -/
theorem memory_read_writeW_of_out {a j : Nat} (w : Word) (hj : j < a ∨ a + 4 ≤ j) :
    Memory.read fill (Memory.writeW fill m a w) j = Memory.read fill m j :=
  memory_read_writeN_of_out _ (by rw [length_leBytes]; exact hj)

/-- A byte outside the words that are written reads as before. -/
theorem memory_read_writeWs_of_out {a j : Nat} (ws : Words) (hj : j < a ∨ a + 4 * ws.length ≤ j) :
    Memory.read fill (Memory.writeWs fill m a ws) j = Memory.read fill m j := by
  induction ws generalizing m a with
  | nil => rfl
  | cons w t ih =>
    simp only [List.length_cons] at hj
    rw [Memory.writeWs, ih (by omega), memory_read_writeW_of_out w (by omega)]

/-- A number is the value of its bytes. -/
theorem leNat_leBytes (x n : Nat) : leNat (leBytes x n) = x % 256 ^ n := by
  induction n generalizing x with
  | zero => simp [leBytes, leNat, Nat.mod_one]
  | succ n ih =>
    have e : x % 256 ^ (n + 1) = x % 256 + 256 * (x / 256 % 256 ^ n) := by
      rw [Nat.pow_succ, Nat.mul_comm (256 ^ n) 256, Nat.mod_mul]
    rw [leBytes, leNat, ih, BitVec.toNat_ofNat, e]

/-- Bytes read back as written. -/
theorem memory_readN_writeN {a : Nat} (vs : List Byte) :
    Memory.readN fill (Memory.writeN fill m a vs) a vs.length = vs := by
  have key : ∀ (m : Memory) (b n : Nat), Memory.readN fill m b n = (List.range n).map fun i => Memory.read fill m (b + i) := by
    intro m b n
    induction n generalizing b with
    | zero => rfl
    | succ n ih =>
      have := ih (b + 1)
      simp only [Memory.readN, Store.getRange] at this ⊢
      rw [List.range_succ_eq_map, List.map_cons, List.map_map, this]
      simp [Memory.read, Function.comp_def, Nat.add_assoc, Nat.add_comm 1]
  rw [key]
  apply List.ext_getElem
  · simp
  · intro i h1 h2
    simp [memory_read_writeN vs h2]

/-- A word reads back as written. -/
theorem memory_readW_writeW (a : Nat) (w : Word) : Memory.readW fill (Memory.writeW fill m a w) a = w := by
  have := memory_readN_writeN (fill := fill) (m := m) (a := a) (leBytes w.toNat 4)
  rw [length_leBytes] at this
  unfold Memory.readW Memory.writeW
  rw [this, leNat_leBytes]
  apply BitVec.eq_of_toNat_eq
  have := w.isLt
  simp
  omega

end Sys2Proof.Laws
end

