-- ==== Sys2Proof/Laws/Engine.lean ====
section
/-! SUPPORT. The register files of an engine keep their sizes through every operation. -/

namespace Sys2Proof.Laws

open Sys2Proof.Machine

/-- An engine with all its registers (R181). -/
def Fits (g : Engine) : Prop := g.shape = engCounts

theorem fits_iff (g : Engine) : Fits g ↔
    (g.smp.d.length = 16 ∧ g.smp.a.length = 4 ∧ g.smp.p.length = 8 ∧ g.smp.m.length = 8 ∧ g.smp.l.length = 8 ∧ g.smp.b.length = 8) ∧
    (g.bg.d.length = 16 ∧ g.bg.a.length = 4 ∧ g.bg.p.length = 8 ∧ g.bg.m.length = 8 ∧ g.bg.l.length = 8 ∧ g.bg.b.length = 8) ∧
    g.aOld.length = 4 := by
  simp [Fits, Engine.shape, engCounts, and_assoc]

/-- A bank with all its registers. -/
def BankFits (b : RegBank) : Prop :=
  b.d.length = 16 ∧ b.a.length = 4 ∧ b.p.length = 8 ∧ b.m.length = 8 ∧ b.l.length = 8 ∧ b.b.length = 8

theorem fits_banks (g : Engine) : Fits g ↔ BankFits g.smp ∧ BankFits g.bg ∧ g.aOld.length = 4 := fits_iff g

theorem fits_bank {g : Engine} (h : Fits g) : BankFits g.bank := by
  rw [fits_banks] at h
  unfold Engine.bank
  split
  · exact h.1
  · exact h.2.1

theorem fits_setBank {g : Engine} {b : RegBank} (h : Fits g) (hb : BankFits b) : Fits (g.setBank b) := by
  rw [fits_banks] at h ⊢
  unfold Engine.setBank
  split
  · exact ⟨hb, h.2.1, h.2.2⟩
  · exact ⟨h.1, hb, h.2.2⟩

/-- Fits speaks of the register files alone. -/
theorem fits_of_eq {g k : Engine} (h : Fits g) (a : k.smp = g.smp) (b : k.bg = g.bg) (c : k.aOld.length = 4) : Fits k := by
  rw [fits_banks] at h ⊢
  rw [a, b]
  exact ⟨h.1, h.2.1, c⟩

theorem fits_aOld {g : Engine} (h : Fits g) : g.aOld.length = 4 := ((fits_banks g).1 h).2.2

theorem fits_same {g k : Engine} (h : Fits g) (a : k.smp = g.smp) (b : k.bg = g.bg) (c : k.aOld = g.aOld) : Fits k :=
  fits_of_eq h a b (c ▸ fits_aOld h)

theorem fits_empty : Fits Engine.empty := rfl

theorem fits_ite {c : Prop} [Decidable c] {a b : Engine} (ha : Fits a) (hb : Fits b) : Fits (if c then a else b) := by
  split <;> assumption

theorem fits_setY {g : Engine} {b : Bool} {w : Nat} {v : Word} (h : Fits g) : Fits (g.setY b w v) := by
  unfold Engine.setY
  split <;> exact fits_same h rfl rfl rfl

theorem fits_applyLate {g : Engine} {l : Late} (h : Fits g) : Fits (applyLate g l) := by
  have hb := fits_bank h
  obtain ⟨h1, h2, h3, h4, h5, h6⟩ := hb
  cases l with
  | x a v => exact fits_same h rfl rfl rfl
  | y b a v => exact fits_setY h
  | reg r v =>
    cases r <;> simp only [applyLate]
    · exact fits_setBank h ⟨h1, h2, by simpa using h3, h4, h5, h6⟩
    · exact fits_setBank h ⟨h1, h2, h3, by simpa using h4, h5, h6⟩
    · exact fits_setBank h ⟨h1, h2, h3, h4, by simpa using h5, h6⟩
    · exact fits_setBank h ⟨h1, h2, h3, h4, h5, by simpa using h6⟩
    · exact fits_same h rfl rfl rfl
    · exact fits_same h rfl rfl rfl
    · exact fits_same h rfl rfl rfl
    · exact fits_same h rfl rfl rfl

theorem fits_foldLate (l : List Late) {g : Engine} (h : Fits g) : Fits (l.foldl applyLate g) := by
  induction l generalizing g with
  | nil => exact h
  | cons x l ih => exact ih (fits_applyLate h)

theorem fits_drain {g : Engine} (h : Fits g) : Fits g.drain := by
  have h1 := fits_foldLate g.late h
  exact fits_of_eq h1 rfl rfl (fits_bank h1).2.1

theorem fits_engFault {g : Engine} {f c : Nat} (h : Fits g) : Fits (engFault g f c).1 := fits_same (fits_drain h) rfl rfl rfl

theorem fits_taskFault {g : Engine} (h : Fits g) : Fits (taskFault g).1 := fits_same (fits_drain h) rfl rfl rfl

theorem fits_engReserved {g : Engine} {f : Nat} (h : Fits g) : Fits (engReserved g f).1 := by
  unfold engReserved
  split
  · exact fits_engFault h
  · exact fits_taskFault h

/-- Writing elements keeps the length of a list. -/
theorem length_foldl_setAt {α β : Type} (f : β → Nat) (v : β → α) (l : List β) (x : List α) :
    (l.foldl (fun l b => setAt l (f b) (v b)) x).length = x.length := by
  induction l generalizing x with
  | nil => rfl
  | cons b l ih => simp only [List.foldl_cons, ih, length_setAt]

theorem fits_commitEff {g : Engine} {e : Eff} {lw : Bool} (h : Fits g) : Fits (commitEff g e lw) := by
  have h1 := fits_foldLate (g.late.filter fun x => !lateLost e.mods lw x) h
  obtain ⟨b1, b2, b3, b4, b5, b6⟩ := fits_bank h1
  have h2 := fits_setBank h1 (b := { ((g.late.filter fun x => !lateLost e.mods lw x).foldl applyLate g).bank with
    d := e.d.foldl (fun l x => setAt l x.1 x.2) ((g.late.filter fun x => !lateLost e.mods lw x).foldl applyLate g).bank.d
    a := e.a.foldl (fun l x => setAt l x.1 (BitVec.ofInt 72 x.2.1)) ((g.late.filter fun x => !lateLost e.mods lw x).foldl applyLate g).bank.a
    p := e.mods.foldl (fun l x => setAt l x.1 x.2) ((g.late.filter fun x => !lateLost e.mods lw x).foldl applyLate g).bank.p })
    ⟨by rw [length_foldl_setAt]; exact b1, by rw [length_foldl_setAt]; exact b2, by rw [length_foldl_setAt]; exact b3, b4, b5, b6⟩
  exact fits_of_eq h2 rfl rfl (fits_bank h).2.1

theorem fits_advance {g : Engine} {le : Option (BitVec 13 × BitVec 16 × Bool)} (h : Fits g) : Fits (advance g le) := by
  unfold advance
  dsimp only
  repeat' first
    | exact fits_same h rfl rfl rfl
    | split

theorem fits_countBg {g : Engine} {d : Bool} {o : List EngOut} (h : Fits g) : Fits (countBg d o g) := by
  unfold countBg
  split
  · exact fits_same h rfl rfl rfl
  · exact h

theorem fits_issueCtl {g : Engine} {cop reg cond addr imm : Nat} (h : Fits g) : Fits (issueCtl g cop reg cond addr imm).1 := by
  have h0 := fits_commitEff (e := Eff.none) (lw := false) h
  have hd := fits_drain h0
  unfold issueCtl
  generalize commitEff g Eff.none false = g0 at h0 hd ⊢
  dsimp only
  repeat' first
    | exact fits_same h0 rfl rfl rfl
    | exact fits_same hd rfl rfl rfl
    | split

theorem fits_issueWord {g : Engine} {env : EngEnv} {w perr : Nat} (h : Fits g) : Fits (issueWord g env w perr).1 := by
  have h1 : Fits { g with cyc := g.cyc + 1 } := fits_same h rfl rfl rfl
  unfold issueWord
  generalize insOf w = i
  dsimp only
  repeat' first
    | exact fits_engFault h
    | exact fits_taskFault h
    | exact fits_engReserved h
    | exact fits_issueCtl h1
    | exact fits_countBg (fits_advance (fits_commitEff h1))
    | split

theorem fits_finishRepeat (env : EngEnv) (n : Nat) {g : Engine} {o : List EngOut} (h : Fits g) : Fits (finishRepeat env n g o).1 := by
  induction n generalizing g o with
  | zero => exact h
  | succ n ih =>
    unfold finishRepeat
    split
    · exact ih (fits_issueWord h)
    · exact h

theorem fits_engPreempt {env : EngEnv} {g : Engine} (h : Fits g) : Fits (engPreempt env g).1 := by
  have h1 := fits_finishRepeat env 256 (o := []) h
  unfold engPreempt
  split
  · generalize finishRepeat env 256 g [] = r at h1 ⊢
    dsimp only
    split
    · exact fits_same (fits_drain h1) rfl rfl rfl
    · exact fits_same h1 rfl rfl rfl
  · exact h

theorem fits_engStart {g : Engine} (h : Fits g) : Fits (engStart g) := by
  unfold engStart
  split
  · exact fits_of_eq h rfl rfl (((fits_banks g).1 h).1.2.1)
  · exact h

theorem fits_engResume {g : Engine} (h : Fits g) : Fits (engResume g) := by
  unfold engResume
  split
  · split
    · exact fits_of_eq h rfl rfl (((fits_banks g).1 h).2.1.2.1)
    · exact fits_same h rfl rfl rfl
  · exact h

theorem fits_runPartition (env : EngEnv) (perr : Nat → Nat) (n : Nat) {g : Engine} {o : List EngOut} (h : Fits g) :
    Fits (runPartition env perr n g o).1 := by
  induction n generalizing g o with
  | zero => exact h
  | succ n ih =>
    unfold runPartition
    split
    · exact ih (fits_issueWord h)
    · exact h

theorem fits_engFinish {env : EngEnv} {perr : Nat → Nat} {g : Engine} (h : Fits g) : Fits (engFinish env perr g).1 := by
  have h1 := fits_engPreempt (env := env) h
  unfold engFinish
  generalize engPreempt env g = r at h1 ⊢
  have h2 := fits_runPartition env perr ((engStart r.1).slen + 1) (o := []) (fits_engStart h1)
  dsimp only
  generalize runPartition env perr ((engStart r.1).slen + 1) (engStart r.1) [] = q at h2 ⊢
  exact fits_engResume h2

theorem fits_engTick {g : Engine} (h : Fits g) : Fits (engTick g) := by
  unfold engTick
  split
  · exact fits_same h rfl rfl rfl
  · exact h

theorem fits_xfClose {g : Engine} (h : Fits g) : Fits (xfClose g) := by
  unfold xfClose
  repeat' first
    | exact h
    | exact fits_same h rfl rfl rfl
    | split

theorem fits_engLeave {g : Engine} (h : Fits g) : Fits (engLeave g) := by
  unfold engLeave
  dsimp only
  repeat' first
    | exact fits_same h rfl rfl rfl
    | split

theorem fits_engRestore {e : HEngine} {g : Engine} (h : Fits g) : Fits (engRestore e g) := fits_same h rfl rfl rfl

theorem fits_engReload {e : HEngine} {g : Engine} : Fits (engReload e g) := by
  rw [fits_banks]
  refine ⟨?_, ?_, rfl⟩ <;> exact ⟨rfl, rfl, rfl, rfl, rfl, rfl⟩

theorem fits_engInstall {e : HEngine} : Fits (engInstall e) := fits_same fits_empty rfl rfl rfl

theorem fits_engOfHood {s : State} {h : Hood} {e : Nat} : Fits (engOfHood s h e) := by
  unfold engOfHood
  repeat' first
    | exact fits_empty
    | exact fits_engInstall
    | exact fits_same fits_empty rfl rfl rfl
    | split

theorem fits_engDispatch {t entry : Nat} {g : Engine} (h : Fits g) : Fits (engDispatch t entry g) :=
  fits_of_eq h rfl rfl (((fits_banks g).1 h).2.1.2.1)

theorem fits_engEndTask {fault : Bool} {g : Engine} (h : Fits g) : Fits (engEndTask fault g) := by
  unfold engEndTask
  dsimp only
  split <;> exact fits_same h rfl rfl rfl

/-- Every engine of a list fits. -/
theorem fits_map {l : List Engine} (h : ∀ g ∈ l, Fits g) : l.map Engine.shape = List.replicate l.length engCounts := by
  induction l with
  | nil => rfl
  | cons g l ih =>
    simp only [List.map_cons, List.length_cons, List.replicate_succ]
    rw [ih fun k hk => h k (List.mem_cons_of_mem _ hk), (h g List.mem_cons_self : g.shape = engCounts)]

end Sys2Proof.Laws
end

