-- ==== Sys2Proof/Laws/EngineWords.lean ====
section
/-! SUPPORT. The four instruction formats give back the fields that a word was built from. -/

namespace Sys2Proof.Laws

open Sys2Proof.Machine

theorem insOf_wordPar {aop ad s1 s2 x y : Nat} (h0 : aop < 2 ^ 6) (h1 : ad < 2 ^ 2) (h2 : s1 < 2 ^ 4) (h3 : s2 < 2 ^ 4) (h4 : x < 2 ^ 23) (h5 : y < 2 ^ 23) :
    insOf (wordPar aop ad s1 s2 x y) = .par aop ad s1 s2 (moveOf x) (moveOf y) ∧ wordPar aop ad s1 s2 x y < 2 ^ 64 := by
  have e : wordPar aop ad s1 s2 x y = aop * 2 ^ 56 + ad * 2 ^ 54 + s1 * 2 ^ 50 + s2 * 2 ^ 46 + x * 2 ^ 23 + y := by
    simp only [wordPar, place]; omega
  rw [e]
  have c : bits (aop * 2 ^ 56 + ad * 2 ^ 54 + s1 * 2 ^ 50 + s2 * 2 ^ 46 + x * 2 ^ 23 + y) 63 62 = 0 := by unfold bits; omega
  have b0 : bits (aop * 2 ^ 56 + ad * 2 ^ 54 + s1 * 2 ^ 50 + s2 * 2 ^ 46 + x * 2 ^ 23 + y) 61 56 = aop := by unfold bits; omega
  have b1 : bits (aop * 2 ^ 56 + ad * 2 ^ 54 + s1 * 2 ^ 50 + s2 * 2 ^ 46 + x * 2 ^ 23 + y) 55 54 = ad := by unfold bits; omega
  have b2 : bits (aop * 2 ^ 56 + ad * 2 ^ 54 + s1 * 2 ^ 50 + s2 * 2 ^ 46 + x * 2 ^ 23 + y) 53 50 = s1 := by unfold bits; omega
  have b3 : bits (aop * 2 ^ 56 + ad * 2 ^ 54 + s1 * 2 ^ 50 + s2 * 2 ^ 46 + x * 2 ^ 23 + y) 49 46 = s2 := by unfold bits; omega
  have b4 : bits (aop * 2 ^ 56 + ad * 2 ^ 54 + s1 * 2 ^ 50 + s2 * 2 ^ 46 + x * 2 ^ 23 + y) 45 23 = x := by unfold bits; omega
  have b5 : bits (aop * 2 ^ 56 + ad * 2 ^ 54 + s1 * 2 ^ 50 + s2 * 2 ^ 46 + x * 2 ^ 23 + y) 22 0 = y := by unfold bits; omega
  refine ⟨?_, by omega⟩
  simp only [insOf, c, b0, b1, b2, b3, b4, b5, if_true]

theorem insOf_wordReg {rop dst src imm : Nat} (h0 : rop < 2 ^ 6) (h1 : dst < 2 ^ 8) (h2 : src < 2 ^ 8) (h3 : imm < 2 ^ 32) :
    insOf (wordReg rop dst src imm) = .reg rop dst src imm ∧ wordReg rop dst src imm < 2 ^ 64 := by
  have e : wordReg rop dst src imm = 1 * 2 ^ 62 + rop * 2 ^ 56 + dst * 2 ^ 48 + src * 2 ^ 40 + imm := by
    simp only [wordReg, place]; omega
  rw [e]
  have c : bits (1 * 2 ^ 62 + rop * 2 ^ 56 + dst * 2 ^ 48 + src * 2 ^ 40 + imm) 63 62 = 1 := by unfold bits; omega
  have b0 : bits (1 * 2 ^ 62 + rop * 2 ^ 56 + dst * 2 ^ 48 + src * 2 ^ 40 + imm) 61 56 = rop := by unfold bits; omega
  have b1 : bits (1 * 2 ^ 62 + rop * 2 ^ 56 + dst * 2 ^ 48 + src * 2 ^ 40 + imm) 55 48 = dst := by unfold bits; omega
  have b2 : bits (1 * 2 ^ 62 + rop * 2 ^ 56 + dst * 2 ^ 48 + src * 2 ^ 40 + imm) 47 40 = src := by unfold bits; omega
  have b3 : bits (1 * 2 ^ 62 + rop * 2 ^ 56 + dst * 2 ^ 48 + src * 2 ^ 40 + imm) 31 0 = imm := by unfold bits; omega
  refine ⟨?_, by omega⟩
  simp only [insOf, c, b0, b1, b2, b3, if_true, if_false, (by decide : ¬ (1 : Nat) = 0)]

theorem insOf_wordCtl {cop reg cond addr imm : Nat} (h0 : cop < 2 ^ 6) (h1 : reg < 2 ^ 4) (h2 : cond < 2 ^ 4) (h3 : addr < 2 ^ 13) (h4 : imm < 2 ^ 16) :
    insOf (wordCtl cop reg cond addr imm) = .ctl cop reg cond addr imm ∧ wordCtl cop reg cond addr imm < 2 ^ 64 := by
  have e : wordCtl cop reg cond addr imm = 2 * 2 ^ 62 + cop * 2 ^ 56 + reg * 2 ^ 52 + cond * 2 ^ 48 + addr * 2 ^ 32 + imm := by
    simp only [wordCtl, place]; omega
  rw [e]
  have c : bits (2 * 2 ^ 62 + cop * 2 ^ 56 + reg * 2 ^ 52 + cond * 2 ^ 48 + addr * 2 ^ 32 + imm) 63 62 = 2 := by unfold bits; omega
  have b0 : bits (2 * 2 ^ 62 + cop * 2 ^ 56 + reg * 2 ^ 52 + cond * 2 ^ 48 + addr * 2 ^ 32 + imm) 61 56 = cop := by unfold bits; omega
  have b1 : bits (2 * 2 ^ 62 + cop * 2 ^ 56 + reg * 2 ^ 52 + cond * 2 ^ 48 + addr * 2 ^ 32 + imm) 55 52 = reg := by unfold bits; omega
  have b2 : bits (2 * 2 ^ 62 + cop * 2 ^ 56 + reg * 2 ^ 52 + cond * 2 ^ 48 + addr * 2 ^ 32 + imm) 51 48 = cond := by unfold bits; omega
  have b3 : bits (2 * 2 ^ 62 + cop * 2 ^ 56 + reg * 2 ^ 52 + cond * 2 ^ 48 + addr * 2 ^ 32 + imm) 44 32 = addr := by unfold bits; omega
  have b4 : bits (2 * 2 ^ 62 + cop * 2 ^ 56 + reg * 2 ^ 52 + cond * 2 ^ 48 + addr * 2 ^ 32 + imm) 15 0 = imm := by unfold bits; omega
  refine ⟨?_, by omega⟩
  simp only [insOf, c, b0, b1, b2, b3, b4, if_true, if_false, (by decide : ¬ (2 : Nat) = 0), (by decide : ¬ (2 : Nat) = 1)]

theorem insOf_wordBus {bop num reg x y : Nat} (h0 : bop < 2 ^ 3) (h1 : num < 2 ^ 9) (h2 : reg < 2 ^ 4) (h3 : x < 2 ^ 23) (h4 : y < 2 ^ 23) :
    insOf (wordBus bop num reg x y) = .bus bop num reg (moveOf x) (moveOf y) ∧ wordBus bop num reg x y < 2 ^ 64 := by
  have e : wordBus bop num reg x y = 3 * 2 ^ 62 + bop * 2 ^ 59 + num * 2 ^ 50 + reg * 2 ^ 46 + x * 2 ^ 23 + y := by
    simp only [wordBus, place]; omega
  rw [e]
  have c : bits (3 * 2 ^ 62 + bop * 2 ^ 59 + num * 2 ^ 50 + reg * 2 ^ 46 + x * 2 ^ 23 + y) 63 62 = 3 := by unfold bits; omega
  have b0 : bits (3 * 2 ^ 62 + bop * 2 ^ 59 + num * 2 ^ 50 + reg * 2 ^ 46 + x * 2 ^ 23 + y) 61 59 = bop := by unfold bits; omega
  have b1 : bits (3 * 2 ^ 62 + bop * 2 ^ 59 + num * 2 ^ 50 + reg * 2 ^ 46 + x * 2 ^ 23 + y) 58 50 = num := by unfold bits; omega
  have b2 : bits (3 * 2 ^ 62 + bop * 2 ^ 59 + num * 2 ^ 50 + reg * 2 ^ 46 + x * 2 ^ 23 + y) 49 46 = reg := by unfold bits; omega
  have b3 : bits (3 * 2 ^ 62 + bop * 2 ^ 59 + num * 2 ^ 50 + reg * 2 ^ 46 + x * 2 ^ 23 + y) 45 23 = x := by unfold bits; omega
  have b4 : bits (3 * 2 ^ 62 + bop * 2 ^ 59 + num * 2 ^ 50 + reg * 2 ^ 46 + x * 2 ^ 23 + y) 22 0 = y := by unfold bits; omega
  refine ⟨?_, by omega⟩
  simp only [insOf, c, b0, b1, b2, b3, b4, if_false, (by decide : ¬ (3 : Nat) = 0), (by decide : ¬ (3 : Nat) = 1), (by decide : ¬ (3 : Nat) = 2)]

theorem moveOf_wordMove {op ptr mod msel reg sh : Nat} (h0 : op < 2 ^ 3) (h1 : ptr < 2 ^ 2) (h2 : mod < 2 ^ 2) (h3 : msel < 2 ^ 2) (h4 : reg < 2 ^ 4) (h5 : sh < 2 ^ 3) :
    moveOf (wordMove op ptr mod msel reg sh) = ⟨op, ptr, mod, msel, reg, sh⟩ ∧ wordMove op ptr mod msel reg sh < 2 ^ 23 := by
  have e : wordMove op ptr mod msel reg sh = op * 2 ^ 20 + ptr * 2 ^ 18 + mod * 2 ^ 16 + msel * 2 ^ 14 + reg * 2 ^ 10 + sh * 2 ^ 7 := by simp only [wordMove, place]; omega
  rw [e]
  have b0 : bits (op * 2 ^ 20 + ptr * 2 ^ 18 + mod * 2 ^ 16 + msel * 2 ^ 14 + reg * 2 ^ 10 + sh * 2 ^ 7) 22 20 = op := by unfold bits; omega
  have b1 : bits (op * 2 ^ 20 + ptr * 2 ^ 18 + mod * 2 ^ 16 + msel * 2 ^ 14 + reg * 2 ^ 10 + sh * 2 ^ 7) 19 18 = ptr := by unfold bits; omega
  have b2 : bits (op * 2 ^ 20 + ptr * 2 ^ 18 + mod * 2 ^ 16 + msel * 2 ^ 14 + reg * 2 ^ 10 + sh * 2 ^ 7) 17 16 = mod := by unfold bits; omega
  have b3 : bits (op * 2 ^ 20 + ptr * 2 ^ 18 + mod * 2 ^ 16 + msel * 2 ^ 14 + reg * 2 ^ 10 + sh * 2 ^ 7) 15 14 = msel := by unfold bits; omega
  have b4 : bits (op * 2 ^ 20 + ptr * 2 ^ 18 + mod * 2 ^ 16 + msel * 2 ^ 14 + reg * 2 ^ 10 + sh * 2 ^ 7) 13 10 = reg := by unfold bits; omega
  have b5 : bits (op * 2 ^ 20 + ptr * 2 ^ 18 + mod * 2 ^ 16 + msel * 2 ^ 14 + reg * 2 ^ 10 + sh * 2 ^ 7) 9 7 = sh := by unfold bits; omega
  refine ⟨?_, by omega⟩
  simp only [moveOf, b0, b1, b2, b3, b4, b5]

theorem exec_engWord {c : Instr} {g : EngAt} {w : Nat} (h : engWord c = some (g, w)) (s : State) : exec c s = .next (issueAt g w s) := by
  cases c <;> first
    | (cases h; rfl)
    | cases h

end Sys2Proof.Laws
end

