-- ==== Sys2Proof/Laws/EngineOps.lean ====
section
/-! SUPPORT. What an issue of an instruction does to an engine, part by part. -/

namespace Sys2Proof.Laws

open Sys2Proof.Machine

/-! ## Late writes -/

@[simp] theorem setY_phase (g : Engine) (b : Bool) (w : Nat) (v : Word) : (g.setY b w v).phase = g.phase := by unfold Engine.setY; split <;> rfl
@[simp] theorem setBank_phase (g : Engine) (b : RegBank) : (g.setBank b).phase = g.phase := by unfold Engine.setBank; split <;> rfl
@[simp] theorem bank_setBank (g : Engine) (b : RegBank) : (g.setBank b).bank = b := by
  unfold Engine.bank
  rw [setBank_phase]
  unfold Engine.setBank
  split <;> rfl
@[simp] theorem bank_setY (g : Engine) (b : Bool) (w : Nat) (v : Word) : (g.setY b w v).bank = g.bank := by
  unfold Engine.bank Engine.setY
  split <;> rfl

/-- The part of an engine that late writes leave: everything but the pointer registers, the loop registers, ST and the memories. -/
structure SameCore (g k : Engine) : Prop where
  phase : k.phase = g.phase
  d : k.bank.d = g.bank.d
  a : k.bank.a = g.bank.a
  other : (if g.phase = .sample then k.bg = g.bg else k.smp = g.smp)
  imem : k.imem = g.imem
  st : ∀ i, i ≠ stLA → stBit k.st i = stBit g.st i
  aOld : k.aOld = g.aOld
  stOld : k.stOld = g.stOld
  pc : k.pc = g.pc
  rc : k.rc = g.rc
  br : k.br = g.br
  cyc : k.cyc = g.cyc
  act : k.act = g.act
  xf : k.xf = g.xf
  save : (k.saveLc, k.saveLs, k.saveLe) = (g.saveLc, g.saveLs, g.saveLe)
  flt : (k.fltCode, k.fltFrame, k.fltPc) = (g.fltCode, g.fltFrame, g.fltPc)
  task : (k.task, k.tfault, k.wfault, k.xb) = (g.task, g.tfault, g.wfault, g.xb)
  sats : (k.sav, k.bav, k.ssv, k.bsv) = (g.sav, g.bav, g.ssv, g.bsv)
  on : (k.on, k.held, k.slen) = (g.on, g.held, g.slen)
  pre : (k.preReq, k.due, k.saved) = (g.preReq, g.due, g.saved)
  late : k.late = g.late

theorem SameCore.refl (g : Engine) : SameCore g g := by
  constructor <;> try rfl
  · split <;> rfl
  · intro _ _; rfl

theorem SameCore.trans {g k l : Engine} (h : SameCore g k) (j : SameCore k l) : SameCore g l where
  phase := j.phase.trans h.phase
  d := j.d.trans h.d
  a := j.a.trans h.a
  other := by
    have h1 := h.other
    have h2 := j.other
    rw [h.phase] at h2
    split at h1 <;> simp_all
  imem := j.imem.trans h.imem
  st := fun i n => (j.st i n).trans (h.st i n)
  aOld := j.aOld.trans h.aOld
  stOld := j.stOld.trans h.stOld
  pc := j.pc.trans h.pc
  rc := j.rc.trans h.rc
  br := j.br.trans h.br
  cyc := j.cyc.trans h.cyc
  act := j.act.trans h.act
  xf := j.xf.trans h.xf
  save := j.save.trans h.save
  flt := j.flt.trans h.flt
  task := j.task.trans h.task
  sats := j.sats.trans h.sats
  on := j.on.trans h.on
  pre := j.pre.trans h.pre
  late := j.late.trans h.late

/-- Setting or clearing a bit of ST. -/
theorem stBit_stSet (st : BitVec 16) (i j : Nat) (v : Bool) (hi : i < 16) :
    stBit (stSet st i v) j = if j = i then v else stBit st j := by
  unfold stBit stSet
  rcases Nat.lt_or_ge j 16 with hj | hj
  · have e : (BitVec.ofNat 16 (2 ^ i)).getLsbD j = decide (j = i) := by
      rw [BitVec.getLsbD_ofNat, Nat.testBit_two_pow]
      simp [hj, eq_comm]
    cases v
    · simp only [Bool.false_eq_true, if_false, BitVec.getLsbD_and, BitVec.getLsbD_not, e]
      split <;> simp_all
    · simp only [if_true, BitVec.getLsbD_or, e]
      split <;> simp_all
  · have e : j ≠ i := by omega
    rw [if_neg e]
    rw [BitVec.getLsbD_of_ge _ _ hj, BitVec.getLsbD_of_ge _ _ hj]

theorem sameCore_applyLate (g : Engine) (l : Late) : SameCore g (applyLate g l) := by
  cases l with
  | x a v => exact { SameCore.refl g with }
  | y b a v =>
    show SameCore g (g.setY b a v)
    unfold Engine.setY
    split <;> exact { SameCore.refl g with }
  | reg r v =>
    cases r <;> simp only [applyLate]
    case la =>
      exact { SameCore.refl g with st := fun i n => by simp only [stBit_stSet _ _ _ _ (by decide : stLA < 16), if_neg n] }
    case lc => exact { SameCore.refl g with }
    case ls => exact { SameCore.refl g with }
    case le => exact { SameCore.refl g with }
    all_goals
      refine { SameCore.refl g with phase := ?_, d := ?_, a := ?_, other := ?_, imem := ?_, st := ?_, aOld := ?_, stOld := ?_, pc := ?_, rc := ?_, br := ?_, cyc := ?_, act := ?_, xf := ?_, save := ?_, flt := ?_, task := ?_, sats := ?_, on := ?_, pre := ?_, late := ?_ }
      all_goals first
        | (rw [bank_setBank])
        | (unfold Engine.setBank; split <;> simp_all)
        | (intro i n; unfold Engine.setBank; split <;> rfl)

theorem sameCore_foldLate (l : List Late) (g : Engine) : SameCore g (l.foldl applyLate g) := by
  induction l generalizing g with
  | nil => exact SameCore.refl g
  | cons x l ih => exact (sameCore_applyLate g x).trans (ih _)

/-! ## Writing lists of registers -/

/-- Writing elements at keys that are all different: each key holds its value, and no other element changes. -/
theorem foldl_setAt_of_not_mem {α β : Type} (f : β → Nat) (v : β → α) (l : List β) (x : List α) (n : Nat) (d : α)
    (h : ∀ b ∈ l, f b ≠ n) : (l.foldl (fun l b => setAt l (f b) (v b)) x).getD n d = x.getD n d := by
  induction l generalizing x with
  | nil => rfl
  | cons b l ih =>
    have hb := h b List.mem_cons_self
    rw [List.foldl_cons, ih _ fun c hc => h c (List.mem_cons_of_mem _ hc), getD_setAt, if_neg fun k => hb k.1.symm]

theorem foldl_setAt_of_mem {α β : Type} (f : β → Nat) (v : β → α) (l : List β) (x : List α) (b : β) (d : α)
    (h : (l.map f).Nodup) (hb : b ∈ l) (hl : f b < x.length) : (l.foldl (fun l b => setAt l (f b) (v b)) x).getD (f b) d = v b := by
  induction l generalizing x with
  | nil => cases hb
  | cons c l ih =>
    rw [List.map_cons, List.nodup_cons] at h
    rw [List.foldl_cons]
    rcases List.mem_cons.1 hb with rfl | hb
    · have hn : ∀ k ∈ l, f k ≠ f b := fun k hk e => h.1 (by rw [← e]; exact List.mem_map_of_mem hk)
      rw [foldl_setAt_of_not_mem f v l _ _ d hn, getD_setAt, if_pos ⟨rfl, hl⟩]
    · exact ih _ h.2 hb (by rw [length_setAt]; exact hl)

/-- The pins that the effects of an instruction write. -/
theorem foldl_pins_of_not_mem (l : List (Nat × Int × Bool)) (st : BitVec 16) (i : Nat) (h : ∀ b ∈ l, stPin b.1 ≠ i) (hk : ∀ b ∈ l, b.1 < 4) :
    stBit (l.foldl (fun s x => stSet s (stPin x.1) x.2.2) st) i = stBit st i := by
  induction l generalizing st with
  | nil => rfl
  | cons b l ih =>
    have h1 := h b List.mem_cons_self
    have h2 := hk b List.mem_cons_self
    rw [List.foldl_cons, ih _ (fun c hc => h c (List.mem_cons_of_mem _ hc)) fun c hc => hk c (List.mem_cons_of_mem _ hc),
      stBit_stSet _ _ _ _ (by unfold stPin; omega), if_neg (Ne.symm h1)]

theorem foldl_pins_of_mem (l : List (Nat × Int × Bool)) (st : BitVec 16) (b : Nat × Int × Bool) (h : (l.map (·.1)).Nodup) (hb : b ∈ l)
    (hk : ∀ b ∈ l, b.1 < 4) : stBit (l.foldl (fun s x => stSet s (stPin x.1) x.2.2) st) (stPin b.1) = b.2.2 := by
  induction l generalizing st with
  | nil => cases hb
  | cons c l ih =>
    rw [List.map_cons, List.nodup_cons] at h
    rw [List.foldl_cons]
    have hk' : ∀ b ∈ l, b.1 < 4 := fun d hd => hk d (List.mem_cons_of_mem _ hd)
    rcases List.mem_cons.1 hb with rfl | hb
    · have h2 := hk b List.mem_cons_self
      rw [foldl_pins_of_not_mem l _ _ (fun k hk e => h.1 ?_) hk', stBit_stSet _ _ _ _ (by unfold stPin; omega), if_pos rfl]
      have : k.1 = b.1 := by unfold stPin at e; omega
      exact this ▸ List.mem_map_of_mem (f := (·.1)) hk
    · exact ih _ h.2 hb hk'

/-! ## The saturation flags -/

@[simp] theorem bank_markSat (g : Engine) (a b : Bool) : (markSat g a b).bank = g.bank := rfl
@[simp] theorem phase_markSat (g : Engine) (a b : Bool) : (markSat g a b).phase = g.phase := rfl

theorem st_markSat (g : Engine) (av sv : Bool) (i : Nat) : stBit (markSat g av sv).st i =
    if i = stSV then sv || stBit g.st stSV else if i = stAV then av || stBit g.st stAV else stBit g.st i := by
  unfold markSat
  dsimp only
  rw [stBit_stSet _ _ _ _ (by decide), stBit_stSet _ _ _ _ (by decide)]

/-! ## Putting the effects in place -/

/-- The engine after the late writes that an instruction does not override. -/
def landedFor (g : Engine) (e : Eff) (lw : Bool) : Engine := (g.late.filter fun x => !lateLost e.mods lw x).foldl applyLate g

theorem sameCore_landedFor (g : Engine) (e : Eff) (lw : Bool) : SameCore g (landedFor g e lw) := sameCore_foldLate _ _

theorem commit_bank (g : Engine) (e : Eff) (lw : Bool) : (commitEff g e lw).bank = { (landedFor g e lw).bank with
    d := e.d.foldl (fun l x => setAt l x.1 x.2) (landedFor g e lw).bank.d
    a := e.a.foldl (fun l x => setAt l x.1 (BitVec.ofInt 72 x.2.1)) (landedFor g e lw).bank.a
    p := e.mods.foldl (fun l x => setAt l x.1 x.2) (landedFor g e lw).bank.p } := by
  show Engine.bank (markSat ((landedFor g e lw).setBank _) e.av e.sv) = _
  rw [bank_markSat, bank_setBank]
  rfl

theorem commit_d (g : Engine) (e : Eff) (lw : Bool) : (commitEff g e lw).bank.d = e.d.foldl (fun l x => setAt l x.1 x.2) g.bank.d := by
  rw [commit_bank, (sameCore_landedFor g e lw).d]

theorem commit_a (g : Engine) (e : Eff) (lw : Bool) :
    (commitEff g e lw).bank.a = e.a.foldl (fun l x => setAt l x.1 (BitVec.ofInt 72 x.2.1)) g.bank.a := by
  rw [commit_bank, (sameCore_landedFor g e lw).a]

theorem commit_dN {g : Engine} {e : Eff} {lw : Bool} {n : Nat} {v : Word} (h : (e.d.map (·.1)).Nodup) (hm : (n, v) ∈ e.d)
    (hn : n < g.bank.d.length) : (commitEff g e lw).bank.dN n = v := by
  unfold RegBank.dN
  rw [commit_d]
  exact foldl_setAt_of_mem (·.1) (·.2) e.d g.bank.d (n, v) 0 h hm hn

theorem commit_dN_of_not_mem {g : Engine} {e : Eff} {lw : Bool} {n : Nat} (h : n ∉ e.d.map (·.1)) :
    (commitEff g e lw).bank.dN n = g.bank.dN n := by
  unfold RegBank.dN
  rw [commit_d]
  exact foldl_setAt_of_not_mem (·.1) (·.2) e.d g.bank.d n 0 fun b hb k => h (k ▸ List.mem_map_of_mem hb)

theorem commit_aN {g : Engine} {e : Eff} {lw : Bool} {n : Nat} {v : Int} {p : Bool} (h : (e.a.map (·.1)).Nodup) (hm : (n, v, p) ∈ e.a)
    (hn : n < g.bank.a.length) (lo : -2 ^ 71 ≤ v) (hi : v < 2 ^ 71) : (commitEff g e lw).bank.aN n = v := by
  unfold RegBank.aN
  rw [commit_a, foldl_setAt_of_mem (·.1) (fun x => BitVec.ofInt 72 x.2.1) e.a g.bank.a (n, v, p) 0 h hm hn, BitVec.toInt_ofInt]
  show Int.bmod v (2 ^ 72) = v
  exact Int.bmod_eq_of_le (by omega) (by omega)

theorem commit_aN_of_not_mem {g : Engine} {e : Eff} {lw : Bool} {n : Nat} (h : n ∉ e.a.map (·.1)) :
    (commitEff g e lw).bank.aN n = g.bank.aN n := by
  unfold RegBank.aN
  rw [commit_a]
  rw [foldl_setAt_of_not_mem (·.1) (fun x => BitVec.ofInt 72 x.2.1) e.a g.bank.a n 0 fun b hb k => h (k ▸ List.mem_map_of_mem hb)]

@[simp] theorem commit_phase (g : Engine) (e : Eff) (lw : Bool) : (commitEff g e lw).phase = g.phase := by
  show (markSat ((landedFor g e lw).setBank _) e.av e.sv).phase = _
  rw [phase_markSat, setBank_phase, (sameCore_landedFor g e lw).phase]

/-- ST after an instruction, before a move into ST: N and Z of a compare, the pins, and the saturation flags. -/
def stAfter (g : Engine) (e : Eff) (lw : Bool) : BitVec 16 :=
  let st := e.a.foldl (fun s x => stSet s (stPin x.1) x.2.2) (markSat (landedFor g e lw) e.av e.sv).st
  match e.nz with | some (n, z) => stSet (stSet st stN n) stZ z | none => st

theorem commit_st (g : Engine) (e : Eff) (lw : Bool) :
    (commitEff g e lw).st = match e.st with | some v => stMove (stAfter g e lw) v | none => stAfter g e lw := by
  have h : ∀ b, (markSat ((landedFor g e lw).setBank b) e.av e.sv).st = (markSat (landedFor g e lw) e.av e.sv).st := by
    intro b
    unfold markSat
    have : ((landedFor g e lw).setBank b).st = (landedFor g e lw).st := by unfold Engine.setBank; split <;> rfl
    simp only [this]
  show stCommit e (markSat ((landedFor g e lw).setBank _) e.av e.sv).st = _
  rw [h]
  rfl

/-- ST bit i after an instruction. -/
theorem stBit_stAfter (g : Engine) (e : Eff) (lw : Bool) (i : Nat) (hi : i ≠ stLA) (hk : ∀ b ∈ e.a, b.1 < 4) (hp : ∀ b ∈ e.a, stPin b.1 ≠ i) :
    stBit (stAfter g e lw) i =
      match e.nz with
      | some (n, z) => if i = stZ then z else if i = stN then n else
          if i = stSV then e.sv || stBit g.st stSV else if i = stAV then e.av || stBit g.st stAV else stBit g.st i
      | none => if i = stSV then e.sv || stBit g.st stSV else if i = stAV then e.av || stBit g.st stAV else stBit g.st i := by
  have h1 : stBit (e.a.foldl (fun s x => stSet s (stPin x.1) x.2.2) (markSat (landedFor g e lw) e.av e.sv).st) i =
      if i = stSV then e.sv || stBit g.st stSV else if i = stAV then e.av || stBit g.st stAV else stBit g.st i := by
    rw [foldl_pins_of_not_mem _ _ _ hp hk, st_markSat]
    have hs := (sameCore_landedFor g e lw).st
    rw [hs stSV (by decide), hs stAV (by decide), hs i hi]
  unfold stAfter
  cases e.nz with
  | none => exact h1
  | some nz =>
    dsimp only
    rw [stBit_stSet _ _ _ _ (by decide), stBit_stSet _ _ _ _ (by decide), h1]

/-- The pin of an accumulator that an instruction writes. -/
theorem stAfter_pin (g : Engine) (e : Eff) (lw : Bool) (b : Nat × Int × Bool) (h : (e.a.map (·.1)).Nodup) (hb : b ∈ e.a)
    (hk : ∀ b ∈ e.a, b.1 < 4) : stBit (stAfter g e lw) (stPin b.1) = b.2.2 := by
  have h1 := foldl_pins_of_mem e.a (markSat (landedFor g e lw) e.av e.sv).st b h hb hk
  have hz : stPin b.1 ≠ stZ := by unfold stPin stZ; omega
  have hn : stPin b.1 ≠ stN := by unfold stPin stN; omega
  unfold stAfter
  cases e.nz with
  | none => exact h1
  | some nz =>
    dsimp only
    rw [stBit_stSet _ _ _ _ (by decide), if_neg hz, stBit_stSet _ _ _ _ (by decide), if_neg hn, h1]

/-! ## Issue -/

/-- Commands that do nothing outside the engines' own registers, the buses, the delay lines and determinism. -/
def mild : EngOut → Bool
  | .bus _ _ => true
  | .line _ _ => true
  | .bgWrite => true
  | .sat => true
  | _ => false

theorem engines_voidDet (f : Det → Det) (s : State) : (voidDet f s).engines = s.engines := by
  unfold voidDet raiseInt
  dsimp only
  split
  · split <;> rfl
  · rfl

theorem engines_engOut {o : EngOut} (h : mild o = true) (e : Nat) (s : State) : (engOut e s o).engines = s.engines := by
  cases o <;> first
    | rfl
    | exact engines_voidDet _ _
    | cases h

theorem engines_foldOut (e : Nat) (l : List EngOut) (s : State) (h : ∀ o ∈ l, mild o = true) : (l.foldl (engOut e) s).engines = s.engines := by
  induction l generalizing s with
  | nil => rfl
  | cons o l ih =>
    rw [List.foldl_cons, ih _ fun q hq => h q (List.mem_cons_of_mem _ hq), engines_engOut (h o List.mem_cons_self)]

theorem engAt_setEng_self {s : State} {e : Nat} {g : Engine} (h : e < s.engines.length) : engAt (setEng e g s) e = g := by
  unfold engAt setEng
  rw [getD_setAt, if_pos ⟨rfl, h⟩]

theorem engAt_setEng_ne {s : State} {e k : Nat} {g : Engine} (h : k ≠ e) : engAt (setEng e g s) k = engAt s k := by
  unfold engAt setEng
  rw [getD_setAt, if_neg fun q => h q.1]

theorem engAt_engDone {s : State} {e : Nat} {r : Engine × List EngOut} (h : e < s.engines.length) (hm : ∀ o ∈ r.2, mild o = true) :
    engAt (engDone e r s) e = r.1 := by
  have h1 := engines_foldOut e r.2 (setEng e r.1 s) hm
  have h2 := engAt_setEng_self (g := r.1) h
  unfold engAt at *
  rw [engDone, h1]
  exact h2

theorem engAt_engDone_ne {s : State} {e k : Nat} {r : Engine × List EngOut} (h : k ≠ e) (hm : ∀ o ∈ r.2, mild o = true) :
    engAt (engDone e r s) k = engAt s k := by
  have h1 := engines_foldOut e r.2 (setEng e r.1 s) hm
  have h2 := engAt_setEng_ne (s := s) (g := r.1) h
  unfold engAt at *
  rw [engDone, h1]
  exact h2

theorem mild_effStore (g : Engine) (det isY : Bool) (a : Nat) (v : Word) : ∀ o ∈ (effStore g det isY a v).outs, mild o = true := by
  unfold effStore
  dsimp only
  split
  · intro o h
    rcases List.mem_singleton.1 h with rfl
    rfl
  · intro o h
    cases h

theorem mild_and {a b : Eff} (ha : ∀ o ∈ a.outs, mild o = true) (hb : ∀ o ∈ b.outs, mild o = true) : ∀ o ∈ (a.and b).outs, mild o = true := by
  intro o h
  exact (List.mem_append.1 h).elim (ha o) (hb o)

theorem mild_nil {e : Eff} (h : e.outs = []) : ∀ o ∈ e.outs, mild o = true := by
  rw [h]
  intro o h
  cases h

theorem mild_effMove (g : Engine) (det isY : Bool) (m : MoveF) : ∀ o ∈ (effMove g det isY m).outs, mild o = true := by
  unfold effMove
  split
  · exact mild_nil rfl
  · refine mild_and ?_ (mild_nil rfl)
    repeat' first
      | exact mild_nil rfl
      | exact mild_effStore _ _ _ _ _
      | (dsimp only; exact mild_effStore _ _ _ _ _)
      | split

theorem mild_effWide (g : Engine) (x y : MoveF) : ∀ o ∈ (effWide g x y).outs, mild o = true := by
  unfold effWide
  split <;> exact mild_nil rfl

theorem mild_effBus (g : Engine) (env : EngEnv) (bop num reg : Nat) : ∀ o ∈ (effBus g env bop num reg).outs, mild o = true := by
  unfold effBus
  dsimp only
  repeat' first
    | exact mild_nil rfl
    | (intro o h; rcases List.mem_singleton.1 h with rfl; rfl)
    | split

theorem outs_effDst (c : Nat) (v : Word) : (effDst c v).outs = [] := by
  unfold effDst
  dsimp only
  repeat' first
    | rfl
    | split

theorem outs_effReg (g : Engine) (rop dst src imm : Nat) : (effReg g rop dst src imm).outs = [] := by
  have key : ∀ (c : Prop) [Decidable c] (a b : Eff), a.outs = [] → b.outs = [] → (if c then a else b).outs = [] := by
    intro c _ a b ha hb
    split <;> assumption
  refine key _ _ _ (outs_effDst _ _) (key _ _ _ (outs_effDst _ _) ?_)
  iterate 12 refine key _ _ _ rfl ?_
  rfl

theorem mild_effReg (g : Engine) (rop dst src imm : Nat) : ∀ o ∈ (effReg g rop dst src imm).outs, mild o = true :=
  mild_nil (outs_effReg g rop dst src imm)

theorem mild_effOf (g : Engine) (env : EngEnv) (i : EIns) : ∀ o ∈ (effOf g env i).outs, mild o = true := by
  cases i with
  | par aop ad s1 s2 x y =>
    exact mild_and (mild_and (mild_nil rfl) (mild_effMove _ _ _ _)) (mild_and (mild_effMove _ _ _ _) (mild_effWide _ _ _))
  | bus bop num reg x y =>
    exact mild_and (mild_and (mild_effBus _ _ _ _ _) (mild_effMove _ _ _ _)) (mild_and (mild_effMove _ _ _ _) (mild_effWide _ _ _))
  | reg rop dst src imm => exact mild_effReg _ _ _ _ _
  | ctl => exact mild_nil rfl

/-- The instruction is of class 0, 1 or 3. -/
def isPlain : EIns → Bool
  | .ctl _ _ _ _ _ => false
  | _ => true

/-- The engine after an instruction of class 0, 1 or 3 that issues, before PC and the loop advance. -/
def committed (x : Engine) (env : EngEnv) (i : EIns) : Engine := commitEff { x with cyc := x.cyc + 1 } (effOf x env i) (loopWrites x)

/-- What an engine becomes apart from sequencing. -/
structure Issued (k y : Engine) : Prop where
  form : ∃ rc pc lc st br wf, y = { k with rc := rc, pc := pc, lc := lc, st := st, br := br, wfault := wf }
  st : ∀ i, i ≠ stLA → stBit y.st i = stBit k.st i

theorem issued_refl (k : Engine) : Issued k k := ⟨⟨_, _, _, _, _, _, rfl⟩, fun _ _ => rfl⟩

theorem issued_countBg {k y : Engine} (h : Issued k y) (d : Bool) (o : List EngOut) : Issued k (countBg d o y) := by
  obtain ⟨⟨rc, pc, lc, st, br, wf, rfl⟩, hs⟩ := h
  unfold countBg
  split
  · exact ⟨⟨rc, pc, lc, st, br, _, rfl⟩, hs⟩
  · exact ⟨⟨rc, pc, lc, st, br, wf, rfl⟩, hs⟩

theorem issued_advance (k : Engine) (le : Option (BitVec 13 × BitVec 16 × Bool)) : Issued k (advance k le) := by
  unfold advance
  generalize k.rc - (if k.rc = 0 then 0 else 1) = rc
  dsimp only
  split
  · exact ⟨⟨_, _, _, _, _, _, rfl⟩, fun _ _ => rfl⟩
  · split
    · rename_i p lc la
      refine ⟨⟨_, _, _, _, _, _, rfl⟩, fun i hi => ?_⟩
      show stBit (if la = true then k.st else stSet k.st stLA false) i = _
      split
      · rfl
      · rw [stBit_stSet _ _ _ _ (by decide), if_neg hi]
    · split
      · exact ⟨⟨_, _, _, _, _, _, rfl⟩, fun _ _ => rfl⟩
      · exact ⟨⟨_, _, _, _, _, _, rfl⟩, fun _ _ => rfl⟩

/-- Whether the word is END. -/
def isEndWord (w : Nat) : Bool := match insOf w with | .ctl 6 _ _ _ _ => !reservedWord w | _ => false

/-- The issue of a word whose instruction the engine can issue. -/
theorem issueWord_plain {x : Engine} {env : EngEnv} {w : Nat} (hp : isPlain (insOf w) = true) (hr : reservedWord w = false)
    (hc : contextReserved x (insOf w) = false)
    (hph : if x.phase = .sample then backgroundOnly (insOf w) = false ∧ x.cyc + 5 < x.slen else sampleOnly (insOf w) = false) :
    issueWord x env w 0 =
      (countBg env.det (effOf x env (insOf w)).outs (advance (committed x env (insOf w)) (loopEnd x)),
       (effOf x env (insOf w)).outs ++ (if (effOf x env (insOf w)).av || (effOf x env (insOf w)).sv then [.sat] else [])) := by
  unfold issueWord committed
  generalize insOf w = i at *
  have h1 : ((x.phase == .sample) && decide (x.slen ≤ x.cyc + 5)) = false := by
    split at hph
    · have := hph.2
      simp only [Bool.and_eq_false_iff, decide_eq_false_iff_not]
      right
      omega
    · simp_all
  have h2 : ((x.phase == .sample) && backgroundOnly i) = false := by
    split at hph <;> simp_all
  have h3 : ((!(x.phase == .sample)) && sampleOnly i) = false := by
    split at hph <;> simp_all
  cases i <;> first
    | (cases hp; done)
    | (simp only [h1, h2, h3, hr, hc, Bool.not_false, Bool.and_true, Bool.false_and, Bool.false_eq_true, if_false, ne_eq, not_true_eq_false,
        Bool.or_false, Bool.and_false])

/-- R203: an instruction command of class 0, 1 or 3 that can issue answers a next state. -/
theorem plain_issue {s : State} {c : Instr} {g : EngAt} {w : Nat} (hs : s.engines.length = 16) (hw : engWord c = some (g, w)) (hc : canIssue c s)
    (hp : isPlain (insOf w) = true) :
    ∃ t, exec c s = .next t ∧
      t = engDone g.e.toNat (issueWord (engAt s g.e.toNat) (engEnv s g.e.toNat) w 0) s ∧
      Issued (committed (engAt s g.e.toNat) (engEnv s g.e.toNat) (insOf w)) (engAt t g.e.toNat) := by
  unfold canIssue at hc
  rw [hw] at hc
  obtain ⟨h1, h2, h3, h4, h5⟩ := hc
  have hx : issueAt g w s = engDone g.e.toNat (issueWord (engAt s g.e.toNat) (engEnv s g.e.toNat) w 0) s := by
    unfold issueAt
    dsimp only
    rw [if_pos h1, h2]
  refine ⟨_, exec_engWord hw s, hx, ?_⟩
  rw [hx, engAt_engDone]
  · rw [issueWord_plain hp h3 h4 h5]
    exact issued_countBg (issued_advance _ _) _ _
  · rw [hs]
    exact g.e.isLt
  · rw [issueWord_plain hp h3 h4 h5]
    intro o ho
    rcases List.mem_append.1 ho with ho | ho
    · exact mild_effOf _ _ _ o ho
    · split at ho
      · rcases List.mem_singleton.1 ho with rfl
        rfl
      · cases ho

end Sys2Proof.Laws
end

