-- ==== Sys2Proof/Laws/EngineEff.lean ====
section
/-! SUPPORT. The registers that the parts of an instruction write, and what they write to them. -/

namespace Sys2Proof.Laws

open Sys2Proof.Machine

theorem nodup_of_distinct {l : List Nat} (h : distinct l = true) : l.Nodup := by
  induction l with
  | nil => exact List.nodup_nil
  | cons a l ih =>
    simp only [distinct, Bool.and_eq_true, Bool.not_eq_true', List.contains_eq_mem, decide_eq_false_iff_not] at h
    exact List.nodup_cons.2 ⟨h.1, ih h.2⟩

/-- What the checks of a word of class 0 or 3 say. -/
structure Checked (i : EIns) : Prop where
  nodup : (insWrites i).Nodup
  wide : ∀ aop ad s1 s2 x y, i = .par aop ad s1 s2 x y → wideOk x y = true
  wideBus : ∀ b n r x y, i = .bus b n r x y → wideOk x y = true
  aop : ∀ aop ad s1 s2 x y, i = .par aop ad s1 s2 x y → aopOk aop ad s1 s2 = true

theorem checked_par {w aop ad s1 s2 : Nat} {x y : MoveF} (h : reservedWord w = false) (hi : insOf w = .par aop ad s1 s2 x y) :
    Checked (.par aop ad s1 s2 x y) := by
  unfold reservedWord at h
  rw [hi] at h
  simp only [Bool.not_eq_false', Bool.and_eq_true] at h
  exact ⟨nodup_of_distinct h.2, by rintro _ _ _ _ _ _ ⟨⟩; exact h.1.2, by rintro _ _ _ _ _ ⟨⟩, by rintro _ _ _ _ _ _ ⟨⟩; exact h.1.1.1.1⟩

theorem checked_bus {w bop num reg : Nat} {x y : MoveF} (h : reservedWord w = false) (hi : insOf w = .bus bop num reg x y) :
    Checked (.bus bop num reg x y) := by
  unfold reservedWord at h
  rw [hi] at h
  simp only [Bool.not_eq_false', Bool.and_eq_true] at h
  exact ⟨nodup_of_distinct h.2, by rintro _ _ _ _ _ _ ⟨⟩, by rintro _ _ _ _ _ ⟨⟩; exact h.1.2, by rintro _ _ _ _ _ _ ⟨⟩⟩

/-! ## Registers written -/

theorem effStore_da (g : Engine) (det isY : Bool) (a : Nat) (v : Word) :
    (effStore g det isY a v).d = [] ∧ (effStore g det isY a v).a = [] ∧ (effStore g det isY a v).nz = none ∧ (effStore g det isY a v).st = none ∧
      (effStore g det isY a v).p = [] ∧ (effStore g det isY a v).av = false ∧ (effStore g det isY a v).sv = false := ⟨rfl, rfl, rfl, rfl, rfl, rfl, rfl⟩

/-- A move field's data registers. -/
theorem effMove_d (g : Engine) (det isY : Bool) (m : MoveF) : (effMove g det isY m).d =
    if m.op = 1 then [(m.reg, if isY then g.readY (g.bank.pN (m.ptr + if isY then 4 else 0)).toNat
      else Store.get 0 g.x (g.bank.pN (m.ptr + if isY then 4 else 0)).toNat)] else [] := by
  unfold effMove
  by_cases h0 : m.op = 0
  · rw [if_pos h0, if_neg (by omega)]; rfl
  · rw [if_neg h0]
    by_cases h1 : m.op = 1
    · rw [if_pos h1]
      show (if m.op = 1 then _ else _ : Eff).d ++ [] = _
      rw [if_pos h1, List.append_nil]
    · rw [if_neg h1]
      show (if m.op = 1 then _ else _ : Eff).d ++ [] = _
      rw [if_neg h1, List.append_nil]
      repeat' first
        | rfl
        | split

/-- A move field's accumulators. -/
theorem effMove_a (g : Engine) (det isY : Bool) (m : MoveF) : (effMove g det isY m).a =
    if m.op = 4 then [(m.reg % 4, (if isY then g.readY (g.bank.pN (m.ptr + if isY then 4 else 0)).toNat
      else Store.get 0 g.x (g.bank.pN (m.ptr + if isY then 4 else 0)).toNat).toInt * 2 ^ 31, false)] else [] := by
  unfold effMove
  by_cases h0 : m.op = 0
  · rw [if_pos h0, if_neg (by omega)]; rfl
  · rw [if_neg h0]
    show (if m.op = 1 then _ else _ : Eff).a ++ [] = _
    rw [List.append_nil]
    by_cases h4 : m.op = 4
    · rw [if_neg (by omega), if_neg (by omega), if_neg (by omega), if_pos h4, if_pos h4]
    · rw [if_neg h4]
      repeat' first
        | rfl
        | contradiction
        | split

theorem effMove_nz (g : Engine) (det isY : Bool) (m : MoveF) : (effMove g det isY m).nz = none ∧ (effMove g det isY m).st = none ∧ (effMove g det isY m).av = false := by
  unfold effMove
  by_cases h0 : m.op = 0
  · rw [if_pos h0]; exact ⟨rfl, rfl, rfl⟩
  · rw [if_neg h0]
    have key : ∀ e : Eff, e.nz = none ∧ e.st = none ∧ e.av = false → (e.and { Eff.none with p := [(m.ptr + (if isY then 4 else 0), postMod (g.bank.pN (m.ptr + if isY then 4 else 0)) (g.bank.b.getD (m.ptr + if isY then 4 else 0) 0) (g.bank.l.getD (m.ptr + if isY then 4 else 0) 0) (modValue g.bank isY m))] }).nz = none ∧ (e.and { Eff.none with p := [(m.ptr + (if isY then 4 else 0), postMod (g.bank.pN (m.ptr + if isY then 4 else 0)) (g.bank.b.getD (m.ptr + if isY then 4 else 0) 0) (g.bank.l.getD (m.ptr + if isY then 4 else 0) 0) (modValue g.bank isY m))] }).st = none ∧ (e.and { Eff.none with p := [(m.ptr + (if isY then 4 else 0), postMod (g.bank.pN (m.ptr + if isY then 4 else 0)) (g.bank.b.getD (m.ptr + if isY then 4 else 0) 0) (g.bank.l.getD (m.ptr + if isY then 4 else 0) 0) (modValue g.bank isY m))] }).av = false := by
      intro e h
      simp only [Eff.and, Eff.none, h.1, h.2.1, h.2.2]
      exact ⟨rfl, rfl, rfl⟩
    refine key _ ?_
    repeat' first
      | exact ⟨rfl, rfl, rfl⟩
      | split

theorem effWide_d (g : Engine) (x y : MoveF) : (effWide g x y).d = [] := by unfold effWide; split <;> rfl
theorem effWide_nz (g : Engine) (x y : MoveF) : (effWide g x y).nz = none ∧ (effWide g x y).st = none ∧ (effWide g x y).av = false ∧ (effWide g x y).sv = false := by
  unfold effWide; split <;> exact ⟨rfl, rfl, rfl, rfl⟩

theorem effWide_a (g : Engine) (x y : MoveF) : (effWide g x y).a = if x.op = 6 ∧ 8 ≤ x.reg then
    [(x.reg % 4, (Store.get 0 g.x (g.bank.pN x.ptr).toNat).toInt * 2 ^ 32 + (g.readY (g.bank.pN (y.ptr + 4)).toNat).toNat, false)] else [] := by
  unfold effWide; split <;> rfl

theorem effArith_d (g : Engine) (aop ad s1 s2 : Nat) : (effArith g aop ad s1 s2).d = [] := rfl
theorem effArith_st (g : Engine) (aop ad s1 s2 : Nat) : (effArith g aop ad s1 s2).st = none := rfl

/-- Only an operation that writes its accumulator gives a value for it. -/
theorem arith_acc {aop : Nat} {a : Int} {pin : Bool} {am dx dy : Int} {k : Nat} {cond : Bool} (h : (arith aop a pin am dx dy k cond).acc ≠ none) :
    aopWrites aop = true := by
  by_cases h0 : aop = 0
  · subst h0; exact absurd rfl h
  by_cases h1 : aop = 0x0F
  · subst h1; exact absurd rfl h
  by_cases h2 : aop = 0x10
  · subst h2; exact absurd rfl h
  simp [aopWrites, h0, h1, h2]

theorem effArith_a (g : Engine) (aop ad s1 s2 : Nat) : ((effArith g aop ad s1 s2).a.map (·.1)).Sublist (if aopWrites aop then [ad] else []) := by
  unfold effArith
  dsimp only
  split
  · rename_i v p h
    rw [if_pos (arith_acc (by rw [h]; simp))]
    exact List.Sublist.refl _
  · exact List.nil_sublist _

theorem effBus_da (g : Engine) (env : EngEnv) (bop num reg : Nat) : (effBus g env bop num reg).a = [] ∧
    ((effBus g env bop num reg).d.map (·.1)).Sublist (if bop = 0 ∨ bop = 3 then [reg] else []) ∧ (effBus g env bop num reg).nz = none ∧
    (effBus g env bop num reg).st = none ∧ (effBus g env bop num reg).av = false := by
  unfold effBus
  dsimp only
  by_cases h0 : bop = 0
  · subst h0; exact ⟨rfl, List.Sublist.refl _, rfl, rfl, rfl⟩
  by_cases h1 : bop = 1
  · subst h1; exact ⟨rfl, List.nil_sublist _, rfl, rfl, rfl⟩
  by_cases h2 : bop = 2
  · subst h2; exact ⟨rfl, List.nil_sublist _, rfl, rfl, rfl⟩
  by_cases h3 : bop = 3
  · subst h3; exact ⟨rfl, List.Sublist.refl _, rfl, rfl, rfl⟩
  rw [if_neg h0, if_neg h1, if_neg h2, if_neg h3]
  split <;> exact ⟨rfl, List.nil_sublist _, rfl, rfl, rfl⟩

theorem moveD_sub (g : Engine) (det isY : Bool) (m : MoveF) : ((effMove g det isY m).d.map (·.1)).Sublist (moveDests m) := by
  rw [effMove_d]
  unfold moveDests
  split
  · exact List.Sublist.refl _
  · exact List.nil_sublist _

theorem moveA_sub (g : Engine) (det isY : Bool) (m : MoveF) : ((effMove g det isY m).a.map fun x => 16 + x.1).Sublist (moveDests m) := by
  rw [effMove_a]
  unfold moveDests
  by_cases h4 : m.op = 4
  · have h1 : ¬ m.op = 1 := by omega
    rw [if_pos h4, if_neg h1, if_pos h4]
    exact List.Sublist.refl _
  · rw [if_neg h4]
    exact List.nil_sublist _

theorem wideA_sub (g : Engine) (x y : MoveF) (h : wideOk x y = true) : ((effWide g x y).a.map fun x => 16 + x.1).Sublist (wideDests x y) := by
  rw [effWide_a]
  unfold wideDests
  by_cases h6 : x.op = 6 ∧ 8 ≤ x.reg
  · have hy : y.op = 6 := by
      unfold wideOk at h
      rw [if_pos (.inl h6.1)] at h
      simp only [Bool.and_eq_true, beq_iff_eq] at h
      exact h.1.2
    rw [if_pos h6, if_pos ⟨h6.1, hy, h6.2⟩]
    exact List.Sublist.refl _
  · rw [if_neg h6]
    exact List.nil_sublist _

/-- The data registers of an instruction of class 0 or 3 are among those that it writes. -/
theorem effD_sub (g : Engine) (env : EngEnv) (i : EIns) (hc : Checked i) (hp : ∀ rop dst src imm, i ≠ .reg rop dst src imm) :
    ((effOf g env i).d.map (·.1)).Sublist (insWrites i) := by
  cases i with
  | par aop ad s1 s2 x y =>
    simp only [effOf, Eff.and, effArith_d, effWide_d, List.nil_append, List.append_nil, List.map_append, insWrites]
    exact List.Sublist.trans (List.Sublist.append (List.Sublist.trans (moveD_sub _ _ _ _) (List.sublist_append_right _ _)) (moveD_sub _ _ _ _))
      (List.sublist_append_left _ _)
  | bus bop num reg x y =>
    simp only [effOf, Eff.and, effWide_d, List.append_nil, List.map_append, insWrites]
    exact List.Sublist.trans (List.Sublist.append (List.Sublist.append (effBus_da g env bop num reg).2.1 (moveD_sub _ _ _ _)) (moveD_sub _ _ _ _))
      (List.sublist_append_left _ _)
  | reg rop dst src imm => exact absurd rfl (hp _ _ _ _)
  | ctl => exact List.Sublist.refl _

theorem effA_sub (g : Engine) (env : EngEnv) (i : EIns) (hc : Checked i) (hp : ∀ rop dst src imm, i ≠ .reg rop dst src imm) :
    ((effOf g env i).a.map fun x => 16 + x.1).Sublist (insWrites i) := by
  cases i with
  | par aop ad s1 s2 x y =>
    have h1 : ((effArith g aop ad s1 s2).a.map fun x => 16 + x.1).Sublist (if aopWrites aop then [16 + ad] else []) := by
      have := (effArith_a g aop ad s1 s2).map (16 + ·)
      rw [List.map_map] at this
      split at this <;> rename_i k
      · rw [if_pos k]; exact this
      · rw [if_neg k]; exact this
    have h2 := wideA_sub g x y (hc.wide _ _ _ _ _ _ rfl)
    simp only [effOf, Eff.and, List.map_append, insWrites, ← List.append_assoc]
    exact ((h1.append (moveA_sub _ _ _ _)).append (moveA_sub _ _ _ _)).append h2
  | bus bop num reg x y =>
    have h2 := wideA_sub g x y (hc.wideBus _ _ _ _ _ rfl)
    simp only [effOf, Eff.and, (effBus_da g env bop num reg).1, List.nil_append, List.map_append, insWrites, ← List.append_assoc]
    exact (((moveA_sub _ _ _ _).trans (List.sublist_append_right _ _)).append (moveA_sub _ _ _ _)).append h2
  | reg rop dst src imm => exact absurd rfl (hp _ _ _ _)
  | ctl => exact List.Sublist.refl _

theorem nodup_of_map {l : List (Nat × Int × Bool)} (h : (l.map fun x => 16 + x.1).Nodup) : (l.map (·.1)).Nodup := by
  have e : (l.map fun x => 16 + x.1) = (l.map (·.1)).map (16 + ·) := by rw [List.map_map]; rfl
  rw [e] at h
  exact (List.pairwise_map.1 h).imp fun k e => k (by rw [e])

end Sys2Proof.Laws
end

