-- ==== Sys2Proof/Laws/State.lean ====
section
/-! SUPPORT. What each named update of the state leaves in each field. -/

namespace Sys2Proof.Laws

open Sys2Proof.Machine

variable (s : State)

@[simp] theorem later_part (t : Nat) : (later t s).part = s.part := rfl
@[simp] theorem later_now (t : Nat) : (later t s).now = max s.now t := rfl
@[simp] theorem later_use (t : Nat) : (later t s).use = s.use := rfl
@[simp] theorem later_mode (t : Nat) : (later t s).mode = s.mode := rfl
@[simp] theorem later_frame (t : Nat) : (later t s).frame = s.frame := rfl
@[simp] theorem later_carder (t : Nat) : (later t s).carder = s.carder := rfl
@[simp] theorem later_det (t : Nat) : (later t s).det = s.det := rfl
@[simp] theorem later_block (t : Nat) : (later t s).block = s.block := rfl
@[simp] theorem later_hood (t : Nat) : (later t s).hood = s.hood := rfl
@[simp] theorem later_dramMb (t : Nat) : (later t s).dramMb = s.dramMb := rfl
@[simp] theorem later_dram (t : Nat) : (later t s).dram = s.dram := rfl
@[simp] theorem later_regions (t : Nat) : (later t s).regions = s.regions := rfl
@[simp] theorem later_slots (t : Nat) : (later t s).slots = s.slots := rfl
@[simp] theorem later_groups (t : Nat) : (later t s).groups = s.groups := rfl
@[simp] theorem later_clusters (t : Nat) : (later t s).clusters = s.clusters := rfl
@[simp] theorem later_bus (t : Nat) : (later t s).bus = s.bus := rfl
@[simp] theorem later_engines (t : Nat) : (later t s).engines = s.engines := rfl
@[simp] theorem later_dly (t : Nat) : (later t s).dly = s.dly := rfl
@[simp] theorem later_clocks (t : Nat) : (later t s).clocks = s.clocks := rfl
@[simp] theorem later_audio (t : Nat) : (later t s).audio = s.audio := rfl
@[simp] theorem later_twin (t : Nat) : (later t s).twin = s.twin := rfl
@[simp] theorem later_host (t : Nat) : (later t s).host = s.host := rfl
@[simp] theorem later_rings (t : Nat) : (later t s).rings = s.rings := rfl
@[simp] theorem later_ringMem (t : Nat) : (later t s).ringMem = s.ringMem := rfl
@[simp] theorem later_mbx (t : Nat) : (later t s).mbx = s.mbx := rfl
@[simp] theorem later_sched (t : Nat) : (later t s).sched = s.sched := rfl
@[simp] theorem later_fw (t : Nat) : (later t s).fw = s.fw := rfl
@[simp] theorem later_flash (t : Nat) : (later t s).flash = s.flash := rfl
@[simp] theorem later_fuses (t : Nat) : (later t s).fuses = s.fuses := rfl
@[simp] theorem later_timers (t : Nat) : (later t s).timers = s.timers := rfl
@[simp] theorem later_uarts (t : Nat) : (later t s).uarts = s.uarts := rfl
@[simp] theorem later_cv (t : Nat) : (later t s).cv = s.cv := rfl
@[simp] theorem later_flt (t : Nat) : (later t s).flt = s.flt := rfl
@[simp] theorem later_tap (t : Nat) : (later t s).tap = s.tap := rfl
@[simp] theorem later_pending (t : Nat) : (later t s).pending = s.pending := rfl

@[simp] theorem used_part : (used s).part = s.part := rfl
@[simp] theorem used_now : (used s).now = s.now := rfl
@[simp] theorem used_use : (used s).use = s.use + 1 := rfl
@[simp] theorem used_mode : (used s).mode = s.mode := rfl
@[simp] theorem used_frame : (used s).frame = s.frame := rfl
@[simp] theorem used_carder : (used s).carder = s.carder := rfl
@[simp] theorem used_det : (used s).det = s.det := rfl
@[simp] theorem used_block : (used s).block = s.block := rfl
@[simp] theorem used_hood : (used s).hood = s.hood := rfl
@[simp] theorem used_dramMb : (used s).dramMb = s.dramMb := rfl
@[simp] theorem used_dram : (used s).dram = s.dram := rfl
@[simp] theorem used_regions : (used s).regions = s.regions := rfl
@[simp] theorem used_slots : (used s).slots = s.slots := rfl
@[simp] theorem used_groups : (used s).groups = s.groups := rfl
@[simp] theorem used_clusters : (used s).clusters = s.clusters := rfl
@[simp] theorem used_bus : (used s).bus = s.bus := rfl
@[simp] theorem used_engines : (used s).engines = s.engines := rfl
@[simp] theorem used_dly : (used s).dly = s.dly := rfl
@[simp] theorem used_clocks : (used s).clocks = s.clocks := rfl
@[simp] theorem used_audio : (used s).audio = s.audio := rfl
@[simp] theorem used_twin : (used s).twin = s.twin := rfl
@[simp] theorem used_host : (used s).host = s.host := rfl
@[simp] theorem used_rings : (used s).rings = s.rings := rfl
@[simp] theorem used_ringMem : (used s).ringMem = s.ringMem := rfl
@[simp] theorem used_mbx : (used s).mbx = s.mbx := rfl
@[simp] theorem used_sched : (used s).sched = s.sched := rfl
@[simp] theorem used_fw : (used s).fw = s.fw := rfl
@[simp] theorem used_flash : (used s).flash = s.flash := rfl
@[simp] theorem used_fuses : (used s).fuses = s.fuses := rfl
@[simp] theorem used_timers : (used s).timers = s.timers := rfl
@[simp] theorem used_uarts : (used s).uarts = s.uarts := rfl
@[simp] theorem used_cv : (used s).cv = s.cv := rfl
@[simp] theorem used_flt : (used s).flt = s.flt := rfl
@[simp] theorem used_tap : (used s).tap = s.tap := rfl
@[simp] theorem used_pending : (used s).pending = s.pending := rfl

@[simp] theorem setSlot_part (i : Nat) (x : Slot) : (setSlot i x s).part = s.part := rfl
@[simp] theorem setSlot_now (i : Nat) (x : Slot) : (setSlot i x s).now = s.now := rfl
@[simp] theorem setSlot_use (i : Nat) (x : Slot) : (setSlot i x s).use = s.use := rfl
@[simp] theorem setSlot_mode (i : Nat) (x : Slot) : (setSlot i x s).mode = s.mode := rfl
@[simp] theorem setSlot_frame (i : Nat) (x : Slot) : (setSlot i x s).frame = s.frame := rfl
@[simp] theorem setSlot_carder (i : Nat) (x : Slot) : (setSlot i x s).carder = s.carder := rfl
@[simp] theorem setSlot_det (i : Nat) (x : Slot) : (setSlot i x s).det = s.det := rfl
@[simp] theorem setSlot_block (i : Nat) (x : Slot) : (setSlot i x s).block = s.block := rfl
@[simp] theorem setSlot_hood (i : Nat) (x : Slot) : (setSlot i x s).hood = s.hood := rfl
@[simp] theorem setSlot_dramMb (i : Nat) (x : Slot) : (setSlot i x s).dramMb = s.dramMb := rfl
@[simp] theorem setSlot_dram (i : Nat) (x : Slot) : (setSlot i x s).dram = s.dram := rfl
@[simp] theorem setSlot_regions (i : Nat) (x : Slot) : (setSlot i x s).regions = s.regions := rfl
@[simp] theorem setSlot_slots (i : Nat) (x : Slot) : (setSlot i x s).slots = Store.set Slot.free s.slots i x := rfl
@[simp] theorem setSlot_groups (i : Nat) (x : Slot) : (setSlot i x s).groups = s.groups := rfl
@[simp] theorem setSlot_clusters (i : Nat) (x : Slot) : (setSlot i x s).clusters = s.clusters := rfl
@[simp] theorem setSlot_bus (i : Nat) (x : Slot) : (setSlot i x s).bus = s.bus := rfl
@[simp] theorem setSlot_engines (i : Nat) (x : Slot) : (setSlot i x s).engines = s.engines := rfl
@[simp] theorem setSlot_dly (i : Nat) (x : Slot) : (setSlot i x s).dly = s.dly := rfl
@[simp] theorem setSlot_clocks (i : Nat) (x : Slot) : (setSlot i x s).clocks = s.clocks := rfl
@[simp] theorem setSlot_audio (i : Nat) (x : Slot) : (setSlot i x s).audio = s.audio := rfl
@[simp] theorem setSlot_twin (i : Nat) (x : Slot) : (setSlot i x s).twin = s.twin := rfl
@[simp] theorem setSlot_host (i : Nat) (x : Slot) : (setSlot i x s).host = s.host := rfl
@[simp] theorem setSlot_rings (i : Nat) (x : Slot) : (setSlot i x s).rings = s.rings := rfl
@[simp] theorem setSlot_ringMem (i : Nat) (x : Slot) : (setSlot i x s).ringMem = s.ringMem := rfl
@[simp] theorem setSlot_mbx (i : Nat) (x : Slot) : (setSlot i x s).mbx = s.mbx := rfl
@[simp] theorem setSlot_sched (i : Nat) (x : Slot) : (setSlot i x s).sched = s.sched := rfl
@[simp] theorem setSlot_fw (i : Nat) (x : Slot) : (setSlot i x s).fw = s.fw := rfl
@[simp] theorem setSlot_flash (i : Nat) (x : Slot) : (setSlot i x s).flash = s.flash := rfl
@[simp] theorem setSlot_fuses (i : Nat) (x : Slot) : (setSlot i x s).fuses = s.fuses := rfl
@[simp] theorem setSlot_timers (i : Nat) (x : Slot) : (setSlot i x s).timers = s.timers := rfl
@[simp] theorem setSlot_uarts (i : Nat) (x : Slot) : (setSlot i x s).uarts = s.uarts := rfl
@[simp] theorem setSlot_cv (i : Nat) (x : Slot) : (setSlot i x s).cv = s.cv := rfl
@[simp] theorem setSlot_flt (i : Nat) (x : Slot) : (setSlot i x s).flt = s.flt := rfl
@[simp] theorem setSlot_tap (i : Nat) (x : Slot) : (setSlot i x s).tap = s.tap := rfl
@[simp] theorem setSlot_pending (i : Nat) (x : Slot) : (setSlot i x s).pending = s.pending := rfl

@[simp] theorem setEng_part (e : Nat) (g : Engine) : (setEng e g s).part = s.part := rfl
@[simp] theorem setEng_now (e : Nat) (g : Engine) : (setEng e g s).now = s.now := rfl
@[simp] theorem setEng_use (e : Nat) (g : Engine) : (setEng e g s).use = s.use := rfl
@[simp] theorem setEng_mode (e : Nat) (g : Engine) : (setEng e g s).mode = s.mode := rfl
@[simp] theorem setEng_frame (e : Nat) (g : Engine) : (setEng e g s).frame = s.frame := rfl
@[simp] theorem setEng_carder (e : Nat) (g : Engine) : (setEng e g s).carder = s.carder := rfl
@[simp] theorem setEng_det (e : Nat) (g : Engine) : (setEng e g s).det = s.det := rfl
@[simp] theorem setEng_block (e : Nat) (g : Engine) : (setEng e g s).block = s.block := rfl
@[simp] theorem setEng_hood (e : Nat) (g : Engine) : (setEng e g s).hood = s.hood := rfl
@[simp] theorem setEng_dramMb (e : Nat) (g : Engine) : (setEng e g s).dramMb = s.dramMb := rfl
@[simp] theorem setEng_dram (e : Nat) (g : Engine) : (setEng e g s).dram = s.dram := rfl
@[simp] theorem setEng_regions (e : Nat) (g : Engine) : (setEng e g s).regions = s.regions := rfl
@[simp] theorem setEng_slots (e : Nat) (g : Engine) : (setEng e g s).slots = s.slots := rfl
@[simp] theorem setEng_groups (e : Nat) (g : Engine) : (setEng e g s).groups = s.groups := rfl
@[simp] theorem setEng_clusters (e : Nat) (g : Engine) : (setEng e g s).clusters = s.clusters := rfl
@[simp] theorem setEng_bus (e : Nat) (g : Engine) : (setEng e g s).bus = s.bus := rfl
@[simp] theorem setEng_engines (e : Nat) (g : Engine) : (setEng e g s).engines = setAt s.engines e g := rfl
@[simp] theorem setEng_dly (e : Nat) (g : Engine) : (setEng e g s).dly = s.dly := rfl
@[simp] theorem setEng_clocks (e : Nat) (g : Engine) : (setEng e g s).clocks = s.clocks := rfl
@[simp] theorem setEng_audio (e : Nat) (g : Engine) : (setEng e g s).audio = s.audio := rfl
@[simp] theorem setEng_twin (e : Nat) (g : Engine) : (setEng e g s).twin = s.twin := rfl
@[simp] theorem setEng_host (e : Nat) (g : Engine) : (setEng e g s).host = s.host := rfl
@[simp] theorem setEng_rings (e : Nat) (g : Engine) : (setEng e g s).rings = s.rings := rfl
@[simp] theorem setEng_ringMem (e : Nat) (g : Engine) : (setEng e g s).ringMem = s.ringMem := rfl
@[simp] theorem setEng_mbx (e : Nat) (g : Engine) : (setEng e g s).mbx = s.mbx := rfl
@[simp] theorem setEng_sched (e : Nat) (g : Engine) : (setEng e g s).sched = s.sched := rfl
@[simp] theorem setEng_fw (e : Nat) (g : Engine) : (setEng e g s).fw = s.fw := rfl
@[simp] theorem setEng_flash (e : Nat) (g : Engine) : (setEng e g s).flash = s.flash := rfl
@[simp] theorem setEng_fuses (e : Nat) (g : Engine) : (setEng e g s).fuses = s.fuses := rfl
@[simp] theorem setEng_timers (e : Nat) (g : Engine) : (setEng e g s).timers = s.timers := rfl
@[simp] theorem setEng_uarts (e : Nat) (g : Engine) : (setEng e g s).uarts = s.uarts := rfl
@[simp] theorem setEng_cv (e : Nat) (g : Engine) : (setEng e g s).cv = s.cv := rfl
@[simp] theorem setEng_flt (e : Nat) (g : Engine) : (setEng e g s).flt = s.flt := rfl
@[simp] theorem setEng_tap (e : Nat) (g : Engine) : (setEng e g s).tap = s.tap := rfl
@[simp] theorem setEng_pending (e : Nat) (g : Engine) : (setEng e g s).pending = s.pending := rfl

@[simp] theorem updGroup_part (g : Nat) (f : Group → Group) : (updGroup g f s).part = s.part := rfl
@[simp] theorem updGroup_now (g : Nat) (f : Group → Group) : (updGroup g f s).now = s.now := rfl
@[simp] theorem updGroup_use (g : Nat) (f : Group → Group) : (updGroup g f s).use = s.use := rfl
@[simp] theorem updGroup_mode (g : Nat) (f : Group → Group) : (updGroup g f s).mode = s.mode := rfl
@[simp] theorem updGroup_frame (g : Nat) (f : Group → Group) : (updGroup g f s).frame = s.frame := rfl
@[simp] theorem updGroup_carder (g : Nat) (f : Group → Group) : (updGroup g f s).carder = s.carder := rfl
@[simp] theorem updGroup_det (g : Nat) (f : Group → Group) : (updGroup g f s).det = s.det := rfl
@[simp] theorem updGroup_block (g : Nat) (f : Group → Group) : (updGroup g f s).block = s.block := rfl
@[simp] theorem updGroup_hood (g : Nat) (f : Group → Group) : (updGroup g f s).hood = s.hood := rfl
@[simp] theorem updGroup_dramMb (g : Nat) (f : Group → Group) : (updGroup g f s).dramMb = s.dramMb := rfl
@[simp] theorem updGroup_dram (g : Nat) (f : Group → Group) : (updGroup g f s).dram = s.dram := rfl
@[simp] theorem updGroup_regions (g : Nat) (f : Group → Group) : (updGroup g f s).regions = s.regions := rfl
@[simp] theorem updGroup_slots (g : Nat) (f : Group → Group) : (updGroup g f s).slots = s.slots := rfl
@[simp] theorem updGroup_groups (g : Nat) (f : Group → Group) : (updGroup g f s).groups = updAt s.groups g f := rfl
@[simp] theorem updGroup_clusters (g : Nat) (f : Group → Group) : (updGroup g f s).clusters = s.clusters := rfl
@[simp] theorem updGroup_bus (g : Nat) (f : Group → Group) : (updGroup g f s).bus = s.bus := rfl
@[simp] theorem updGroup_engines (g : Nat) (f : Group → Group) : (updGroup g f s).engines = s.engines := rfl
@[simp] theorem updGroup_dly (g : Nat) (f : Group → Group) : (updGroup g f s).dly = s.dly := rfl
@[simp] theorem updGroup_clocks (g : Nat) (f : Group → Group) : (updGroup g f s).clocks = s.clocks := rfl
@[simp] theorem updGroup_audio (g : Nat) (f : Group → Group) : (updGroup g f s).audio = s.audio := rfl
@[simp] theorem updGroup_twin (g : Nat) (f : Group → Group) : (updGroup g f s).twin = s.twin := rfl
@[simp] theorem updGroup_host (g : Nat) (f : Group → Group) : (updGroup g f s).host = s.host := rfl
@[simp] theorem updGroup_rings (g : Nat) (f : Group → Group) : (updGroup g f s).rings = s.rings := rfl
@[simp] theorem updGroup_ringMem (g : Nat) (f : Group → Group) : (updGroup g f s).ringMem = s.ringMem := rfl
@[simp] theorem updGroup_mbx (g : Nat) (f : Group → Group) : (updGroup g f s).mbx = s.mbx := rfl
@[simp] theorem updGroup_sched (g : Nat) (f : Group → Group) : (updGroup g f s).sched = s.sched := rfl
@[simp] theorem updGroup_fw (g : Nat) (f : Group → Group) : (updGroup g f s).fw = s.fw := rfl
@[simp] theorem updGroup_flash (g : Nat) (f : Group → Group) : (updGroup g f s).flash = s.flash := rfl
@[simp] theorem updGroup_fuses (g : Nat) (f : Group → Group) : (updGroup g f s).fuses = s.fuses := rfl
@[simp] theorem updGroup_timers (g : Nat) (f : Group → Group) : (updGroup g f s).timers = s.timers := rfl
@[simp] theorem updGroup_uarts (g : Nat) (f : Group → Group) : (updGroup g f s).uarts = s.uarts := rfl
@[simp] theorem updGroup_cv (g : Nat) (f : Group → Group) : (updGroup g f s).cv = s.cv := rfl
@[simp] theorem updGroup_flt (g : Nat) (f : Group → Group) : (updGroup g f s).flt = s.flt := rfl
@[simp] theorem updGroup_tap (g : Nat) (f : Group → Group) : (updGroup g f s).tap = s.tap := rfl
@[simp] theorem updGroup_pending (g : Nat) (f : Group → Group) : (updGroup g f s).pending = s.pending := rfl

@[simp] theorem updCluster_part (c : Nat) (f : Cluster → Cluster) : (updCluster c f s).part = s.part := rfl
@[simp] theorem updCluster_now (c : Nat) (f : Cluster → Cluster) : (updCluster c f s).now = s.now := rfl
@[simp] theorem updCluster_use (c : Nat) (f : Cluster → Cluster) : (updCluster c f s).use = s.use := rfl
@[simp] theorem updCluster_mode (c : Nat) (f : Cluster → Cluster) : (updCluster c f s).mode = s.mode := rfl
@[simp] theorem updCluster_frame (c : Nat) (f : Cluster → Cluster) : (updCluster c f s).frame = s.frame := rfl
@[simp] theorem updCluster_carder (c : Nat) (f : Cluster → Cluster) : (updCluster c f s).carder = s.carder := rfl
@[simp] theorem updCluster_det (c : Nat) (f : Cluster → Cluster) : (updCluster c f s).det = s.det := rfl
@[simp] theorem updCluster_block (c : Nat) (f : Cluster → Cluster) : (updCluster c f s).block = s.block := rfl
@[simp] theorem updCluster_hood (c : Nat) (f : Cluster → Cluster) : (updCluster c f s).hood = s.hood := rfl
@[simp] theorem updCluster_dramMb (c : Nat) (f : Cluster → Cluster) : (updCluster c f s).dramMb = s.dramMb := rfl
@[simp] theorem updCluster_dram (c : Nat) (f : Cluster → Cluster) : (updCluster c f s).dram = s.dram := rfl
@[simp] theorem updCluster_regions (c : Nat) (f : Cluster → Cluster) : (updCluster c f s).regions = s.regions := rfl
@[simp] theorem updCluster_slots (c : Nat) (f : Cluster → Cluster) : (updCluster c f s).slots = s.slots := rfl
@[simp] theorem updCluster_groups (c : Nat) (f : Cluster → Cluster) : (updCluster c f s).groups = s.groups := rfl
@[simp] theorem updCluster_clusters (c : Nat) (f : Cluster → Cluster) : (updCluster c f s).clusters = updAt s.clusters c f := rfl
@[simp] theorem updCluster_bus (c : Nat) (f : Cluster → Cluster) : (updCluster c f s).bus = s.bus := rfl
@[simp] theorem updCluster_engines (c : Nat) (f : Cluster → Cluster) : (updCluster c f s).engines = s.engines := rfl
@[simp] theorem updCluster_dly (c : Nat) (f : Cluster → Cluster) : (updCluster c f s).dly = s.dly := rfl
@[simp] theorem updCluster_clocks (c : Nat) (f : Cluster → Cluster) : (updCluster c f s).clocks = s.clocks := rfl
@[simp] theorem updCluster_audio (c : Nat) (f : Cluster → Cluster) : (updCluster c f s).audio = s.audio := rfl
@[simp] theorem updCluster_twin (c : Nat) (f : Cluster → Cluster) : (updCluster c f s).twin = s.twin := rfl
@[simp] theorem updCluster_host (c : Nat) (f : Cluster → Cluster) : (updCluster c f s).host = s.host := rfl
@[simp] theorem updCluster_rings (c : Nat) (f : Cluster → Cluster) : (updCluster c f s).rings = s.rings := rfl
@[simp] theorem updCluster_ringMem (c : Nat) (f : Cluster → Cluster) : (updCluster c f s).ringMem = s.ringMem := rfl
@[simp] theorem updCluster_mbx (c : Nat) (f : Cluster → Cluster) : (updCluster c f s).mbx = s.mbx := rfl
@[simp] theorem updCluster_sched (c : Nat) (f : Cluster → Cluster) : (updCluster c f s).sched = s.sched := rfl
@[simp] theorem updCluster_fw (c : Nat) (f : Cluster → Cluster) : (updCluster c f s).fw = s.fw := rfl
@[simp] theorem updCluster_flash (c : Nat) (f : Cluster → Cluster) : (updCluster c f s).flash = s.flash := rfl
@[simp] theorem updCluster_fuses (c : Nat) (f : Cluster → Cluster) : (updCluster c f s).fuses = s.fuses := rfl
@[simp] theorem updCluster_timers (c : Nat) (f : Cluster → Cluster) : (updCluster c f s).timers = s.timers := rfl
@[simp] theorem updCluster_uarts (c : Nat) (f : Cluster → Cluster) : (updCluster c f s).uarts = s.uarts := rfl
@[simp] theorem updCluster_cv (c : Nat) (f : Cluster → Cluster) : (updCluster c f s).cv = s.cv := rfl
@[simp] theorem updCluster_flt (c : Nat) (f : Cluster → Cluster) : (updCluster c f s).flt = s.flt := rfl
@[simp] theorem updCluster_tap (c : Nat) (f : Cluster → Cluster) : (updCluster c f s).tap = s.tap := rfl
@[simp] theorem updCluster_pending (c : Nat) (f : Cluster → Cluster) : (updCluster c f s).pending = s.pending := rfl

@[simp] theorem updRing_part (r : Nat) (f : Ring → Ring) : (updRing r f s).part = s.part := rfl
@[simp] theorem updRing_now (r : Nat) (f : Ring → Ring) : (updRing r f s).now = s.now := rfl
@[simp] theorem updRing_use (r : Nat) (f : Ring → Ring) : (updRing r f s).use = s.use := rfl
@[simp] theorem updRing_mode (r : Nat) (f : Ring → Ring) : (updRing r f s).mode = s.mode := rfl
@[simp] theorem updRing_frame (r : Nat) (f : Ring → Ring) : (updRing r f s).frame = s.frame := rfl
@[simp] theorem updRing_carder (r : Nat) (f : Ring → Ring) : (updRing r f s).carder = s.carder := rfl
@[simp] theorem updRing_det (r : Nat) (f : Ring → Ring) : (updRing r f s).det = s.det := rfl
@[simp] theorem updRing_block (r : Nat) (f : Ring → Ring) : (updRing r f s).block = s.block := rfl
@[simp] theorem updRing_hood (r : Nat) (f : Ring → Ring) : (updRing r f s).hood = s.hood := rfl
@[simp] theorem updRing_dramMb (r : Nat) (f : Ring → Ring) : (updRing r f s).dramMb = s.dramMb := rfl
@[simp] theorem updRing_dram (r : Nat) (f : Ring → Ring) : (updRing r f s).dram = s.dram := rfl
@[simp] theorem updRing_regions (r : Nat) (f : Ring → Ring) : (updRing r f s).regions = s.regions := rfl
@[simp] theorem updRing_slots (r : Nat) (f : Ring → Ring) : (updRing r f s).slots = s.slots := rfl
@[simp] theorem updRing_groups (r : Nat) (f : Ring → Ring) : (updRing r f s).groups = s.groups := rfl
@[simp] theorem updRing_clusters (r : Nat) (f : Ring → Ring) : (updRing r f s).clusters = s.clusters := rfl
@[simp] theorem updRing_bus (r : Nat) (f : Ring → Ring) : (updRing r f s).bus = s.bus := rfl
@[simp] theorem updRing_engines (r : Nat) (f : Ring → Ring) : (updRing r f s).engines = s.engines := rfl
@[simp] theorem updRing_dly (r : Nat) (f : Ring → Ring) : (updRing r f s).dly = s.dly := rfl
@[simp] theorem updRing_clocks (r : Nat) (f : Ring → Ring) : (updRing r f s).clocks = s.clocks := rfl
@[simp] theorem updRing_audio (r : Nat) (f : Ring → Ring) : (updRing r f s).audio = s.audio := rfl
@[simp] theorem updRing_twin (r : Nat) (f : Ring → Ring) : (updRing r f s).twin = s.twin := rfl
@[simp] theorem updRing_host (r : Nat) (f : Ring → Ring) : (updRing r f s).host = s.host := rfl
@[simp] theorem updRing_rings (r : Nat) (f : Ring → Ring) : (updRing r f s).rings = updAt s.rings r f := rfl
@[simp] theorem updRing_ringMem (r : Nat) (f : Ring → Ring) : (updRing r f s).ringMem = s.ringMem := rfl
@[simp] theorem updRing_mbx (r : Nat) (f : Ring → Ring) : (updRing r f s).mbx = s.mbx := rfl
@[simp] theorem updRing_sched (r : Nat) (f : Ring → Ring) : (updRing r f s).sched = s.sched := rfl
@[simp] theorem updRing_fw (r : Nat) (f : Ring → Ring) : (updRing r f s).fw = s.fw := rfl
@[simp] theorem updRing_flash (r : Nat) (f : Ring → Ring) : (updRing r f s).flash = s.flash := rfl
@[simp] theorem updRing_fuses (r : Nat) (f : Ring → Ring) : (updRing r f s).fuses = s.fuses := rfl
@[simp] theorem updRing_timers (r : Nat) (f : Ring → Ring) : (updRing r f s).timers = s.timers := rfl
@[simp] theorem updRing_uarts (r : Nat) (f : Ring → Ring) : (updRing r f s).uarts = s.uarts := rfl
@[simp] theorem updRing_cv (r : Nat) (f : Ring → Ring) : (updRing r f s).cv = s.cv := rfl
@[simp] theorem updRing_flt (r : Nat) (f : Ring → Ring) : (updRing r f s).flt = s.flt := rfl
@[simp] theorem updRing_tap (r : Nat) (f : Ring → Ring) : (updRing r f s).tap = s.tap := rfl
@[simp] theorem updRing_pending (r : Nat) (f : Ring → Ring) : (updRing r f s).pending = s.pending := rfl

@[simp] theorem updMbx_part (c : Nat) (f : Mbx → Mbx) : (updMbx c f s).part = s.part := rfl
@[simp] theorem updMbx_now (c : Nat) (f : Mbx → Mbx) : (updMbx c f s).now = s.now := rfl
@[simp] theorem updMbx_use (c : Nat) (f : Mbx → Mbx) : (updMbx c f s).use = s.use := rfl
@[simp] theorem updMbx_mode (c : Nat) (f : Mbx → Mbx) : (updMbx c f s).mode = s.mode := rfl
@[simp] theorem updMbx_frame (c : Nat) (f : Mbx → Mbx) : (updMbx c f s).frame = s.frame := rfl
@[simp] theorem updMbx_carder (c : Nat) (f : Mbx → Mbx) : (updMbx c f s).carder = s.carder := rfl
@[simp] theorem updMbx_det (c : Nat) (f : Mbx → Mbx) : (updMbx c f s).det = s.det := rfl
@[simp] theorem updMbx_block (c : Nat) (f : Mbx → Mbx) : (updMbx c f s).block = s.block := rfl
@[simp] theorem updMbx_hood (c : Nat) (f : Mbx → Mbx) : (updMbx c f s).hood = s.hood := rfl
@[simp] theorem updMbx_dramMb (c : Nat) (f : Mbx → Mbx) : (updMbx c f s).dramMb = s.dramMb := rfl
@[simp] theorem updMbx_dram (c : Nat) (f : Mbx → Mbx) : (updMbx c f s).dram = s.dram := rfl
@[simp] theorem updMbx_regions (c : Nat) (f : Mbx → Mbx) : (updMbx c f s).regions = s.regions := rfl
@[simp] theorem updMbx_slots (c : Nat) (f : Mbx → Mbx) : (updMbx c f s).slots = s.slots := rfl
@[simp] theorem updMbx_groups (c : Nat) (f : Mbx → Mbx) : (updMbx c f s).groups = s.groups := rfl
@[simp] theorem updMbx_clusters (c : Nat) (f : Mbx → Mbx) : (updMbx c f s).clusters = s.clusters := rfl
@[simp] theorem updMbx_bus (c : Nat) (f : Mbx → Mbx) : (updMbx c f s).bus = s.bus := rfl
@[simp] theorem updMbx_engines (c : Nat) (f : Mbx → Mbx) : (updMbx c f s).engines = s.engines := rfl
@[simp] theorem updMbx_dly (c : Nat) (f : Mbx → Mbx) : (updMbx c f s).dly = s.dly := rfl
@[simp] theorem updMbx_clocks (c : Nat) (f : Mbx → Mbx) : (updMbx c f s).clocks = s.clocks := rfl
@[simp] theorem updMbx_audio (c : Nat) (f : Mbx → Mbx) : (updMbx c f s).audio = s.audio := rfl
@[simp] theorem updMbx_twin (c : Nat) (f : Mbx → Mbx) : (updMbx c f s).twin = s.twin := rfl
@[simp] theorem updMbx_host (c : Nat) (f : Mbx → Mbx) : (updMbx c f s).host = s.host := rfl
@[simp] theorem updMbx_rings (c : Nat) (f : Mbx → Mbx) : (updMbx c f s).rings = s.rings := rfl
@[simp] theorem updMbx_ringMem (c : Nat) (f : Mbx → Mbx) : (updMbx c f s).ringMem = s.ringMem := rfl
@[simp] theorem updMbx_mbx (c : Nat) (f : Mbx → Mbx) : (updMbx c f s).mbx = updAt s.mbx c f := rfl
@[simp] theorem updMbx_sched (c : Nat) (f : Mbx → Mbx) : (updMbx c f s).sched = s.sched := rfl
@[simp] theorem updMbx_fw (c : Nat) (f : Mbx → Mbx) : (updMbx c f s).fw = s.fw := rfl
@[simp] theorem updMbx_flash (c : Nat) (f : Mbx → Mbx) : (updMbx c f s).flash = s.flash := rfl
@[simp] theorem updMbx_fuses (c : Nat) (f : Mbx → Mbx) : (updMbx c f s).fuses = s.fuses := rfl
@[simp] theorem updMbx_timers (c : Nat) (f : Mbx → Mbx) : (updMbx c f s).timers = s.timers := rfl
@[simp] theorem updMbx_uarts (c : Nat) (f : Mbx → Mbx) : (updMbx c f s).uarts = s.uarts := rfl
@[simp] theorem updMbx_cv (c : Nat) (f : Mbx → Mbx) : (updMbx c f s).cv = s.cv := rfl
@[simp] theorem updMbx_flt (c : Nat) (f : Mbx → Mbx) : (updMbx c f s).flt = s.flt := rfl
@[simp] theorem updMbx_tap (c : Nat) (f : Mbx → Mbx) : (updMbx c f s).tap = s.tap := rfl
@[simp] theorem updMbx_pending (c : Nat) (f : Mbx → Mbx) : (updMbx c f s).pending = s.pending := rfl

@[simp] theorem updUart_part (u : Nat) (f : Uart → Uart) : (updUart u f s).part = s.part := rfl
@[simp] theorem updUart_now (u : Nat) (f : Uart → Uart) : (updUart u f s).now = s.now := rfl
@[simp] theorem updUart_use (u : Nat) (f : Uart → Uart) : (updUart u f s).use = s.use := rfl
@[simp] theorem updUart_mode (u : Nat) (f : Uart → Uart) : (updUart u f s).mode = s.mode := rfl
@[simp] theorem updUart_frame (u : Nat) (f : Uart → Uart) : (updUart u f s).frame = s.frame := rfl
@[simp] theorem updUart_carder (u : Nat) (f : Uart → Uart) : (updUart u f s).carder = s.carder := rfl
@[simp] theorem updUart_det (u : Nat) (f : Uart → Uart) : (updUart u f s).det = s.det := rfl
@[simp] theorem updUart_block (u : Nat) (f : Uart → Uart) : (updUart u f s).block = s.block := rfl
@[simp] theorem updUart_hood (u : Nat) (f : Uart → Uart) : (updUart u f s).hood = s.hood := rfl
@[simp] theorem updUart_dramMb (u : Nat) (f : Uart → Uart) : (updUart u f s).dramMb = s.dramMb := rfl
@[simp] theorem updUart_dram (u : Nat) (f : Uart → Uart) : (updUart u f s).dram = s.dram := rfl
@[simp] theorem updUart_regions (u : Nat) (f : Uart → Uart) : (updUart u f s).regions = s.regions := rfl
@[simp] theorem updUart_slots (u : Nat) (f : Uart → Uart) : (updUart u f s).slots = s.slots := rfl
@[simp] theorem updUart_groups (u : Nat) (f : Uart → Uart) : (updUart u f s).groups = s.groups := rfl
@[simp] theorem updUart_clusters (u : Nat) (f : Uart → Uart) : (updUart u f s).clusters = s.clusters := rfl
@[simp] theorem updUart_bus (u : Nat) (f : Uart → Uart) : (updUart u f s).bus = s.bus := rfl
@[simp] theorem updUart_engines (u : Nat) (f : Uart → Uart) : (updUart u f s).engines = s.engines := rfl
@[simp] theorem updUart_dly (u : Nat) (f : Uart → Uart) : (updUart u f s).dly = s.dly := rfl
@[simp] theorem updUart_clocks (u : Nat) (f : Uart → Uart) : (updUart u f s).clocks = s.clocks := rfl
@[simp] theorem updUart_audio (u : Nat) (f : Uart → Uart) : (updUart u f s).audio = s.audio := rfl
@[simp] theorem updUart_twin (u : Nat) (f : Uart → Uart) : (updUart u f s).twin = s.twin := rfl
@[simp] theorem updUart_host (u : Nat) (f : Uart → Uart) : (updUart u f s).host = s.host := rfl
@[simp] theorem updUart_rings (u : Nat) (f : Uart → Uart) : (updUart u f s).rings = s.rings := rfl
@[simp] theorem updUart_ringMem (u : Nat) (f : Uart → Uart) : (updUart u f s).ringMem = s.ringMem := rfl
@[simp] theorem updUart_mbx (u : Nat) (f : Uart → Uart) : (updUart u f s).mbx = s.mbx := rfl
@[simp] theorem updUart_sched (u : Nat) (f : Uart → Uart) : (updUart u f s).sched = s.sched := rfl
@[simp] theorem updUart_fw (u : Nat) (f : Uart → Uart) : (updUart u f s).fw = s.fw := rfl
@[simp] theorem updUart_flash (u : Nat) (f : Uart → Uart) : (updUart u f s).flash = s.flash := rfl
@[simp] theorem updUart_fuses (u : Nat) (f : Uart → Uart) : (updUart u f s).fuses = s.fuses := rfl
@[simp] theorem updUart_timers (u : Nat) (f : Uart → Uart) : (updUart u f s).timers = s.timers := rfl
@[simp] theorem updUart_uarts (u : Nat) (f : Uart → Uart) : (updUart u f s).uarts = updAt s.uarts u f := rfl
@[simp] theorem updUart_cv (u : Nat) (f : Uart → Uart) : (updUart u f s).cv = s.cv := rfl
@[simp] theorem updUart_flt (u : Nat) (f : Uart → Uart) : (updUart u f s).flt = s.flt := rfl
@[simp] theorem updUart_tap (u : Nat) (f : Uart → Uart) : (updUart u f s).tap = s.tap := rfl
@[simp] theorem updUart_pending (u : Nat) (f : Uart → Uart) : (updUart u f s).pending = s.pending := rfl

@[simp] theorem updTimer_part (n : Nat) (f : Timer → Timer) : (updTimer n f s).part = s.part := rfl
@[simp] theorem updTimer_now (n : Nat) (f : Timer → Timer) : (updTimer n f s).now = s.now := rfl
@[simp] theorem updTimer_use (n : Nat) (f : Timer → Timer) : (updTimer n f s).use = s.use := rfl
@[simp] theorem updTimer_mode (n : Nat) (f : Timer → Timer) : (updTimer n f s).mode = s.mode := rfl
@[simp] theorem updTimer_frame (n : Nat) (f : Timer → Timer) : (updTimer n f s).frame = s.frame := rfl
@[simp] theorem updTimer_carder (n : Nat) (f : Timer → Timer) : (updTimer n f s).carder = s.carder := rfl
@[simp] theorem updTimer_det (n : Nat) (f : Timer → Timer) : (updTimer n f s).det = s.det := rfl
@[simp] theorem updTimer_block (n : Nat) (f : Timer → Timer) : (updTimer n f s).block = s.block := rfl
@[simp] theorem updTimer_hood (n : Nat) (f : Timer → Timer) : (updTimer n f s).hood = s.hood := rfl
@[simp] theorem updTimer_dramMb (n : Nat) (f : Timer → Timer) : (updTimer n f s).dramMb = s.dramMb := rfl
@[simp] theorem updTimer_dram (n : Nat) (f : Timer → Timer) : (updTimer n f s).dram = s.dram := rfl
@[simp] theorem updTimer_regions (n : Nat) (f : Timer → Timer) : (updTimer n f s).regions = s.regions := rfl
@[simp] theorem updTimer_slots (n : Nat) (f : Timer → Timer) : (updTimer n f s).slots = s.slots := rfl
@[simp] theorem updTimer_groups (n : Nat) (f : Timer → Timer) : (updTimer n f s).groups = s.groups := rfl
@[simp] theorem updTimer_clusters (n : Nat) (f : Timer → Timer) : (updTimer n f s).clusters = s.clusters := rfl
@[simp] theorem updTimer_bus (n : Nat) (f : Timer → Timer) : (updTimer n f s).bus = s.bus := rfl
@[simp] theorem updTimer_engines (n : Nat) (f : Timer → Timer) : (updTimer n f s).engines = s.engines := rfl
@[simp] theorem updTimer_dly (n : Nat) (f : Timer → Timer) : (updTimer n f s).dly = s.dly := rfl
@[simp] theorem updTimer_clocks (n : Nat) (f : Timer → Timer) : (updTimer n f s).clocks = s.clocks := rfl
@[simp] theorem updTimer_audio (n : Nat) (f : Timer → Timer) : (updTimer n f s).audio = s.audio := rfl
@[simp] theorem updTimer_twin (n : Nat) (f : Timer → Timer) : (updTimer n f s).twin = s.twin := rfl
@[simp] theorem updTimer_host (n : Nat) (f : Timer → Timer) : (updTimer n f s).host = s.host := rfl
@[simp] theorem updTimer_rings (n : Nat) (f : Timer → Timer) : (updTimer n f s).rings = s.rings := rfl
@[simp] theorem updTimer_ringMem (n : Nat) (f : Timer → Timer) : (updTimer n f s).ringMem = s.ringMem := rfl
@[simp] theorem updTimer_mbx (n : Nat) (f : Timer → Timer) : (updTimer n f s).mbx = s.mbx := rfl
@[simp] theorem updTimer_sched (n : Nat) (f : Timer → Timer) : (updTimer n f s).sched = s.sched := rfl
@[simp] theorem updTimer_fw (n : Nat) (f : Timer → Timer) : (updTimer n f s).fw = s.fw := rfl
@[simp] theorem updTimer_flash (n : Nat) (f : Timer → Timer) : (updTimer n f s).flash = s.flash := rfl
@[simp] theorem updTimer_fuses (n : Nat) (f : Timer → Timer) : (updTimer n f s).fuses = s.fuses := rfl
@[simp] theorem updTimer_timers (n : Nat) (f : Timer → Timer) : (updTimer n f s).timers = updAt s.timers n f := rfl
@[simp] theorem updTimer_uarts (n : Nat) (f : Timer → Timer) : (updTimer n f s).uarts = s.uarts := rfl
@[simp] theorem updTimer_cv (n : Nat) (f : Timer → Timer) : (updTimer n f s).cv = s.cv := rfl
@[simp] theorem updTimer_flt (n : Nat) (f : Timer → Timer) : (updTimer n f s).flt = s.flt := rfl
@[simp] theorem updTimer_tap (n : Nat) (f : Timer → Timer) : (updTimer n f s).tap = s.tap := rfl
@[simp] theorem updTimer_pending (n : Nat) (f : Timer → Timer) : (updTimer n f s).pending = s.pending := rfl

@[simp] theorem updCv_part (c : Nat) (f : Cv → Cv) : (updCv c f s).part = s.part := rfl
@[simp] theorem updCv_now (c : Nat) (f : Cv → Cv) : (updCv c f s).now = s.now := rfl
@[simp] theorem updCv_use (c : Nat) (f : Cv → Cv) : (updCv c f s).use = s.use := rfl
@[simp] theorem updCv_mode (c : Nat) (f : Cv → Cv) : (updCv c f s).mode = s.mode := rfl
@[simp] theorem updCv_frame (c : Nat) (f : Cv → Cv) : (updCv c f s).frame = s.frame := rfl
@[simp] theorem updCv_carder (c : Nat) (f : Cv → Cv) : (updCv c f s).carder = s.carder := rfl
@[simp] theorem updCv_det (c : Nat) (f : Cv → Cv) : (updCv c f s).det = s.det := rfl
@[simp] theorem updCv_block (c : Nat) (f : Cv → Cv) : (updCv c f s).block = s.block := rfl
@[simp] theorem updCv_hood (c : Nat) (f : Cv → Cv) : (updCv c f s).hood = s.hood := rfl
@[simp] theorem updCv_dramMb (c : Nat) (f : Cv → Cv) : (updCv c f s).dramMb = s.dramMb := rfl
@[simp] theorem updCv_dram (c : Nat) (f : Cv → Cv) : (updCv c f s).dram = s.dram := rfl
@[simp] theorem updCv_regions (c : Nat) (f : Cv → Cv) : (updCv c f s).regions = s.regions := rfl
@[simp] theorem updCv_slots (c : Nat) (f : Cv → Cv) : (updCv c f s).slots = s.slots := rfl
@[simp] theorem updCv_groups (c : Nat) (f : Cv → Cv) : (updCv c f s).groups = s.groups := rfl
@[simp] theorem updCv_clusters (c : Nat) (f : Cv → Cv) : (updCv c f s).clusters = s.clusters := rfl
@[simp] theorem updCv_bus (c : Nat) (f : Cv → Cv) : (updCv c f s).bus = s.bus := rfl
@[simp] theorem updCv_engines (c : Nat) (f : Cv → Cv) : (updCv c f s).engines = s.engines := rfl
@[simp] theorem updCv_dly (c : Nat) (f : Cv → Cv) : (updCv c f s).dly = s.dly := rfl
@[simp] theorem updCv_clocks (c : Nat) (f : Cv → Cv) : (updCv c f s).clocks = s.clocks := rfl
@[simp] theorem updCv_audio (c : Nat) (f : Cv → Cv) : (updCv c f s).audio = s.audio := rfl
@[simp] theorem updCv_twin (c : Nat) (f : Cv → Cv) : (updCv c f s).twin = s.twin := rfl
@[simp] theorem updCv_host (c : Nat) (f : Cv → Cv) : (updCv c f s).host = s.host := rfl
@[simp] theorem updCv_rings (c : Nat) (f : Cv → Cv) : (updCv c f s).rings = s.rings := rfl
@[simp] theorem updCv_ringMem (c : Nat) (f : Cv → Cv) : (updCv c f s).ringMem = s.ringMem := rfl
@[simp] theorem updCv_mbx (c : Nat) (f : Cv → Cv) : (updCv c f s).mbx = s.mbx := rfl
@[simp] theorem updCv_sched (c : Nat) (f : Cv → Cv) : (updCv c f s).sched = s.sched := rfl
@[simp] theorem updCv_fw (c : Nat) (f : Cv → Cv) : (updCv c f s).fw = s.fw := rfl
@[simp] theorem updCv_flash (c : Nat) (f : Cv → Cv) : (updCv c f s).flash = s.flash := rfl
@[simp] theorem updCv_fuses (c : Nat) (f : Cv → Cv) : (updCv c f s).fuses = s.fuses := rfl
@[simp] theorem updCv_timers (c : Nat) (f : Cv → Cv) : (updCv c f s).timers = s.timers := rfl
@[simp] theorem updCv_uarts (c : Nat) (f : Cv → Cv) : (updCv c f s).uarts = s.uarts := rfl
@[simp] theorem updCv_cv (c : Nat) (f : Cv → Cv) : (updCv c f s).cv = { s.cv with chans := updAt s.cv.chans c f } := rfl
@[simp] theorem updCv_flt (c : Nat) (f : Cv → Cv) : (updCv c f s).flt = s.flt := rfl
@[simp] theorem updCv_tap (c : Nat) (f : Cv → Cv) : (updCv c f s).tap = s.tap := rfl
@[simp] theorem updCv_pending (c : Nat) (f : Cv → Cv) : (updCv c f s).pending = s.pending := rfl

@[simp] theorem updSap_part (p : Nat) (f : Sap → Sap) : (updSap p f s).part = s.part := rfl
@[simp] theorem updSap_now (p : Nat) (f : Sap → Sap) : (updSap p f s).now = s.now := rfl
@[simp] theorem updSap_use (p : Nat) (f : Sap → Sap) : (updSap p f s).use = s.use := rfl
@[simp] theorem updSap_mode (p : Nat) (f : Sap → Sap) : (updSap p f s).mode = s.mode := rfl
@[simp] theorem updSap_frame (p : Nat) (f : Sap → Sap) : (updSap p f s).frame = s.frame := rfl
@[simp] theorem updSap_carder (p : Nat) (f : Sap → Sap) : (updSap p f s).carder = s.carder := rfl
@[simp] theorem updSap_det (p : Nat) (f : Sap → Sap) : (updSap p f s).det = s.det := rfl
@[simp] theorem updSap_block (p : Nat) (f : Sap → Sap) : (updSap p f s).block = s.block := rfl
@[simp] theorem updSap_hood (p : Nat) (f : Sap → Sap) : (updSap p f s).hood = s.hood := rfl
@[simp] theorem updSap_dramMb (p : Nat) (f : Sap → Sap) : (updSap p f s).dramMb = s.dramMb := rfl
@[simp] theorem updSap_dram (p : Nat) (f : Sap → Sap) : (updSap p f s).dram = s.dram := rfl
@[simp] theorem updSap_regions (p : Nat) (f : Sap → Sap) : (updSap p f s).regions = s.regions := rfl
@[simp] theorem updSap_slots (p : Nat) (f : Sap → Sap) : (updSap p f s).slots = s.slots := rfl
@[simp] theorem updSap_groups (p : Nat) (f : Sap → Sap) : (updSap p f s).groups = s.groups := rfl
@[simp] theorem updSap_clusters (p : Nat) (f : Sap → Sap) : (updSap p f s).clusters = s.clusters := rfl
@[simp] theorem updSap_bus (p : Nat) (f : Sap → Sap) : (updSap p f s).bus = s.bus := rfl
@[simp] theorem updSap_engines (p : Nat) (f : Sap → Sap) : (updSap p f s).engines = s.engines := rfl
@[simp] theorem updSap_dly (p : Nat) (f : Sap → Sap) : (updSap p f s).dly = s.dly := rfl
@[simp] theorem updSap_clocks (p : Nat) (f : Sap → Sap) : (updSap p f s).clocks = s.clocks := rfl
@[simp] theorem updSap_audio (p : Nat) (f : Sap → Sap) : (updSap p f s).audio = { s.audio with saps := updAt s.audio.saps p f } := rfl
@[simp] theorem updSap_twin (p : Nat) (f : Sap → Sap) : (updSap p f s).twin = s.twin := rfl
@[simp] theorem updSap_host (p : Nat) (f : Sap → Sap) : (updSap p f s).host = s.host := rfl
@[simp] theorem updSap_rings (p : Nat) (f : Sap → Sap) : (updSap p f s).rings = s.rings := rfl
@[simp] theorem updSap_ringMem (p : Nat) (f : Sap → Sap) : (updSap p f s).ringMem = s.ringMem := rfl
@[simp] theorem updSap_mbx (p : Nat) (f : Sap → Sap) : (updSap p f s).mbx = s.mbx := rfl
@[simp] theorem updSap_sched (p : Nat) (f : Sap → Sap) : (updSap p f s).sched = s.sched := rfl
@[simp] theorem updSap_fw (p : Nat) (f : Sap → Sap) : (updSap p f s).fw = s.fw := rfl
@[simp] theorem updSap_flash (p : Nat) (f : Sap → Sap) : (updSap p f s).flash = s.flash := rfl
@[simp] theorem updSap_fuses (p : Nat) (f : Sap → Sap) : (updSap p f s).fuses = s.fuses := rfl
@[simp] theorem updSap_timers (p : Nat) (f : Sap → Sap) : (updSap p f s).timers = s.timers := rfl
@[simp] theorem updSap_uarts (p : Nat) (f : Sap → Sap) : (updSap p f s).uarts = s.uarts := rfl
@[simp] theorem updSap_cv (p : Nat) (f : Sap → Sap) : (updSap p f s).cv = s.cv := rfl
@[simp] theorem updSap_flt (p : Nat) (f : Sap → Sap) : (updSap p f s).flt = s.flt := rfl
@[simp] theorem updSap_tap (p : Nat) (f : Sap → Sap) : (updSap p f s).tap = s.tap := rfl
@[simp] theorem updSap_pending (p : Nat) (f : Sap → Sap) : (updSap p f s).pending = s.pending := rfl

@[simp] theorem updRx_part (r : Nat) (f : AesRx → AesRx) : (updRx r f s).part = s.part := rfl
@[simp] theorem updRx_now (r : Nat) (f : AesRx → AesRx) : (updRx r f s).now = s.now := rfl
@[simp] theorem updRx_use (r : Nat) (f : AesRx → AesRx) : (updRx r f s).use = s.use := rfl
@[simp] theorem updRx_mode (r : Nat) (f : AesRx → AesRx) : (updRx r f s).mode = s.mode := rfl
@[simp] theorem updRx_frame (r : Nat) (f : AesRx → AesRx) : (updRx r f s).frame = s.frame := rfl
@[simp] theorem updRx_carder (r : Nat) (f : AesRx → AesRx) : (updRx r f s).carder = s.carder := rfl
@[simp] theorem updRx_det (r : Nat) (f : AesRx → AesRx) : (updRx r f s).det = s.det := rfl
@[simp] theorem updRx_block (r : Nat) (f : AesRx → AesRx) : (updRx r f s).block = s.block := rfl
@[simp] theorem updRx_hood (r : Nat) (f : AesRx → AesRx) : (updRx r f s).hood = s.hood := rfl
@[simp] theorem updRx_dramMb (r : Nat) (f : AesRx → AesRx) : (updRx r f s).dramMb = s.dramMb := rfl
@[simp] theorem updRx_dram (r : Nat) (f : AesRx → AesRx) : (updRx r f s).dram = s.dram := rfl
@[simp] theorem updRx_regions (r : Nat) (f : AesRx → AesRx) : (updRx r f s).regions = s.regions := rfl
@[simp] theorem updRx_slots (r : Nat) (f : AesRx → AesRx) : (updRx r f s).slots = s.slots := rfl
@[simp] theorem updRx_groups (r : Nat) (f : AesRx → AesRx) : (updRx r f s).groups = s.groups := rfl
@[simp] theorem updRx_clusters (r : Nat) (f : AesRx → AesRx) : (updRx r f s).clusters = s.clusters := rfl
@[simp] theorem updRx_bus (r : Nat) (f : AesRx → AesRx) : (updRx r f s).bus = s.bus := rfl
@[simp] theorem updRx_engines (r : Nat) (f : AesRx → AesRx) : (updRx r f s).engines = s.engines := rfl
@[simp] theorem updRx_dly (r : Nat) (f : AesRx → AesRx) : (updRx r f s).dly = s.dly := rfl
@[simp] theorem updRx_clocks (r : Nat) (f : AesRx → AesRx) : (updRx r f s).clocks = s.clocks := rfl
@[simp] theorem updRx_audio (r : Nat) (f : AesRx → AesRx) : (updRx r f s).audio = { s.audio with rx := updAt s.audio.rx r f } := rfl
@[simp] theorem updRx_twin (r : Nat) (f : AesRx → AesRx) : (updRx r f s).twin = s.twin := rfl
@[simp] theorem updRx_host (r : Nat) (f : AesRx → AesRx) : (updRx r f s).host = s.host := rfl
@[simp] theorem updRx_rings (r : Nat) (f : AesRx → AesRx) : (updRx r f s).rings = s.rings := rfl
@[simp] theorem updRx_ringMem (r : Nat) (f : AesRx → AesRx) : (updRx r f s).ringMem = s.ringMem := rfl
@[simp] theorem updRx_mbx (r : Nat) (f : AesRx → AesRx) : (updRx r f s).mbx = s.mbx := rfl
@[simp] theorem updRx_sched (r : Nat) (f : AesRx → AesRx) : (updRx r f s).sched = s.sched := rfl
@[simp] theorem updRx_fw (r : Nat) (f : AesRx → AesRx) : (updRx r f s).fw = s.fw := rfl
@[simp] theorem updRx_flash (r : Nat) (f : AesRx → AesRx) : (updRx r f s).flash = s.flash := rfl
@[simp] theorem updRx_fuses (r : Nat) (f : AesRx → AesRx) : (updRx r f s).fuses = s.fuses := rfl
@[simp] theorem updRx_timers (r : Nat) (f : AesRx → AesRx) : (updRx r f s).timers = s.timers := rfl
@[simp] theorem updRx_uarts (r : Nat) (f : AesRx → AesRx) : (updRx r f s).uarts = s.uarts := rfl
@[simp] theorem updRx_cv (r : Nat) (f : AesRx → AesRx) : (updRx r f s).cv = s.cv := rfl
@[simp] theorem updRx_flt (r : Nat) (f : AesRx → AesRx) : (updRx r f s).flt = s.flt := rfl
@[simp] theorem updRx_tap (r : Nat) (f : AesRx → AesRx) : (updRx r f s).tap = s.tap := rfl
@[simp] theorem updRx_pending (r : Nat) (f : AesRx → AesRx) : (updRx r f s).pending = s.pending := rfl

@[simp] theorem updTx_part (x : Nat) (f : AesTx → AesTx) : (updTx x f s).part = s.part := rfl
@[simp] theorem updTx_now (x : Nat) (f : AesTx → AesTx) : (updTx x f s).now = s.now := rfl
@[simp] theorem updTx_use (x : Nat) (f : AesTx → AesTx) : (updTx x f s).use = s.use := rfl
@[simp] theorem updTx_mode (x : Nat) (f : AesTx → AesTx) : (updTx x f s).mode = s.mode := rfl
@[simp] theorem updTx_frame (x : Nat) (f : AesTx → AesTx) : (updTx x f s).frame = s.frame := rfl
@[simp] theorem updTx_carder (x : Nat) (f : AesTx → AesTx) : (updTx x f s).carder = s.carder := rfl
@[simp] theorem updTx_det (x : Nat) (f : AesTx → AesTx) : (updTx x f s).det = s.det := rfl
@[simp] theorem updTx_block (x : Nat) (f : AesTx → AesTx) : (updTx x f s).block = s.block := rfl
@[simp] theorem updTx_hood (x : Nat) (f : AesTx → AesTx) : (updTx x f s).hood = s.hood := rfl
@[simp] theorem updTx_dramMb (x : Nat) (f : AesTx → AesTx) : (updTx x f s).dramMb = s.dramMb := rfl
@[simp] theorem updTx_dram (x : Nat) (f : AesTx → AesTx) : (updTx x f s).dram = s.dram := rfl
@[simp] theorem updTx_regions (x : Nat) (f : AesTx → AesTx) : (updTx x f s).regions = s.regions := rfl
@[simp] theorem updTx_slots (x : Nat) (f : AesTx → AesTx) : (updTx x f s).slots = s.slots := rfl
@[simp] theorem updTx_groups (x : Nat) (f : AesTx → AesTx) : (updTx x f s).groups = s.groups := rfl
@[simp] theorem updTx_clusters (x : Nat) (f : AesTx → AesTx) : (updTx x f s).clusters = s.clusters := rfl
@[simp] theorem updTx_bus (x : Nat) (f : AesTx → AesTx) : (updTx x f s).bus = s.bus := rfl
@[simp] theorem updTx_engines (x : Nat) (f : AesTx → AesTx) : (updTx x f s).engines = s.engines := rfl
@[simp] theorem updTx_dly (x : Nat) (f : AesTx → AesTx) : (updTx x f s).dly = s.dly := rfl
@[simp] theorem updTx_clocks (x : Nat) (f : AesTx → AesTx) : (updTx x f s).clocks = s.clocks := rfl
@[simp] theorem updTx_audio (x : Nat) (f : AesTx → AesTx) : (updTx x f s).audio = { s.audio with tx := updAt s.audio.tx x f } := rfl
@[simp] theorem updTx_twin (x : Nat) (f : AesTx → AesTx) : (updTx x f s).twin = s.twin := rfl
@[simp] theorem updTx_host (x : Nat) (f : AesTx → AesTx) : (updTx x f s).host = s.host := rfl
@[simp] theorem updTx_rings (x : Nat) (f : AesTx → AesTx) : (updTx x f s).rings = s.rings := rfl
@[simp] theorem updTx_ringMem (x : Nat) (f : AesTx → AesTx) : (updTx x f s).ringMem = s.ringMem := rfl
@[simp] theorem updTx_mbx (x : Nat) (f : AesTx → AesTx) : (updTx x f s).mbx = s.mbx := rfl
@[simp] theorem updTx_sched (x : Nat) (f : AesTx → AesTx) : (updTx x f s).sched = s.sched := rfl
@[simp] theorem updTx_fw (x : Nat) (f : AesTx → AesTx) : (updTx x f s).fw = s.fw := rfl
@[simp] theorem updTx_flash (x : Nat) (f : AesTx → AesTx) : (updTx x f s).flash = s.flash := rfl
@[simp] theorem updTx_fuses (x : Nat) (f : AesTx → AesTx) : (updTx x f s).fuses = s.fuses := rfl
@[simp] theorem updTx_timers (x : Nat) (f : AesTx → AesTx) : (updTx x f s).timers = s.timers := rfl
@[simp] theorem updTx_uarts (x : Nat) (f : AesTx → AesTx) : (updTx x f s).uarts = s.uarts := rfl
@[simp] theorem updTx_cv (x : Nat) (f : AesTx → AesTx) : (updTx x f s).cv = s.cv := rfl
@[simp] theorem updTx_flt (x : Nat) (f : AesTx → AesTx) : (updTx x f s).flt = s.flt := rfl
@[simp] theorem updTx_tap (x : Nat) (f : AesTx → AesTx) : (updTx x f s).tap = s.tap := rfl
@[simp] theorem updTx_pending (x : Nat) (f : AesTx → AesTx) : (updTx x f s).pending = s.pending := rfl

@[simp] theorem updPdm_part (k : Nat) (f : Pdm → Pdm) : (updPdm k f s).part = s.part := rfl
@[simp] theorem updPdm_now (k : Nat) (f : Pdm → Pdm) : (updPdm k f s).now = s.now := rfl
@[simp] theorem updPdm_use (k : Nat) (f : Pdm → Pdm) : (updPdm k f s).use = s.use := rfl
@[simp] theorem updPdm_mode (k : Nat) (f : Pdm → Pdm) : (updPdm k f s).mode = s.mode := rfl
@[simp] theorem updPdm_frame (k : Nat) (f : Pdm → Pdm) : (updPdm k f s).frame = s.frame := rfl
@[simp] theorem updPdm_carder (k : Nat) (f : Pdm → Pdm) : (updPdm k f s).carder = s.carder := rfl
@[simp] theorem updPdm_det (k : Nat) (f : Pdm → Pdm) : (updPdm k f s).det = s.det := rfl
@[simp] theorem updPdm_block (k : Nat) (f : Pdm → Pdm) : (updPdm k f s).block = s.block := rfl
@[simp] theorem updPdm_hood (k : Nat) (f : Pdm → Pdm) : (updPdm k f s).hood = s.hood := rfl
@[simp] theorem updPdm_dramMb (k : Nat) (f : Pdm → Pdm) : (updPdm k f s).dramMb = s.dramMb := rfl
@[simp] theorem updPdm_dram (k : Nat) (f : Pdm → Pdm) : (updPdm k f s).dram = s.dram := rfl
@[simp] theorem updPdm_regions (k : Nat) (f : Pdm → Pdm) : (updPdm k f s).regions = s.regions := rfl
@[simp] theorem updPdm_slots (k : Nat) (f : Pdm → Pdm) : (updPdm k f s).slots = s.slots := rfl
@[simp] theorem updPdm_groups (k : Nat) (f : Pdm → Pdm) : (updPdm k f s).groups = s.groups := rfl
@[simp] theorem updPdm_clusters (k : Nat) (f : Pdm → Pdm) : (updPdm k f s).clusters = s.clusters := rfl
@[simp] theorem updPdm_bus (k : Nat) (f : Pdm → Pdm) : (updPdm k f s).bus = s.bus := rfl
@[simp] theorem updPdm_engines (k : Nat) (f : Pdm → Pdm) : (updPdm k f s).engines = s.engines := rfl
@[simp] theorem updPdm_dly (k : Nat) (f : Pdm → Pdm) : (updPdm k f s).dly = s.dly := rfl
@[simp] theorem updPdm_clocks (k : Nat) (f : Pdm → Pdm) : (updPdm k f s).clocks = s.clocks := rfl
@[simp] theorem updPdm_audio (k : Nat) (f : Pdm → Pdm) : (updPdm k f s).audio = { s.audio with pdm := updAt s.audio.pdm k f } := rfl
@[simp] theorem updPdm_twin (k : Nat) (f : Pdm → Pdm) : (updPdm k f s).twin = s.twin := rfl
@[simp] theorem updPdm_host (k : Nat) (f : Pdm → Pdm) : (updPdm k f s).host = s.host := rfl
@[simp] theorem updPdm_rings (k : Nat) (f : Pdm → Pdm) : (updPdm k f s).rings = s.rings := rfl
@[simp] theorem updPdm_ringMem (k : Nat) (f : Pdm → Pdm) : (updPdm k f s).ringMem = s.ringMem := rfl
@[simp] theorem updPdm_mbx (k : Nat) (f : Pdm → Pdm) : (updPdm k f s).mbx = s.mbx := rfl
@[simp] theorem updPdm_sched (k : Nat) (f : Pdm → Pdm) : (updPdm k f s).sched = s.sched := rfl
@[simp] theorem updPdm_fw (k : Nat) (f : Pdm → Pdm) : (updPdm k f s).fw = s.fw := rfl
@[simp] theorem updPdm_flash (k : Nat) (f : Pdm → Pdm) : (updPdm k f s).flash = s.flash := rfl
@[simp] theorem updPdm_fuses (k : Nat) (f : Pdm → Pdm) : (updPdm k f s).fuses = s.fuses := rfl
@[simp] theorem updPdm_timers (k : Nat) (f : Pdm → Pdm) : (updPdm k f s).timers = s.timers := rfl
@[simp] theorem updPdm_uarts (k : Nat) (f : Pdm → Pdm) : (updPdm k f s).uarts = s.uarts := rfl
@[simp] theorem updPdm_cv (k : Nat) (f : Pdm → Pdm) : (updPdm k f s).cv = s.cv := rfl
@[simp] theorem updPdm_flt (k : Nat) (f : Pdm → Pdm) : (updPdm k f s).flt = s.flt := rfl
@[simp] theorem updPdm_tap (k : Nat) (f : Pdm → Pdm) : (updPdm k f s).tap = s.tap := rfl
@[simp] theorem updPdm_pending (k : Nat) (f : Pdm → Pdm) : (updPdm k f s).pending = s.pending := rfl

@[simp] theorem updDom_part (d : Nat) (f : Domain → Domain) : (updDom d f s).part = s.part := rfl
@[simp] theorem updDom_now (d : Nat) (f : Domain → Domain) : (updDom d f s).now = s.now := rfl
@[simp] theorem updDom_use (d : Nat) (f : Domain → Domain) : (updDom d f s).use = s.use := rfl
@[simp] theorem updDom_mode (d : Nat) (f : Domain → Domain) : (updDom d f s).mode = s.mode := rfl
@[simp] theorem updDom_frame (d : Nat) (f : Domain → Domain) : (updDom d f s).frame = s.frame := rfl
@[simp] theorem updDom_carder (d : Nat) (f : Domain → Domain) : (updDom d f s).carder = s.carder := rfl
@[simp] theorem updDom_det (d : Nat) (f : Domain → Domain) : (updDom d f s).det = s.det := rfl
@[simp] theorem updDom_block (d : Nat) (f : Domain → Domain) : (updDom d f s).block = s.block := rfl
@[simp] theorem updDom_hood (d : Nat) (f : Domain → Domain) : (updDom d f s).hood = s.hood := rfl
@[simp] theorem updDom_dramMb (d : Nat) (f : Domain → Domain) : (updDom d f s).dramMb = s.dramMb := rfl
@[simp] theorem updDom_dram (d : Nat) (f : Domain → Domain) : (updDom d f s).dram = s.dram := rfl
@[simp] theorem updDom_regions (d : Nat) (f : Domain → Domain) : (updDom d f s).regions = s.regions := rfl
@[simp] theorem updDom_slots (d : Nat) (f : Domain → Domain) : (updDom d f s).slots = s.slots := rfl
@[simp] theorem updDom_groups (d : Nat) (f : Domain → Domain) : (updDom d f s).groups = s.groups := rfl
@[simp] theorem updDom_clusters (d : Nat) (f : Domain → Domain) : (updDom d f s).clusters = s.clusters := rfl
@[simp] theorem updDom_bus (d : Nat) (f : Domain → Domain) : (updDom d f s).bus = s.bus := rfl
@[simp] theorem updDom_engines (d : Nat) (f : Domain → Domain) : (updDom d f s).engines = s.engines := rfl
@[simp] theorem updDom_dly (d : Nat) (f : Domain → Domain) : (updDom d f s).dly = s.dly := rfl
@[simp] theorem updDom_clocks (d : Nat) (f : Domain → Domain) : (updDom d f s).clocks = { s.clocks with dom := updAt s.clocks.dom d f } := rfl
@[simp] theorem updDom_audio (d : Nat) (f : Domain → Domain) : (updDom d f s).audio = s.audio := rfl
@[simp] theorem updDom_twin (d : Nat) (f : Domain → Domain) : (updDom d f s).twin = s.twin := rfl
@[simp] theorem updDom_host (d : Nat) (f : Domain → Domain) : (updDom d f s).host = s.host := rfl
@[simp] theorem updDom_rings (d : Nat) (f : Domain → Domain) : (updDom d f s).rings = s.rings := rfl
@[simp] theorem updDom_ringMem (d : Nat) (f : Domain → Domain) : (updDom d f s).ringMem = s.ringMem := rfl
@[simp] theorem updDom_mbx (d : Nat) (f : Domain → Domain) : (updDom d f s).mbx = s.mbx := rfl
@[simp] theorem updDom_sched (d : Nat) (f : Domain → Domain) : (updDom d f s).sched = s.sched := rfl
@[simp] theorem updDom_fw (d : Nat) (f : Domain → Domain) : (updDom d f s).fw = s.fw := rfl
@[simp] theorem updDom_flash (d : Nat) (f : Domain → Domain) : (updDom d f s).flash = s.flash := rfl
@[simp] theorem updDom_fuses (d : Nat) (f : Domain → Domain) : (updDom d f s).fuses = s.fuses := rfl
@[simp] theorem updDom_timers (d : Nat) (f : Domain → Domain) : (updDom d f s).timers = s.timers := rfl
@[simp] theorem updDom_uarts (d : Nat) (f : Domain → Domain) : (updDom d f s).uarts = s.uarts := rfl
@[simp] theorem updDom_cv (d : Nat) (f : Domain → Domain) : (updDom d f s).cv = s.cv := rfl
@[simp] theorem updDom_flt (d : Nat) (f : Domain → Domain) : (updDom d f s).flt = s.flt := rfl
@[simp] theorem updDom_tap (d : Nat) (f : Domain → Domain) : (updDom d f s).tap = s.tap := rfl
@[simp] theorem updDom_pending (d : Nat) (f : Domain → Domain) : (updDom d f s).pending = s.pending := rfl

@[simp] theorem setDesc_part (t : Nat) (x : Desc) : (setDesc t x s).part = s.part := rfl
@[simp] theorem setDesc_now (t : Nat) (x : Desc) : (setDesc t x s).now = s.now := rfl
@[simp] theorem setDesc_use (t : Nat) (x : Desc) : (setDesc t x s).use = s.use := rfl
@[simp] theorem setDesc_mode (t : Nat) (x : Desc) : (setDesc t x s).mode = s.mode := rfl
@[simp] theorem setDesc_frame (t : Nat) (x : Desc) : (setDesc t x s).frame = s.frame := rfl
@[simp] theorem setDesc_carder (t : Nat) (x : Desc) : (setDesc t x s).carder = s.carder := rfl
@[simp] theorem setDesc_det (t : Nat) (x : Desc) : (setDesc t x s).det = s.det := rfl
@[simp] theorem setDesc_block (t : Nat) (x : Desc) : (setDesc t x s).block = s.block := rfl
@[simp] theorem setDesc_hood (t : Nat) (x : Desc) : (setDesc t x s).hood = s.hood := rfl
@[simp] theorem setDesc_dramMb (t : Nat) (x : Desc) : (setDesc t x s).dramMb = s.dramMb := rfl
@[simp] theorem setDesc_dram (t : Nat) (x : Desc) : (setDesc t x s).dram = s.dram := rfl
@[simp] theorem setDesc_regions (t : Nat) (x : Desc) : (setDesc t x s).regions = s.regions := rfl
@[simp] theorem setDesc_slots (t : Nat) (x : Desc) : (setDesc t x s).slots = s.slots := rfl
@[simp] theorem setDesc_groups (t : Nat) (x : Desc) : (setDesc t x s).groups = s.groups := rfl
@[simp] theorem setDesc_clusters (t : Nat) (x : Desc) : (setDesc t x s).clusters = s.clusters := rfl
@[simp] theorem setDesc_bus (t : Nat) (x : Desc) : (setDesc t x s).bus = s.bus := rfl
@[simp] theorem setDesc_engines (t : Nat) (x : Desc) : (setDesc t x s).engines = s.engines := rfl
@[simp] theorem setDesc_dly (t : Nat) (x : Desc) : (setDesc t x s).dly = s.dly := rfl
@[simp] theorem setDesc_clocks (t : Nat) (x : Desc) : (setDesc t x s).clocks = s.clocks := rfl
@[simp] theorem setDesc_audio (t : Nat) (x : Desc) : (setDesc t x s).audio = s.audio := rfl
@[simp] theorem setDesc_twin (t : Nat) (x : Desc) : (setDesc t x s).twin = s.twin := rfl
@[simp] theorem setDesc_host (t : Nat) (x : Desc) : (setDesc t x s).host = s.host := rfl
@[simp] theorem setDesc_rings (t : Nat) (x : Desc) : (setDesc t x s).rings = s.rings := rfl
@[simp] theorem setDesc_ringMem (t : Nat) (x : Desc) : (setDesc t x s).ringMem = s.ringMem := rfl
@[simp] theorem setDesc_mbx (t : Nat) (x : Desc) : (setDesc t x s).mbx = s.mbx := rfl
@[simp] theorem setDesc_sched (t : Nat) (x : Desc) : (setDesc t x s).sched = { s.sched with descs := Store.set Desc.free s.sched.descs t x } := rfl
@[simp] theorem setDesc_fw (t : Nat) (x : Desc) : (setDesc t x s).fw = s.fw := rfl
@[simp] theorem setDesc_flash (t : Nat) (x : Desc) : (setDesc t x s).flash = s.flash := rfl
@[simp] theorem setDesc_fuses (t : Nat) (x : Desc) : (setDesc t x s).fuses = s.fuses := rfl
@[simp] theorem setDesc_timers (t : Nat) (x : Desc) : (setDesc t x s).timers = s.timers := rfl
@[simp] theorem setDesc_uarts (t : Nat) (x : Desc) : (setDesc t x s).uarts = s.uarts := rfl
@[simp] theorem setDesc_cv (t : Nat) (x : Desc) : (setDesc t x s).cv = s.cv := rfl
@[simp] theorem setDesc_flt (t : Nat) (x : Desc) : (setDesc t x s).flt = s.flt := rfl
@[simp] theorem setDesc_tap (t : Nat) (x : Desc) : (setDesc t x s).tap = s.tap := rfl
@[simp] theorem setDesc_pending (t : Nat) (x : Desc) : (setDesc t x s).pending = s.pending := rfl

@[simp] theorem updCore_part (k : Nat) (f : SchCore → SchCore) : (updCore k f s).part = s.part := rfl
@[simp] theorem updCore_now (k : Nat) (f : SchCore → SchCore) : (updCore k f s).now = s.now := rfl
@[simp] theorem updCore_use (k : Nat) (f : SchCore → SchCore) : (updCore k f s).use = s.use := rfl
@[simp] theorem updCore_mode (k : Nat) (f : SchCore → SchCore) : (updCore k f s).mode = s.mode := rfl
@[simp] theorem updCore_frame (k : Nat) (f : SchCore → SchCore) : (updCore k f s).frame = s.frame := rfl
@[simp] theorem updCore_carder (k : Nat) (f : SchCore → SchCore) : (updCore k f s).carder = s.carder := rfl
@[simp] theorem updCore_det (k : Nat) (f : SchCore → SchCore) : (updCore k f s).det = s.det := rfl
@[simp] theorem updCore_block (k : Nat) (f : SchCore → SchCore) : (updCore k f s).block = s.block := rfl
@[simp] theorem updCore_hood (k : Nat) (f : SchCore → SchCore) : (updCore k f s).hood = s.hood := rfl
@[simp] theorem updCore_dramMb (k : Nat) (f : SchCore → SchCore) : (updCore k f s).dramMb = s.dramMb := rfl
@[simp] theorem updCore_dram (k : Nat) (f : SchCore → SchCore) : (updCore k f s).dram = s.dram := rfl
@[simp] theorem updCore_regions (k : Nat) (f : SchCore → SchCore) : (updCore k f s).regions = s.regions := rfl
@[simp] theorem updCore_slots (k : Nat) (f : SchCore → SchCore) : (updCore k f s).slots = s.slots := rfl
@[simp] theorem updCore_groups (k : Nat) (f : SchCore → SchCore) : (updCore k f s).groups = s.groups := rfl
@[simp] theorem updCore_clusters (k : Nat) (f : SchCore → SchCore) : (updCore k f s).clusters = s.clusters := rfl
@[simp] theorem updCore_bus (k : Nat) (f : SchCore → SchCore) : (updCore k f s).bus = s.bus := rfl
@[simp] theorem updCore_engines (k : Nat) (f : SchCore → SchCore) : (updCore k f s).engines = s.engines := rfl
@[simp] theorem updCore_dly (k : Nat) (f : SchCore → SchCore) : (updCore k f s).dly = s.dly := rfl
@[simp] theorem updCore_clocks (k : Nat) (f : SchCore → SchCore) : (updCore k f s).clocks = s.clocks := rfl
@[simp] theorem updCore_audio (k : Nat) (f : SchCore → SchCore) : (updCore k f s).audio = s.audio := rfl
@[simp] theorem updCore_twin (k : Nat) (f : SchCore → SchCore) : (updCore k f s).twin = s.twin := rfl
@[simp] theorem updCore_host (k : Nat) (f : SchCore → SchCore) : (updCore k f s).host = s.host := rfl
@[simp] theorem updCore_rings (k : Nat) (f : SchCore → SchCore) : (updCore k f s).rings = s.rings := rfl
@[simp] theorem updCore_ringMem (k : Nat) (f : SchCore → SchCore) : (updCore k f s).ringMem = s.ringMem := rfl
@[simp] theorem updCore_mbx (k : Nat) (f : SchCore → SchCore) : (updCore k f s).mbx = s.mbx := rfl
@[simp] theorem updCore_sched (k : Nat) (f : SchCore → SchCore) : (updCore k f s).sched = { s.sched with cores := updAt s.sched.cores k f } := rfl
@[simp] theorem updCore_fw (k : Nat) (f : SchCore → SchCore) : (updCore k f s).fw = s.fw := rfl
@[simp] theorem updCore_flash (k : Nat) (f : SchCore → SchCore) : (updCore k f s).flash = s.flash := rfl
@[simp] theorem updCore_fuses (k : Nat) (f : SchCore → SchCore) : (updCore k f s).fuses = s.fuses := rfl
@[simp] theorem updCore_timers (k : Nat) (f : SchCore → SchCore) : (updCore k f s).timers = s.timers := rfl
@[simp] theorem updCore_uarts (k : Nat) (f : SchCore → SchCore) : (updCore k f s).uarts = s.uarts := rfl
@[simp] theorem updCore_cv (k : Nat) (f : SchCore → SchCore) : (updCore k f s).cv = s.cv := rfl
@[simp] theorem updCore_flt (k : Nat) (f : SchCore → SchCore) : (updCore k f s).flt = s.flt := rfl
@[simp] theorem updCore_tap (k : Nat) (f : SchCore → SchCore) : (updCore k f s).tap = s.tap := rfl
@[simp] theorem updCore_pending (k : Nat) (f : SchCore → SchCore) : (updCore k f s).pending = s.pending := rfl

@[simp] theorem updWin_part (w : Nat) (f : Window → Window) : (updWin w f s).part = s.part := rfl
@[simp] theorem updWin_now (w : Nat) (f : Window → Window) : (updWin w f s).now = s.now := rfl
@[simp] theorem updWin_use (w : Nat) (f : Window → Window) : (updWin w f s).use = s.use := rfl
@[simp] theorem updWin_mode (w : Nat) (f : Window → Window) : (updWin w f s).mode = s.mode := rfl
@[simp] theorem updWin_frame (w : Nat) (f : Window → Window) : (updWin w f s).frame = s.frame := rfl
@[simp] theorem updWin_carder (w : Nat) (f : Window → Window) : (updWin w f s).carder = s.carder := rfl
@[simp] theorem updWin_det (w : Nat) (f : Window → Window) : (updWin w f s).det = s.det := rfl
@[simp] theorem updWin_block (w : Nat) (f : Window → Window) : (updWin w f s).block = s.block := rfl
@[simp] theorem updWin_hood (w : Nat) (f : Window → Window) : (updWin w f s).hood = s.hood := rfl
@[simp] theorem updWin_dramMb (w : Nat) (f : Window → Window) : (updWin w f s).dramMb = s.dramMb := rfl
@[simp] theorem updWin_dram (w : Nat) (f : Window → Window) : (updWin w f s).dram = s.dram := rfl
@[simp] theorem updWin_regions (w : Nat) (f : Window → Window) : (updWin w f s).regions = s.regions := rfl
@[simp] theorem updWin_slots (w : Nat) (f : Window → Window) : (updWin w f s).slots = s.slots := rfl
@[simp] theorem updWin_groups (w : Nat) (f : Window → Window) : (updWin w f s).groups = s.groups := rfl
@[simp] theorem updWin_clusters (w : Nat) (f : Window → Window) : (updWin w f s).clusters = s.clusters := rfl
@[simp] theorem updWin_bus (w : Nat) (f : Window → Window) : (updWin w f s).bus = s.bus := rfl
@[simp] theorem updWin_engines (w : Nat) (f : Window → Window) : (updWin w f s).engines = s.engines := rfl
@[simp] theorem updWin_dly (w : Nat) (f : Window → Window) : (updWin w f s).dly = s.dly := rfl
@[simp] theorem updWin_clocks (w : Nat) (f : Window → Window) : (updWin w f s).clocks = s.clocks := rfl
@[simp] theorem updWin_audio (w : Nat) (f : Window → Window) : (updWin w f s).audio = s.audio := rfl
@[simp] theorem updWin_twin (w : Nat) (f : Window → Window) : (updWin w f s).twin = s.twin := rfl
@[simp] theorem updWin_host (w : Nat) (f : Window → Window) : (updWin w f s).host = { s.host with wins := updAt s.host.wins w f } := rfl
@[simp] theorem updWin_rings (w : Nat) (f : Window → Window) : (updWin w f s).rings = s.rings := rfl
@[simp] theorem updWin_ringMem (w : Nat) (f : Window → Window) : (updWin w f s).ringMem = s.ringMem := rfl
@[simp] theorem updWin_mbx (w : Nat) (f : Window → Window) : (updWin w f s).mbx = s.mbx := rfl
@[simp] theorem updWin_sched (w : Nat) (f : Window → Window) : (updWin w f s).sched = s.sched := rfl
@[simp] theorem updWin_fw (w : Nat) (f : Window → Window) : (updWin w f s).fw = s.fw := rfl
@[simp] theorem updWin_flash (w : Nat) (f : Window → Window) : (updWin w f s).flash = s.flash := rfl
@[simp] theorem updWin_fuses (w : Nat) (f : Window → Window) : (updWin w f s).fuses = s.fuses := rfl
@[simp] theorem updWin_timers (w : Nat) (f : Window → Window) : (updWin w f s).timers = s.timers := rfl
@[simp] theorem updWin_uarts (w : Nat) (f : Window → Window) : (updWin w f s).uarts = s.uarts := rfl
@[simp] theorem updWin_cv (w : Nat) (f : Window → Window) : (updWin w f s).cv = s.cv := rfl
@[simp] theorem updWin_flt (w : Nat) (f : Window → Window) : (updWin w f s).flt = s.flt := rfl
@[simp] theorem updWin_tap (w : Nat) (f : Window → Window) : (updWin w f s).tap = s.tap := rfl
@[simp] theorem updWin_pending (w : Nat) (f : Window → Window) : (updWin w f s).pending = s.pending := rfl

@[simp] theorem updTwin_part (f : Twin → Twin) : (updTwin f s).part = s.part := rfl
@[simp] theorem updTwin_now (f : Twin → Twin) : (updTwin f s).now = s.now := rfl
@[simp] theorem updTwin_use (f : Twin → Twin) : (updTwin f s).use = s.use := rfl
@[simp] theorem updTwin_mode (f : Twin → Twin) : (updTwin f s).mode = s.mode := rfl
@[simp] theorem updTwin_frame (f : Twin → Twin) : (updTwin f s).frame = s.frame := rfl
@[simp] theorem updTwin_carder (f : Twin → Twin) : (updTwin f s).carder = s.carder := rfl
@[simp] theorem updTwin_det (f : Twin → Twin) : (updTwin f s).det = s.det := rfl
@[simp] theorem updTwin_block (f : Twin → Twin) : (updTwin f s).block = s.block := rfl
@[simp] theorem updTwin_hood (f : Twin → Twin) : (updTwin f s).hood = s.hood := rfl
@[simp] theorem updTwin_dramMb (f : Twin → Twin) : (updTwin f s).dramMb = s.dramMb := rfl
@[simp] theorem updTwin_dram (f : Twin → Twin) : (updTwin f s).dram = s.dram := rfl
@[simp] theorem updTwin_regions (f : Twin → Twin) : (updTwin f s).regions = s.regions := rfl
@[simp] theorem updTwin_slots (f : Twin → Twin) : (updTwin f s).slots = s.slots := rfl
@[simp] theorem updTwin_groups (f : Twin → Twin) : (updTwin f s).groups = s.groups := rfl
@[simp] theorem updTwin_clusters (f : Twin → Twin) : (updTwin f s).clusters = s.clusters := rfl
@[simp] theorem updTwin_bus (f : Twin → Twin) : (updTwin f s).bus = s.bus := rfl
@[simp] theorem updTwin_engines (f : Twin → Twin) : (updTwin f s).engines = s.engines := rfl
@[simp] theorem updTwin_dly (f : Twin → Twin) : (updTwin f s).dly = s.dly := rfl
@[simp] theorem updTwin_clocks (f : Twin → Twin) : (updTwin f s).clocks = s.clocks := rfl
@[simp] theorem updTwin_audio (f : Twin → Twin) : (updTwin f s).audio = s.audio := rfl
@[simp] theorem updTwin_twin (f : Twin → Twin) : (updTwin f s).twin = f s.twin := rfl
@[simp] theorem updTwin_host (f : Twin → Twin) : (updTwin f s).host = s.host := rfl
@[simp] theorem updTwin_rings (f : Twin → Twin) : (updTwin f s).rings = s.rings := rfl
@[simp] theorem updTwin_ringMem (f : Twin → Twin) : (updTwin f s).ringMem = s.ringMem := rfl
@[simp] theorem updTwin_mbx (f : Twin → Twin) : (updTwin f s).mbx = s.mbx := rfl
@[simp] theorem updTwin_sched (f : Twin → Twin) : (updTwin f s).sched = s.sched := rfl
@[simp] theorem updTwin_fw (f : Twin → Twin) : (updTwin f s).fw = s.fw := rfl
@[simp] theorem updTwin_flash (f : Twin → Twin) : (updTwin f s).flash = s.flash := rfl
@[simp] theorem updTwin_fuses (f : Twin → Twin) : (updTwin f s).fuses = s.fuses := rfl
@[simp] theorem updTwin_timers (f : Twin → Twin) : (updTwin f s).timers = s.timers := rfl
@[simp] theorem updTwin_uarts (f : Twin → Twin) : (updTwin f s).uarts = s.uarts := rfl
@[simp] theorem updTwin_cv (f : Twin → Twin) : (updTwin f s).cv = s.cv := rfl
@[simp] theorem updTwin_flt (f : Twin → Twin) : (updTwin f s).flt = s.flt := rfl
@[simp] theorem updTwin_tap (f : Twin → Twin) : (updTwin f s).tap = s.tap := rfl
@[simp] theorem updTwin_pending (f : Twin → Twin) : (updTwin f s).pending = s.pending := rfl

@[simp] theorem updFw_part (f : Firmware → Firmware) : (updFw f s).part = s.part := rfl
@[simp] theorem updFw_now (f : Firmware → Firmware) : (updFw f s).now = s.now := rfl
@[simp] theorem updFw_use (f : Firmware → Firmware) : (updFw f s).use = s.use := rfl
@[simp] theorem updFw_mode (f : Firmware → Firmware) : (updFw f s).mode = s.mode := rfl
@[simp] theorem updFw_frame (f : Firmware → Firmware) : (updFw f s).frame = s.frame := rfl
@[simp] theorem updFw_carder (f : Firmware → Firmware) : (updFw f s).carder = s.carder := rfl
@[simp] theorem updFw_det (f : Firmware → Firmware) : (updFw f s).det = s.det := rfl
@[simp] theorem updFw_block (f : Firmware → Firmware) : (updFw f s).block = s.block := rfl
@[simp] theorem updFw_hood (f : Firmware → Firmware) : (updFw f s).hood = s.hood := rfl
@[simp] theorem updFw_dramMb (f : Firmware → Firmware) : (updFw f s).dramMb = s.dramMb := rfl
@[simp] theorem updFw_dram (f : Firmware → Firmware) : (updFw f s).dram = s.dram := rfl
@[simp] theorem updFw_regions (f : Firmware → Firmware) : (updFw f s).regions = s.regions := rfl
@[simp] theorem updFw_slots (f : Firmware → Firmware) : (updFw f s).slots = s.slots := rfl
@[simp] theorem updFw_groups (f : Firmware → Firmware) : (updFw f s).groups = s.groups := rfl
@[simp] theorem updFw_clusters (f : Firmware → Firmware) : (updFw f s).clusters = s.clusters := rfl
@[simp] theorem updFw_bus (f : Firmware → Firmware) : (updFw f s).bus = s.bus := rfl
@[simp] theorem updFw_engines (f : Firmware → Firmware) : (updFw f s).engines = s.engines := rfl
@[simp] theorem updFw_dly (f : Firmware → Firmware) : (updFw f s).dly = s.dly := rfl
@[simp] theorem updFw_clocks (f : Firmware → Firmware) : (updFw f s).clocks = s.clocks := rfl
@[simp] theorem updFw_audio (f : Firmware → Firmware) : (updFw f s).audio = s.audio := rfl
@[simp] theorem updFw_twin (f : Firmware → Firmware) : (updFw f s).twin = s.twin := rfl
@[simp] theorem updFw_host (f : Firmware → Firmware) : (updFw f s).host = s.host := rfl
@[simp] theorem updFw_rings (f : Firmware → Firmware) : (updFw f s).rings = s.rings := rfl
@[simp] theorem updFw_ringMem (f : Firmware → Firmware) : (updFw f s).ringMem = s.ringMem := rfl
@[simp] theorem updFw_mbx (f : Firmware → Firmware) : (updFw f s).mbx = s.mbx := rfl
@[simp] theorem updFw_sched (f : Firmware → Firmware) : (updFw f s).sched = s.sched := rfl
@[simp] theorem updFw_fw (f : Firmware → Firmware) : (updFw f s).fw = f s.fw := rfl
@[simp] theorem updFw_flash (f : Firmware → Firmware) : (updFw f s).flash = s.flash := rfl
@[simp] theorem updFw_fuses (f : Firmware → Firmware) : (updFw f s).fuses = s.fuses := rfl
@[simp] theorem updFw_timers (f : Firmware → Firmware) : (updFw f s).timers = s.timers := rfl
@[simp] theorem updFw_uarts (f : Firmware → Firmware) : (updFw f s).uarts = s.uarts := rfl
@[simp] theorem updFw_cv (f : Firmware → Firmware) : (updFw f s).cv = s.cv := rfl
@[simp] theorem updFw_flt (f : Firmware → Firmware) : (updFw f s).flt = s.flt := rfl
@[simp] theorem updFw_tap (f : Firmware → Firmware) : (updFw f s).tap = s.tap := rfl
@[simp] theorem updFw_pending (f : Firmware → Firmware) : (updFw f s).pending = s.pending := rfl

@[simp] theorem updHost_part (f : HostSt → HostSt) : (updHost f s).part = s.part := rfl
@[simp] theorem updHost_now (f : HostSt → HostSt) : (updHost f s).now = s.now := rfl
@[simp] theorem updHost_use (f : HostSt → HostSt) : (updHost f s).use = s.use := rfl
@[simp] theorem updHost_mode (f : HostSt → HostSt) : (updHost f s).mode = s.mode := rfl
@[simp] theorem updHost_frame (f : HostSt → HostSt) : (updHost f s).frame = s.frame := rfl
@[simp] theorem updHost_carder (f : HostSt → HostSt) : (updHost f s).carder = s.carder := rfl
@[simp] theorem updHost_det (f : HostSt → HostSt) : (updHost f s).det = s.det := rfl
@[simp] theorem updHost_block (f : HostSt → HostSt) : (updHost f s).block = s.block := rfl
@[simp] theorem updHost_hood (f : HostSt → HostSt) : (updHost f s).hood = s.hood := rfl
@[simp] theorem updHost_dramMb (f : HostSt → HostSt) : (updHost f s).dramMb = s.dramMb := rfl
@[simp] theorem updHost_dram (f : HostSt → HostSt) : (updHost f s).dram = s.dram := rfl
@[simp] theorem updHost_regions (f : HostSt → HostSt) : (updHost f s).regions = s.regions := rfl
@[simp] theorem updHost_slots (f : HostSt → HostSt) : (updHost f s).slots = s.slots := rfl
@[simp] theorem updHost_groups (f : HostSt → HostSt) : (updHost f s).groups = s.groups := rfl
@[simp] theorem updHost_clusters (f : HostSt → HostSt) : (updHost f s).clusters = s.clusters := rfl
@[simp] theorem updHost_bus (f : HostSt → HostSt) : (updHost f s).bus = s.bus := rfl
@[simp] theorem updHost_engines (f : HostSt → HostSt) : (updHost f s).engines = s.engines := rfl
@[simp] theorem updHost_dly (f : HostSt → HostSt) : (updHost f s).dly = s.dly := rfl
@[simp] theorem updHost_clocks (f : HostSt → HostSt) : (updHost f s).clocks = s.clocks := rfl
@[simp] theorem updHost_audio (f : HostSt → HostSt) : (updHost f s).audio = s.audio := rfl
@[simp] theorem updHost_twin (f : HostSt → HostSt) : (updHost f s).twin = s.twin := rfl
@[simp] theorem updHost_host (f : HostSt → HostSt) : (updHost f s).host = f s.host := rfl
@[simp] theorem updHost_rings (f : HostSt → HostSt) : (updHost f s).rings = s.rings := rfl
@[simp] theorem updHost_ringMem (f : HostSt → HostSt) : (updHost f s).ringMem = s.ringMem := rfl
@[simp] theorem updHost_mbx (f : HostSt → HostSt) : (updHost f s).mbx = s.mbx := rfl
@[simp] theorem updHost_sched (f : HostSt → HostSt) : (updHost f s).sched = s.sched := rfl
@[simp] theorem updHost_fw (f : HostSt → HostSt) : (updHost f s).fw = s.fw := rfl
@[simp] theorem updHost_flash (f : HostSt → HostSt) : (updHost f s).flash = s.flash := rfl
@[simp] theorem updHost_fuses (f : HostSt → HostSt) : (updHost f s).fuses = s.fuses := rfl
@[simp] theorem updHost_timers (f : HostSt → HostSt) : (updHost f s).timers = s.timers := rfl
@[simp] theorem updHost_uarts (f : HostSt → HostSt) : (updHost f s).uarts = s.uarts := rfl
@[simp] theorem updHost_cv (f : HostSt → HostSt) : (updHost f s).cv = s.cv := rfl
@[simp] theorem updHost_flt (f : HostSt → HostSt) : (updHost f s).flt = s.flt := rfl
@[simp] theorem updHost_tap (f : HostSt → HostSt) : (updHost f s).tap = s.tap := rfl
@[simp] theorem updHost_pending (f : HostSt → HostSt) : (updHost f s).pending = s.pending := rfl

end Sys2Proof.Laws
end

