-- ==== Sys2Proof/Laws/Kept.lean ====
section
/-! SUPPORT. What every operation on the state keeps: the variant and the queue, the order of time, blown fuses, and the
invariant. The lemmas of Kept carry it through an operation from the state that it starts from. -/

namespace Sys2Proof.Laws

open Sys2Proof.Machine

/-- State t comes from s with the variant, the queue and the invariant kept, time not run back, and fuses only blown. -/
structure Kept (s t : State) : Prop where
  part : t.part = s.part
  pending : t.pending = s.pending
  now : s.now ≤ t.now
  fuses : Fuses.onlyBlown s.fuses t.fuses
  memWf : s.memWf → t.memWf
  shape : s.shape = unitCounts → t.shape = unitCounts
  bounded : s.bounded → t.bounded

theorem onlyBlown_refl (a : Fuses) : Fuses.onlyBlown a a := ⟨fun h => ⟨h, rfl⟩, Nat.le_refl _, fun _ h => h⟩

theorem onlyBlown_trans {a b c : Fuses} (h : Fuses.onlyBlown a b) (k : Fuses.onlyBlown b c) : Fuses.onlyBlown a c :=
  ⟨fun l => ⟨(k.1 (h.1 l).1).1, (k.1 (h.1 l).1).2.trans (h.1 l).2⟩, Nat.le_trans h.2.1 k.2.1, fun i l => k.2.2 i (h.2.2 i l)⟩

theorem Kept.refl (s : State) : Kept s s := ⟨rfl, rfl, Nat.le_refl _, onlyBlown_refl _, id, id, id⟩

theorem Kept.trans {s t u : State} (h : Kept s t) (k : Kept t u) : Kept s u :=
  ⟨k.part.trans h.part, k.pending.trans h.pending, Nat.le_trans h.now k.now, onlyBlown_trans h.fuses k.fuses,
   k.memWf ∘ h.memWf, k.shape ∘ h.shape, k.bounded ∘ h.bounded⟩

/-- An update of fields that Kept does not speak of. -/
theorem Kept.same {s t u : State} (h : Kept s t) (p : u.part = t.part) (q : u.pending = t.pending) (n : u.now = t.now)
    (f : u.fuses = t.fuses) (a : u.dram = t.dram) (b : u.ringMem = t.ringMem) (c : u.flash = t.flash) (d : u.shape = t.shape)
    (e : u.carder.store.length ≤ t.carder.store.length) (g : u.flt.log.length ≤ t.flt.log.length) : Kept s u :=
  h.trans ⟨p, q, Nat.le_of_eq n.symm, f ▸ onlyBlown_refl _, fun w => by unfold State.memWf at *; rw [a, b, c]; exact w, fun w => d.trans w,
    fun w => ⟨Nat.le_trans e w.1, Nat.le_trans g w.2⟩⟩

/-- An update of fields that Kept does not speak of: everything by computation. -/
theorem Kept.of_eq {s t u : State} (h : Kept s t)
    (e : (u.part, u.pending, u.now, u.fuses, u.dram, u.ringMem, u.flash, u.shape, u.carder.store.length, u.flt.log.length) =
      (t.part, t.pending, t.now, t.fuses, t.dram, t.ringMem, t.flash, t.shape, t.carder.store.length, t.flt.log.length)) : Kept s u := by
  simp only [Prod.mk.injEq] at e
  obtain ⟨p, q, n, f, a, b, c, d, g, k⟩ := e
  exact h.same p q n f a b c d (Nat.le_of_eq g) (Nat.le_of_eq k)

theorem Kept.ite {s a b : State} {c : Prop} [Decidable c] (ha : Kept s a) (hb : Kept s b) : Kept s (if c then a else b) := by
  split <;> assumption

theorem Kept.foldl {β : Type} {s : State} (f : State → β → State) (hf : ∀ t x, Kept s t → Kept s (f t x)) (l : List β) {t : State}
    (h : Kept s t) : Kept s (l.foldl f t) := by
  induction l generalizing t with
  | nil => exact h
  | cons x l ih => exact ih (hf t x h)

/-- Kept through a value of type State. -/
theorem Kept.let_ {s v : State} {b : State → State} (h : Kept s v) (g : ∀ t, Kept s t → Kept s (b t)) : Kept s (b v) := g v h

end Sys2Proof.Laws
end

