-- ==== Sys2Proof/Laws/KeptOps.lean ====
section
/-! SUPPORT. Kept of every operation on the state: each keeps the variant, the queue, time, fuses and the invariant. -/

set_option linter.unusedSimpArgs false
set_option linter.unusedVariables false

namespace Sys2Proof.Laws

open Sys2Proof.Machine

theorem Kept.dram {s t : State} (h : Kept s t) {m : Memory} (hm : Memory.wf 0 t.dram → Memory.wf 0 m) : Kept s { t with dram := m } :=
  ⟨h.part, h.pending, h.now, h.fuses, fun w => ⟨hm (h.memWf w).1, (h.memWf w).2⟩, h.shape, h.bounded⟩

theorem Kept.ringMem {s t : State} (h : Kept s t) {m : Memory} (hm : Memory.wf 0 t.ringMem → Memory.wf 0 m) : Kept s { t with ringMem := m } :=
  ⟨h.part, h.pending, h.now, h.fuses, fun w => ⟨(h.memWf w).1, hm (h.memWf w).2.1, (h.memWf w).2.2⟩, h.shape, h.bounded⟩

theorem Kept.flash {s t : State} (h : Kept s t) {m : Memory} (hm : Memory.wf 0xFF t.flash → Memory.wf 0xFF m) : Kept s { t with flash := m } :=
  ⟨h.part, h.pending, h.now, h.fuses, fun w => ⟨(h.memWf w).1, (h.memWf w).2.1, hm (h.memWf w).2.2⟩, h.shape, h.bounded⟩

/-- An update of a state, written out: the fields that Kept speaks of come from t. -/
theorem Kept.mk_ {s t : State} {x_part : Part} {x_now : Nat} {x_use : Nat} {x_mode : ModeSt} {x_frame : FrameSt} {x_carder : Carder} {x_det : Det} {x_block : Block} {x_hood : Option Hood} {x_dramMb : Nat} {x_dram : Memory} {x_regions : List Nat} {x_slots : Store Slot} {x_groups : List Group} {x_clusters : List Cluster} {x_bus : BusSt} {x_engines : List Engine} {x_dly : Delay} {x_clocks : Clocks} {x_audio : AudioSt} {x_twin : Twin} {x_host : HostSt} {x_rings : List Ring} {x_ringMem : Memory} {x_mbx : List Mbx} {x_sched : Sched} {x_fw : Firmware} {x_flash : Memory} {x_fuses : Fuses} {x_timers : List Timer} {x_uarts : List Uart} {x_cv : CvSt} {x_flt : FaultSt} {x_tap : Tap} {x_pending : List Instr}
    (e1 : x_part = t.part) (e2 : x_pending = t.pending) (e3 : x_now = t.now) (e4 : x_fuses = t.fuses)
    (e5 : x_dram = t.dram) (e6 : x_ringMem = t.ringMem) (e7 : x_flash = t.flash) (e8 : (State.mk x_part x_now x_use x_mode x_frame x_carder x_det x_block x_hood x_dramMb x_dram x_regions x_slots x_groups x_clusters x_bus x_engines x_dly x_clocks x_audio x_twin x_host x_rings x_ringMem x_mbx x_sched x_fw x_flash x_fuses x_timers x_uarts x_cv x_flt x_tap x_pending).shape = t.shape)
    (e9 : x_carder.store.length ≤ t.carder.store.length) (e10 : x_flt.log.length ≤ t.flt.log.length)
    (h : Kept s t) :
    Kept s (State.mk x_part x_now x_use x_mode x_frame x_carder x_det x_block x_hood x_dramMb x_dram x_regions x_slots x_groups x_clusters x_bus x_engines x_dly x_clocks x_audio x_twin x_host x_rings x_ringMem x_mbx x_sched x_fw x_flash x_fuses x_timers x_uarts x_cv x_flt x_tap x_pending) := h.same e1 e2 e3 e4 e5 e6 e7 e8 e9 e10

theorem Kept.time {s t : State} (h : Kept s t) {n : Nat} (hn : t.now ≤ n) : Kept s { t with now := n } :=
  ⟨h.part, h.pending, Nat.le_trans h.now hn, h.fuses, h.memWf, h.shape, h.bounded⟩

theorem Kept.blown {s t : State} (h : Kept s t) {f : Fuses} (hf : Fuses.onlyBlown t.fuses f) : Kept s { t with fuses := f } :=
  ⟨h.part, h.pending, h.now, onlyBlown_trans h.fuses hf, h.memWf, h.shape, h.bounded⟩

theorem kept_later {s₀ : State} {t : Nat} {s : State} (hk : Kept s₀ s) : Kept s₀ (later t s) := hk.time (Nat.le_max_left _ _)

theorem kept_used {s₀ : State} {s : State} (hk : Kept s₀ s) : Kept s₀ (used s) := hk.of_eq rfl

theorem kept_setSlot {s₀ : State} {i : Nat} {x : Slot} {s : State} (hk : Kept s₀ s) : Kept s₀ (setSlot i x s) := hk.of_eq rfl

theorem length_engines {s : State} (h : s.shape = unitCounts) : s.engines.length = 16 := by
  have h2 : s.engines.map Engine.shape = List.replicate 16 engCounts := (List.cons.inj h).2
  have h3 := congrArg List.length h2
  simpa using h3

/-- New engines that fit, and nothing else that Kept speaks of. -/
theorem Kept.engines {s t : State} (h : Kept s t) {l : List Engine} (hl : l.length = t.engines.length)
    (hf : t.shape = unitCounts → ∀ g ∈ l, Fits g) : Kept s { t with engines := l } := by
  refine h.trans ⟨rfl, rfl, Nat.le_refl _, onlyBlown_refl _, id, fun w => ?_, id⟩
  have h3 : l.length = 16 := hl.trans (length_engines w)
  have h4 : l.map Engine.shape = List.replicate 16 engCounts := by rw [fits_map (hf w), h3]
  have h5 := (List.cons.inj w).1
  simp only [State.shape, unitCounts, hl, h4, h5]

/-- The engines of a state whose units stand in their number fit. -/
theorem fits_of_shape {s : State} (h : s.shape = unitCounts) : ∀ g ∈ s.engines, Fits g := by
  intro g hg
  have h2 : s.engines.map Engine.shape = List.replicate 16 engCounts := (List.cons.inj h).2
  have h3 : g.shape ∈ s.engines.map Engine.shape := List.mem_map_of_mem hg
  rw [h2] at h3
  exact (List.mem_replicate.1 h3).2

theorem fits_getD {l : List Engine} (h : ∀ g ∈ l, Fits g) (e : Nat) : Fits (l.getD e Engine.empty) := by
  induction l generalizing e with
  | nil => exact fits_empty
  | cons g l ih =>
    cases e with
    | zero => exact h g List.mem_cons_self
    | succ n => exact ih (fun k hk => h k (List.mem_cons_of_mem _ hk)) n

theorem fits_engAt {s : State} (h : s.shape = unitCounts) (e : Nat) : Fits (engAt s e) := fits_getD (fits_of_shape h) e

/-- A function that keeps an engine's register files keeps those of all. -/
theorem shapes_map {s : State} (w : s.shape = unitCounts) (f : Engine → Engine) (hf : ∀ g, Fits g → Fits (f g)) :
    s.engines.map (fun g => (f g).shape) = List.replicate 16 engCounts := by
  have h : ∀ g ∈ s.engines.map f, Fits g := by
    intro g hg
    obtain ⟨k, hk, rfl⟩ := List.mem_map.1 hg
    exact hf k (fits_of_shape w k hk)
  have := fits_map h
  rw [List.length_map, length_engines w, List.map_map] at this
  exact this

theorem mem_setAt {α : Type} {l : List α} {i : Nat} {v x : α} (h : x ∈ setAt l i v) : x = v ∨ x ∈ l := by
  induction l generalizing i with
  | nil => cases h
  | cons a l ih =>
    cases i with
    | zero => exact (List.mem_cons.1 h).imp id (List.mem_cons_of_mem _)
    | succ n =>
      rcases List.mem_cons.1 h with h | h
      · exact .inr (h ▸ List.mem_cons_self)
      · exact (ih h).imp id (List.mem_cons_of_mem _)

theorem kept_setEng {s₀ : State} {e : Nat} {g : Engine} {s : State} (hg : Fits (engAt s e) → Fits g) (hk : Kept s₀ s) :
    Kept s₀ (setEng e g s) :=
  hk.engines (length_setAt _ _ _) fun w k hm => (mem_setAt hm).elim (fun q => q ▸ hg (fits_engAt w e)) (fits_of_shape w k)

theorem Kept.mapEngines {s t : State} (h : Kept s t) {f : Engine → Engine} (hf : ∀ g, Fits g → Fits (f g)) :
    Kept s { t with engines := t.engines.map f } :=
  h.engines (List.length_map _) fun w g hm => by
    obtain ⟨k, hk, rfl⟩ := List.mem_map.1 hm
    exact hf k (fits_of_shape w k hk)

theorem kept_updGroup {s₀ : State} {g : Nat} {f : Group → Group} {s : State} (hk : Kept s₀ s) : Kept s₀ (updGroup g f s) := hk.of_eq rfl

theorem kept_updCluster {s₀ : State} {c : Nat} {f : Cluster → Cluster} {s : State} (hk : Kept s₀ s) : Kept s₀ (updCluster c f s) := hk.same rfl rfl rfl rfl rfl rfl rfl (by simp [State.shape, updCluster]) (Nat.le_refl _) (Nat.le_refl _)

theorem kept_updRing {s₀ : State} {r : Nat} {f : Ring → Ring} {s : State} (hk : Kept s₀ s) : Kept s₀ (updRing r f s) := hk.same rfl rfl rfl rfl rfl rfl rfl (by simp [State.shape, updRing]) (Nat.le_refl _) (Nat.le_refl _)

theorem kept_updMbx {s₀ : State} {c : Nat} {f : Mbx → Mbx} {s : State} (hk : Kept s₀ s) : Kept s₀ (updMbx c f s) := hk.same rfl rfl rfl rfl rfl rfl rfl (by simp [State.shape, updMbx]) (Nat.le_refl _) (Nat.le_refl _)

theorem kept_updUart {s₀ : State} {u : Nat} {f : Uart → Uart} {s : State} (hk : Kept s₀ s) : Kept s₀ (updUart u f s) := hk.same rfl rfl rfl rfl rfl rfl rfl (by simp [State.shape, updUart]) (Nat.le_refl _) (Nat.le_refl _)

theorem kept_updTimer {s₀ : State} {n : Nat} {f : Timer → Timer} {s : State} (hk : Kept s₀ s) : Kept s₀ (updTimer n f s) := hk.same rfl rfl rfl rfl rfl rfl rfl (by simp [State.shape, updTimer]) (Nat.le_refl _) (Nat.le_refl _)

theorem kept_updCv {s₀ : State} {c : Nat} {f : Cv → Cv} {s : State} (hk : Kept s₀ s) : Kept s₀ (updCv c f s) := hk.same rfl rfl rfl rfl rfl rfl rfl (by simp [State.shape, updCv]) (Nat.le_refl _) (Nat.le_refl _)

theorem kept_updSap {s₀ : State} {p : Nat} {f : Sap → Sap} {s : State} (hk : Kept s₀ s) : Kept s₀ (updSap p f s) := hk.same rfl rfl rfl rfl rfl rfl rfl (by simp [State.shape, updSap]) (Nat.le_refl _) (Nat.le_refl _)

theorem kept_updRx {s₀ : State} {r : Nat} {f : AesRx → AesRx} {s : State} (hk : Kept s₀ s) : Kept s₀ (updRx r f s) := hk.same rfl rfl rfl rfl rfl rfl rfl (by simp [State.shape, updRx]) (Nat.le_refl _) (Nat.le_refl _)

theorem kept_updTx {s₀ : State} {x : Nat} {f : AesTx → AesTx} {s : State} (hk : Kept s₀ s) : Kept s₀ (updTx x f s) := hk.same rfl rfl rfl rfl rfl rfl rfl (by simp [State.shape, updTx]) (Nat.le_refl _) (Nat.le_refl _)

theorem kept_updPdm {s₀ : State} {k : Nat} {f : Pdm → Pdm} {s : State} (hk : Kept s₀ s) : Kept s₀ (updPdm k f s) := hk.same rfl rfl rfl rfl rfl rfl rfl (by simp [State.shape, updPdm]) (Nat.le_refl _) (Nat.le_refl _)

theorem kept_updDom {s₀ : State} {d : Nat} {f : Domain → Domain} {s : State} (hk : Kept s₀ s) : Kept s₀ (updDom d f s) := hk.same rfl rfl rfl rfl rfl rfl rfl (by simp [State.shape, updDom]) (Nat.le_refl _) (Nat.le_refl _)

theorem kept_setDesc {s₀ : State} {t : Nat} {x : Desc} {s : State} (hk : Kept s₀ s) : Kept s₀ (setDesc t x s) := hk.of_eq rfl

theorem kept_updCore {s₀ : State} {k : Nat} {f : SchCore → SchCore} {s : State} (hk : Kept s₀ s) : Kept s₀ (updCore k f s) := hk.same rfl rfl rfl rfl rfl rfl rfl (by simp [State.shape, updCore]) (Nat.le_refl _) (Nat.le_refl _)

theorem kept_updWin {s₀ : State} {w : Nat} {f : Window → Window} {s : State} (hk : Kept s₀ s) : Kept s₀ (updWin w f s) := hk.same rfl rfl rfl rfl rfl rfl rfl (by simp [State.shape, updWin]) (Nat.le_refl _) (Nat.le_refl _)

theorem kept_setEff {s₀ : State} {m : Mode} {s : State} (hk : Kept s₀ s) : Kept s₀ (setEff m s) := by
  unfold setEff
  repeat' first
    | with_reducible assumption
    | split
    | (with_reducible apply Kept.mk_; iterate 7 rfl
       first | rfl | simp [State.shape]
       first | exact Nat.le_refl _ | simp
       first | exact Nat.le_refl _ | simp)

theorem kept_raiseInt {s₀ : State} {n : Nat} {s : State} (hk : Kept s₀ s) : Kept s₀ (raiseInt n s) := by
  unfold raiseInt
  repeat' first
    | with_reducible assumption
    | split
    | (with_reducible apply Kept.mk_; iterate 7 rfl
       first | rfl | simp [State.shape]
       first | exact Nat.le_refl _ | simp
       first | exact Nat.le_refl _ | simp)

theorem kept_voidDet {s₀ : State} {f : Det → Det} {s : State} (hk : Kept s₀ s) : Kept s₀ (voidDet f s) := by
  unfold voidDet
  repeat' first
    | with_reducible assumption
    | with_reducible refine kept_raiseInt ?_
    | split
    | (with_reducible apply Kept.mk_; iterate 7 rfl
       first | rfl | simp [State.shape]
       first | exact Nat.le_refl _ | simp
       first | exact Nat.le_refl _ | simp)

theorem kept_detFault {s₀ : State} {s : State} (hk : Kept s₀ s) : Kept s₀ (detFault s) := kept_voidDet hk

theorem kept_detMoved {s₀ : State} {s : State} (hk : Kept s₀ s) : Kept s₀ (detMoved s) := by
  unfold detMoved
  repeat' first
    | with_reducible assumption
    | with_reducible refine kept_raiseInt ?_
    | (with_reducible apply Kept.mk_; iterate 7 rfl
       first | rfl | simp [State.shape]
       first | exact Nat.le_refl _ | simp
       first | exact Nat.le_refl _ | simp)

theorem kept_ringPush {s₀ : State} {r : Nat} {e : Words} {s : State} (hk : Kept s₀ s) : Kept s₀ (ringPush r e s) := by
  unfold ringPush
  split
  · exact hk
  · dsimp only
    split
    · exact (kept_updRing hk).ringMem fun w => memory_wf_writeWs _ _ w
    · exact kept_updRing hk

theorem kept_ringPop {s₀ : State} {r : Nat} {s : State} (hk : Kept s₀ s) : Kept s₀ (ringPop r s) := kept_updRing hk

theorem kept_ringDone {s₀ : State} {r code seq : Nat} {s : State} (hk : Kept s₀ s) : Kept s₀ (ringDone r code seq s) := by
  unfold ringDone
  split
  · exact kept_ringPop (hk.ringMem fun w => memory_wf_writeW _ _ w)
  · exact hk

theorem kept_sendReply {s₀ : State} {src : Source} {e : Words} {s : State} (hk : Kept s₀ s) : Kept s₀ (sendReply src e s) := by
  unfold sendReply
  repeat' first
    | with_reducible assumption
    | with_reducible refine kept_ringPush ?_
    | split

theorem kept_sendLog {s₀ : State} {e : Words} {s : State} (hk : Kept s₀ s) : Kept s₀ (sendLog e s) := by
  unfold sendLog
  repeat' first
    | with_reducible assumption
    | with_reducible refine kept_ringPush ?_
    | (with_reducible refine Kept.foldl _ ?_ _ ?_; (intro t x h; try dsimp only))
    | split
    | (with_reducible apply Kept.mk_; iterate 7 rfl
       first | rfl | simp [State.shape]
       first | exact Nat.le_refl _ | simp
       first | exact Nat.le_refl _ | simp)

theorem kept_logFault {s₀ : State} {cls unit resp : Nat} {s : State} (hk : Kept s₀ s) : Kept s₀ (logFault cls unit resp s) := by
  unfold logFault
  split
  · rename_i h
    refine kept_raiseInt (hk.trans ⟨rfl, rfl, Nat.le_refl _, onlyBlown_refl _, id, id, fun w => ⟨w.1, ?_⟩⟩)
    simp only [List.length_append, List.length_singleton]
    omega
  · exact hk.of_eq rfl

theorem kept_quiet {s₀ s : State} (hk : Kept s₀ s) : Kept s₀ (quiet s) := by
  unfold quiet
  split
  · exact hk
  · refine hk.trans ⟨rfl, rfl, Nat.le_refl _, onlyBlown_refl _, id, fun w => ?_, fun w => ⟨Nat.zero_le _, w.2⟩⟩
    have m := shapes_map w engLeave fun _ => fits_engLeave
    have w' := (List.cons.inj w).1
    simp only [List.cons.injEq] at w'
    simp only [State.shape, unitCounts, List.length_map, List.length_mapIdx, List.length_replicate, List.map_map]
    simp only [w']
    exact congrArg (List.cons _) m

theorem kept_detFall {s₀ : State} {before after : State} (hk : Kept s₀ after) : Kept s₀ (detFall before after) := by
  unfold detFall
  repeat' first
    | with_reducible assumption
    | with_reducible refine kept_raiseInt ?_
    | split

theorem kept_enterReady {s₀ : State} {s : State} (hk : Kept s₀ s) : Kept s₀ (enterReady s) := by
  unfold enterReady
  have h := kept_setEff (m := .ready) (kept_quiet hk)
  exact kept_detFall ((h.mapEngines (f := fun g => { g with act := false }) fun _ w => fits_same w rfl rfl rfl).of_eq rfl)

theorem kept_stopTasks {s₀ : State} {p : Nat → Bool} {s : State} (hk : Kept s₀ s) : Kept s₀ (stopTasks p s) := hk.same rfl rfl rfl rfl rfl rfl rfl (by simp [State.shape, stopTasks]) (Nat.le_refl _) (Nat.le_refl _)

theorem kept_stopEngines {s₀ : State} {s : State} (hk : Kept s₀ s) : Kept s₀ (stopEngines s) :=
  kept_stopTasks (hk.mapEngines fun _ w => fits_same w rfl rfl rfl)

theorem kept_enterSafe {s₀ : State} {s : State} (hk : Kept s₀ s) : Kept s₀ (enterSafe s) := by
  unfold enterSafe
  repeat' first
    | with_reducible assumption
    | with_reducible refine kept_detFall ?_
    | with_reducible refine kept_quiet ?_
    | with_reducible refine kept_stopEngines ?_
    | split
    | (with_reducible apply Kept.mk_; iterate 7 rfl
       first | rfl | simp [State.shape]
       first | exact Nat.le_refl _ | simp
       first | exact Nat.le_refl _ | simp)

theorem kept_twinRetire {s₀ : State} {s : State} (hk : Kept s₀ s) : Kept s₀ (twinRetire s) := hk.of_eq rfl

theorem kept_beginYield {s₀ : State} {s : State} (hk : Kept s₀ s) : Kept s₀ (beginYield s) := by
  unfold beginYield
  repeat' first
    | with_reducible assumption
    | with_reducible refine kept_logFault ?_
    | split
    | (with_reducible apply Kept.mk_; iterate 7 rfl
       first | rfl | simp [State.shape]
       first | exact Nat.le_refl _ | simp
       first | exact Nat.le_refl _ | simp)

theorem kept_raiseFault {s₀ : State} {cls unit : Nat} {s : State} (hk : Kept s₀ s) : Kept s₀ (raiseFault cls unit s) := by
  unfold raiseFault
  repeat' first
    | with_reducible assumption
    | with_reducible refine kept_detFault ?_
    | with_reducible refine kept_logFault ?_
    | with_reducible refine kept_enterSafe ?_
    | with_reducible refine kept_twinRetire ?_
    | with_reducible refine kept_beginYield ?_
    | split
    | (with_reducible apply Kept.mk_; iterate 7 rfl
       first | rfl | simp [State.shape]
       first | exact Nat.le_refl _ | simp
       first | exact Nat.le_refl _ | simp)

theorem kept_clockFault {s₀ : State} {d : Nat} {s : State} (hk : Kept s₀ s) : Kept s₀ (clockFault d s) := by
  unfold clockFault
  repeat' first
    | with_reducible assumption
    | with_reducible refine kept_detFault ?_
    | with_reducible refine kept_logFault ?_
    | split

theorem kept_countEcc {s₀ : State} {k : EccKind} {s : State} (hk : Kept s₀ s) : Kept s₀ (countEcc k s) := by
  unfold countEcc
  repeat' first
    | with_reducible assumption
    | split
    | (with_reducible apply Kept.mk_; iterate 7 rfl
       first | rfl | simp [State.shape]
       first | exact Nat.le_refl _ | simp
       first | exact Nat.le_refl _ | simp)

theorem kept_done {s₀ : State} {s : State} (hk : Kept s₀ s) : Kept s₀ (done s).st := hk.of_eq rfl

theorem kept_refuse {s₀ : State} {s : State} {e : Err} (hk : Kept s₀ s) : Kept s₀ (refuse s e).st := hk.of_eq rfl

theorem kept_updVoice {s₀ : State} {n : NoteAt} {f : Voice → Voice} {s : State} (hk : Kept s₀ s) : Kept s₀ (updVoice n f s) := hk.of_eq rfl

theorem kept_countStale {s₀ : State} {g : Nat} {s : State} (hk : Kept s₀ s) : Kept s₀ (countStale g s) := hk.of_eq rfl

theorem kept_onNote {s₀ : State} {r : EvRec} {s : State} {f : NoteAt → Applied} (hf : ∀ n, Kept s₀ (f n).st) (hk : Kept s₀ s) :
    Kept s₀ (onNote r s f).st := by
  unfold onNote
  split
  · exact hf _
  · exact kept_refuse (kept_countStale hk)

theorem kept_cancelPend {s₀ : State} {i : Nat} {s : State} (hk : Kept s₀ s) : Kept s₀ (cancelPend i s) := hk.of_eq rfl

theorem kept_applyRelease {s₀ : State} {r : EvRec} {s : State} (hk : Kept s₀ s) : Kept s₀ (applyRelease r s).st := by
  unfold applyRelease
  repeat' first
    | with_reducible assumption
    | with_reducible refine kept_done ?_
    | with_reducible refine kept_updVoice ?_
    | with_reducible refine kept_onNote (fun n => ?_) ?_

theorem kept_applyKill {s₀ : State} {f : Nat} {r : EvRec} {s : State} (hk : Kept s₀ s) : Kept s₀ (applyKill f r s).st := by
  unfold applyKill
  try dsimp only
  repeat' first
    | with_reducible assumption
    | with_reducible refine kept_setSlot ?_
    | with_reducible refine kept_done ?_
    | with_reducible refine kept_onNote (fun n => ?_) ?_
    | with_reducible refine kept_cancelPend ?_
    | split

theorem kept_detach {s₀ : State} {n : NoteAt} {s : State} (hk : Kept s₀ s) : Kept s₀ (detach n s) := by
  unfold detach
  repeat' first
    | with_reducible assumption
    | with_reducible refine kept_updVoice ?_
    | with_reducible refine kept_cancelPend ?_
    | split

theorem kept_startLines {s₀ : State} {c : Nat} {b : StartBuf} {s : State} (hk : Kept s₀ s) : Kept s₀ (startLines c b s) := by
  unfold startLines
  repeat' first
    | with_reducible assumption
    | with_reducible refine kept_updCluster ?_
    | with_reducible refine kept_raiseFault ?_
    | split
    | (with_reducible apply Kept.mk_; iterate 7 rfl
       first | rfl | simp [State.shape]
       first | exact Nat.le_refl _ | simp
       first | exact Nat.le_refl _ | simp)

theorem kept_takeFree {s₀ : State} {t : Template} {f i : Nat} {b : Option StartBuf} {r : EvRec} {s : State} (hk : Kept s₀ s) : Kept s₀ (takeFree t f i b r s).st := by
  unfold takeFree
  repeat' first
    | with_reducible assumption
    | with_reducible refine kept_setSlot ?_
    | with_reducible refine kept_startLines ?_

theorem kept_takeSteal {s₀ : State} {t : Template} {f i : Nat} {r : EvRec} {s : State} (hk : Kept s₀ s) : Kept s₀ (takeSteal t f i r s).st := hk.of_eq rfl

theorem kept_applyStart {s₀ : State} {f : Nat} {b : Option StartBuf} {r : EvRec} {s : State} (hk : Kept s₀ s) : Kept s₀ (applyStart f b r s).st := by
  unfold applyStart
  try dsimp only
  repeat' first
    | with_reducible assumption
    | with_reducible refine kept_updGroup ?_
    | with_reducible refine kept_refuse ?_
    | with_reducible refine kept_countStale ?_
    | with_reducible refine kept_detach ?_
    | with_reducible refine kept_takeFree ?_
    | with_reducible refine kept_takeSteal ?_
    | split

theorem kept_applyVoiceSet {s₀ : State} {r : EvRec} {s : State} (hk : Kept s₀ s) : Kept s₀ (applyVoiceSet r s).st := by
  unfold applyVoiceSet
  repeat' first
    | with_reducible assumption
    | with_reducible refine kept_done ?_
    | with_reducible refine kept_updVoice ?_
    | with_reducible refine kept_onNote (fun n => ?_) ?_

theorem kept_applyPlaceSet {s₀ : State} {r : EvRec} {s : State} (hk : Kept s₀ s) : Kept s₀ (applyPlaceSet r s).st := by
  unfold applyPlaceSet
  repeat' first
    | with_reducible assumption
    | with_reducible refine kept_done ?_
    | with_reducible refine kept_updVoice ?_
    | with_reducible refine kept_onNote (fun n => ?_) ?_

theorem kept_applyGroupSet {s₀ : State} {r : EvRec} {s : State} (hk : Kept s₀ s) : Kept s₀ (applyGroupSet r s).st := hk.of_eq rfl

theorem kept_applyTempo {s₀ : State} {r : EvRec} {s : State} (hk : Kept s₀ s) : Kept s₀ (applyTempo r s).st := hk.of_eq rfl

theorem kept_applyFulSet {s₀ : State} {r : EvRec} {s : State} (hk : Kept s₀ s) : Kept s₀ (applyFulSet r s).st := by
  unfold applyFulSet
  try dsimp only
  repeat' first
    | with_reducible assumption
    | refine kept_setEng (fun w => by first | exact fits_same w rfl rfl rfl | exact fits_setY w | exact fits_engReload | exact fits_engDispatch w) ?_
    | with_reducible refine kept_done ?_
    | with_reducible refine kept_refuse ?_
    | split

theorem kept_applyBankSwap {s₀ : State} {r : EvRec} {s : State} (hk : Kept s₀ s) : Kept s₀ (applyBankSwap r s).st := by
  unfold applyBankSwap
  try dsimp only
  repeat' first
    | with_reducible assumption
    | refine kept_setEng (fun w => by first | exact fits_same w rfl rfl rfl | exact fits_setY w | exact fits_engReload | exact fits_engDispatch w) ?_
    | with_reducible refine kept_done ?_
    | with_reducible refine kept_refuse ?_
    | split

theorem kept_applyXfStart {s₀ : State} {r : EvRec} {s : State} (hk : Kept s₀ s) : Kept s₀ (applyXfStart r s).st := by
  unfold applyXfStart
  try dsimp only
  repeat' first
    | with_reducible assumption
    | refine kept_setEng (fun w => by first | exact fits_same w rfl rfl rfl | exact fits_setY w | exact fits_engReload | exact fits_engDispatch w) ?_
    | with_reducible refine kept_done ?_
    | with_reducible refine kept_refuse ?_
    | split

theorem kept_applyXfFinish {s₀ : State} {r : EvRec} {s : State} (hk : Kept s₀ s) : Kept s₀ (applyXfFinish r s).st := by
  unfold applyXfFinish
  try dsimp only
  repeat' first
    | with_reducible assumption
    | refine kept_setEng (fun w => by first | exact fits_same w rfl rfl rfl | exact fits_setY w | exact fits_engReload | exact fits_engDispatch w) ?_
    | with_reducible refine kept_done ?_
    | with_reducible refine kept_refuse ?_
    | split

theorem kept_applyDelaySet {s₀ : State} {r : EvRec} {s : State} (hk : Kept s₀ s) : Kept s₀ (applyDelaySet r s).st := by
  unfold applyDelaySet
  repeat' first
    | with_reducible assumption
    | with_reducible refine kept_done ?_
    | split
    | (with_reducible apply Kept.mk_; iterate 7 rfl
       first | rfl | simp [State.shape]
       first | exact Nat.le_refl _ | simp
       first | exact Nat.le_refl _ | simp)

theorem kept_applyCvSet {s₀ : State} {r : EvRec} {s : State} (hk : Kept s₀ s) : Kept s₀ (applyCvSet r s).st := kept_updCv hk

theorem kept_applyRegionEnable {s₀ : State} {r : EvRec} {s : State} (hk : Kept s₀ s) : Kept s₀ (applyRegionEnable r s).st := by
  unfold applyRegionEnable
  try dsimp only
  repeat' first
    | with_reducible assumption
    | with_reducible refine kept_done ?_
    | with_reducible refine kept_refuse ?_
    | split
    | (with_reducible apply Kept.mk_; iterate 7 rfl
       first | rfl | simp [State.shape]
       first | exact Nat.le_refl _ | simp
       first | exact Nat.le_refl _ | simp)

theorem kept_applyEvent {s₀ : State} {f : Nat} {b : Option StartBuf} {r : EvRec} {s : State} (hk : Kept s₀ s) : Kept s₀ (applyEvent f b r s).st := by
  unfold applyEvent
  repeat' first
    | with_reducible assumption
    | with_reducible refine kept_done ?_
    | with_reducible refine kept_applyRelease ?_
    | with_reducible refine kept_applyKill ?_
    | with_reducible refine kept_applyStart ?_
    | with_reducible refine kept_applyVoiceSet ?_
    | with_reducible refine kept_applyPlaceSet ?_
    | with_reducible refine kept_applyGroupSet ?_
    | with_reducible refine kept_applyTempo ?_
    | with_reducible refine kept_applyFulSet ?_
    | with_reducible refine kept_applyBankSwap ?_
    | with_reducible refine kept_applyXfStart ?_
    | with_reducible refine kept_applyXfFinish ?_
    | with_reducible refine kept_applyDelaySet ?_
    | with_reducible refine kept_applyCvSet ?_
    | with_reducible refine kept_applyRegionEnable ?_
    | split

theorem kept_noteLink {s₀ : State} {src : Source} {r : EvRec} {eff : Nat} {late : Bool} {s : State} (hk : Kept s₀ s) : Kept s₀ (noteLink src r eff late s) := by
  unfold noteLink
  repeat' first
    | with_reducible assumption
    | split
    | (with_reducible apply Kept.mk_; iterate 7 rfl
       first | rfl | simp [State.shape]
       first | exact Nat.le_refl _ | simp
       first | exact Nat.le_refl _ | simp)

theorem first_ne_ok {cs : List (Bool × Err)} {c : Bool × Err} (hc : c ∈ cs) (hb : c.1 = true) (hr : c.2.rank < 7) :
    Err.first cs ≠ .ok := by
  have key : ∀ (l : List (Bool × Err)) (b : Err), (b.rank < 7 ∨ c ∈ l) →
      (l.foldl (fun b c => if c.1 && decide (c.2.rank < b.rank) then c.2 else b) b).rank < 7 := by
    intro l
    induction l with
    | nil => intro b h; simpa using h
    | cons x l ih =>
      intro b h
      apply ih
      rcases h with h | h
      · left; dsimp only; split
        · rename_i hx; simp only [Bool.and_eq_true, decide_eq_true_eq] at hx; omega
        · exact h
      · rcases List.mem_cons.mp h with h | h
        · left; subst h; dsimp only; split
          · exact hr
          · rename_i hx; simp only [hb, Bool.true_and, decide_eq_true_eq, Nat.not_lt] at hx; omega
        · right; exact h
  intro h
  have := key cs .ok (Or.inr hc)
  unfold Err.first at h
  rw [h] at this
  exact absurd this (by decide)

/-- An event that the carder accepts finds room in the pending store (R43, R44). -/
theorem store_room {s : State} {src : Source} {r : EvRec} (h : acceptErr s src r = .ok) : s.carder.store.length < 4096 := by
  refine Nat.lt_of_not_le fun hn => ?_
  refine first_ne_ok (c := (decide (4096 ≤ s.carder.store.length), .full)) ?_ (by simpa using hn) (by show Err.full.rank < 7; decide) h
  simp

theorem kept_enterStore {s₀ : State} {src : Source} {r : EvRec} {eff : Nat} {late : Bool} {s : State} (hr : s.carder.store.length < 4096)
    (hk : Kept s₀ s) : Kept s₀ (enterStore src r eff late s) := by
  refine hk.trans ⟨rfl, rfl, Nat.le_refl _, onlyBlown_refl _, id, id, fun w => ⟨?_, w.2⟩⟩
  simp only [enterStore, List.length_append, List.length_singleton]
  omega

theorem kept_accept {s₀ : State} {src : Source} {r : EvRec} {s : State} (hk : Kept s₀ s) : Kept s₀ (accept src r s) := by
  unfold accept
  dsimp only
  split
  · exact kept_sendReply hk
  · rename_i h
    exact kept_noteLink (kept_enterStore (store_room (by simpa using h)) hk)

theorem kept_acceptOwn {s₀ : State} {src : Source} {r : EvRec} {t : Nat} {s : State} (hk : Kept s₀ s) : Kept s₀ (acceptOwn src r t s) :=
  kept_accept ((hk.time (Nat.le_max_left s.now t)).of_eq rfl)

theorem kept_takeEntry {s₀ : State} {src : Source} {r : EvRec} {s : State} (hk : Kept s₀ s) : Kept s₀ (takeEntry src r s) := by
  unfold takeEntry
  repeat' first
    | with_reducible assumption
    | with_reducible refine kept_ringPop ?_
    | split

theorem kept_turnOf {s₀ : State} {src : Source} {s : State} (hk : Kept s₀ s) : Kept s₀ (turnOf src s) := hk.of_eq rfl

theorem kept_nextOffer {s₀ : State} {src : Source} {s : State} {o : EvRec × Nat × State} (hk : Kept s₀ s) (h : nextOffer s src = some o) :
    Kept s₀ o.2.2 := by
  unfold nextOffer at h
  split at h
  · cases h
    exact hk.of_eq rfl
  · split at h
    · obtain ⟨e, _, rfl⟩ := Option.map_eq_some_iff.1 h
      exact kept_ringPop hk
    · split at h
      · obtain ⟨e, _, rfl⟩ := Option.map_eq_some_iff.1 h
        exact kept_updTimer hk
      · cases h
    · cases h

theorem kept_takeOffer {s₀ : State} {limit : Nat} {src : Source} {s : State} (hk : Kept s₀ s) : Kept s₀ (takeOffer limit src s) := by
  unfold takeOffer
  split
  · rename_i h
    exact Kept.ite (kept_acceptOwn (kept_turnOf (kept_nextOffer hk h))) hk
  · exact hk

theorem kept_drainStep {s₀ : State} {limit : Nat} {s : State} (hk : Kept s₀ s) : Kept s₀ (drainStep limit s) := by
  unfold drainStep
  repeat' first
    | with_reducible assumption
    | with_reducible refine kept_used ?_
    | with_reducible refine kept_takeOffer ?_
    | split

theorem kept_drainTurns {s₀ : State} {limit n : Nat} {s : State} (hk : Kept s₀ s) : Kept s₀ (drainTurns limit n s) := by
  induction n generalizing s with
  | zero => exact hk
  | succ n ih => exact ih (kept_drainStep hk)

theorem kept_drain {s₀ : State} {limit : Nat} {s : State} (hk : Kept s₀ s) : Kept s₀ (drain limit s) :=
  (kept_drainTurns hk).of_eq rfl

theorem kept_pump {s₀ : State} {s : State} (hk : Kept s₀ s) : Kept s₀ (pump s) := kept_drain hk

theorem kept_offer {s₀ : State} {src : Source} {r : EvRec} {s : State} (hk : Kept s₀ s) : Kept s₀ (offer src r s) := by
  unfold offer
  repeat' first
    | with_reducible assumption
    | with_reducible refine kept_accept ?_
    | with_reducible refine kept_acceptOwn ?_
    | with_reducible refine kept_takeEntry ?_
    | with_reducible refine kept_pump ?_
    | split
    | (with_reducible apply Kept.mk_; iterate 7 rfl
       first | rfl | simp [State.shape]
       first | exact Nat.le_refl _ | simp
       first | exact Nat.le_refl _ | simp)

theorem kept_report {s₀ : State} {f : Nat} {e : PendEv} {a : Applied} (hk : Kept s₀ a.st) : Kept s₀ (report f e a) := by
  have h1 : Kept s₀ (sendLog (logRec f e.rec_) a.st) := kept_sendLog hk
  have h2 := Kept.ite (c := (evNow e.rec_ || e.late || e.deferred) = true) (kept_detMoved h1) h1
  have h3 := Kept.ite (c := reportOf e a.err = .late) (h2.of_eq (u := { (if (evNow e.rec_ || e.late || e.deferred) = true
    then detMoved (sendLog (logRec f e.rec_) a.st) else sendLog (logRec f e.rec_) a.st) with
    carder := { (if (evNow e.rec_ || e.late || e.deferred) = true then detMoved (sendLog (logRec f e.rec_) a.st)
      else sendLog (logRec f e.rec_) a.st).carder with
      late := satInc 0xFFFF (if (evNow e.rec_ || e.late || e.deferred) = true then detMoved (sendLog (logRec f e.rec_) a.st)
        else sendLog (logRec f e.rec_) a.st).carder.late } }) rfl) h2
  exact Kept.ite (kept_sendReply h3) h3

theorem kept_joinSet {s₀ : State} {e : PendEv} {s : State} (hk : Kept s₀ s) : Kept s₀ (joinSet e s).st := by
  unfold joinSet
  try dsimp only
  repeat' first
    | with_reducible assumption
    | with_reducible refine kept_done ?_
    | with_reducible refine kept_refuse ?_
    | split
    | (with_reducible apply Kept.mk_; iterate 7 rfl
       first | rfl | simp [State.shape]
       first | exact Nat.le_refl _ | simp
       first | exact Nat.le_refl _ | simp)

theorem kept_emptySet {s₀ : State} {n : Nat} {s : State} (hk : Kept s₀ s) : Kept s₀ (emptySet n s) := hk.same rfl rfl rfl rfl rfl rfl rfl (by simp [State.shape, emptySet]) (Nat.le_refl _) (Nat.le_refl _)

theorem kept_applyOne {s₀ : State} {f : Nat} {e : PendEv} {s : State} (hk : Kept s₀ s) : Kept s₀ (applyOne f e s).1 := by
  unfold applyOne
  dsimp only
  split
  · exact kept_report (kept_joinSet hk)
  · split
    · exact kept_report (kept_done (kept_emptySet hk))
    · split
      · exact kept_report (kept_done (kept_emptySet hk))
      · exact kept_report (kept_applyEvent hk)

theorem length_keptEvents (f : Nat) (l : List PendEv) (n : Nat) : (keptEvents f l n).length ≤ l.length := by
  induction l generalizing n with
  | nil => exact Nat.le_refl _
  | cons e t ih =>
    unfold keptEvents
    split
    · simpa using ih n
    · split
      · simpa using ih 0
      · exact Nat.le_succ_of_le (ih _)

theorem kept_applyAll {s₀ : State} {f : Nat} {b : List Nat} {l : List PendEv} {n : Nat} {s : State} (hk : Kept s₀ s) :
    Kept s₀ (applyAll f b l n s).1 := by
  induction l generalizing n s with
  | nil => exact hk
  | cons e t ih =>
    unfold applyAll
    split
    · exact ih hk
    · split
      · exact ih (hk.of_eq rfl)
      · exact ih ((kept_applyOne hk).of_eq rfl)

theorem kept_commitMember {s₀ : State} {f : Nat} {s : State} {m : Member} (hk : Kept s₀ s) : Kept s₀ (commitMember f s m) := by
  unfold commitMember
  dsimp only
  split
  · exact kept_applyEvent hk
  · exact kept_sendReply (kept_applyEvent hk)

theorem kept_closeEvents {s₀ : State} {f : Nat} {s : State} (hk : Kept s₀ s) : Kept s₀ (closeEvents f s) := by
  have h1 : Kept s { s with carder := { s.carder with store := [], applied := 0 } } :=
    (Kept.refl s).same rfl rfl rfl rfl rfl rfl rfl rfl (Nat.zero_le _) (Nat.le_refl _)
  have h2 := Kept.foldl (commitMember f) (fun t m h => kept_commitMember h)
    (applyAll f s.regions s.carder.store (rateOf s).events { s with carder := { s.carder with store := [], applied := 0 } }).2
    (kept_applyAll (b := s.regions) (f := f) (l := s.carder.store) (n := (rateOf s).events) h1)
  refine hk.trans ⟨h2.part, h2.pending, h2.now, h2.fuses, h2.memWf, h2.shape, fun w => ⟨?_, (h2.bounded w).2⟩⟩
  simp only [closeEvents, List.length_map]
  exact Nat.le_trans (length_keptEvents _ _ _) w.1

theorem kept_takeSeq {s₀ : State} {s : State} (hk : Kept s₀ s) : Kept s₀ (takeSeq s) := hk.of_eq rfl

theorem kept_makeReady {s₀ : State} {t stamp : Nat} {s : State} (hk : Kept s₀ s) : Kept s₀ (makeReady t stamp s) := hk.of_eq rfl

theorem kept_leaveSlot {s₀ : State} {t : Nat} {s : State} (hk : Kept s₀ s) : Kept s₀ (leaveSlot t s) := hk.same rfl rfl rfl rfl rfl rfl rfl (by simp [State.shape, leaveSlot]) (Nat.le_refl _) (Nat.le_refl _)

theorem kept_schedCmd {s₀ : State} {cmd t ticks : Nat} {s0 : State} (hk : Kept s₀ s0) : Kept s₀ (schedCmd cmd t ticks s0).1 := by
  unfold schedCmd
  try dsimp only
  repeat' first
    | with_reducible assumption
    | with_reducible refine kept_setDesc ?_
    | with_reducible refine kept_takeSeq ?_
    | with_reducible refine kept_makeReady ?_
    | with_reducible refine kept_leaveSlot ?_
    | split

theorem kept_taskCommand {s₀ : State} {w : Words} {port : Bool} {s : State} (hk : Kept s₀ s) : Kept s₀ (taskCommand w port s).1 := by
  unfold taskCommand
  try dsimp only
  repeat' first
    | with_reducible assumption
    | with_reducible refine kept_schedCmd ?_
    | split

theorem kept_takeTask {s₀ : State} {r : Nat} {s : State} (hk : Kept s₀ s) : Kept s₀ (takeTask r s) := by
  unfold takeTask
  repeat' first
    | with_reducible assumption
    | with_reducible refine kept_ringDone ?_
    | with_reducible refine kept_taskCommand ?_
    | split

theorem kept_intoSlot {s₀ : State} {k t : Nat} {s : State} (hk : Kept s₀ s) : Kept s₀ (intoSlot k t s) := hk.same rfl rfl rfl rfl rfl rfl rfl (by simp [State.shape, intoSlot]) (Nat.le_refl _) (Nat.le_refl _)

theorem kept_fillSlot {s₀ : State} {k : Nat} {s : State} (hk : Kept s₀ s) : Kept s₀ (fillSlot k s) := by
  unfold fillSlot
  repeat' first
    | with_reducible assumption
    | with_reducible refine kept_setDesc ?_
    | with_reducible refine kept_intoSlot ?_
    | split

theorem kept_fillSlots {s₀ : State} {k : Nat} {s : State} (hk : Kept s₀ s) : Kept s₀ (fillSlots k s) := by
  unfold fillSlots
  repeat' first
    | with_reducible assumption
    | with_reducible refine kept_fillSlot ?_
    | (with_reducible refine Kept.foldl _ ?_ _ ?_; (intro t x h; try dsimp only))

theorem kept_dispatch {s₀ : State} {k : Nat} {s : State} (hk : Kept s₀ s) : Kept s₀ (dispatch k s) := by
  unfold dispatch
  repeat' first
    | with_reducible assumption
    | refine kept_setEng (fun w => by first | exact fits_same w rfl rfl rfl | exact fits_setY w | exact fits_engReload | exact fits_engDispatch w) ?_
    | with_reducible refine kept_setDesc ?_
    | with_reducible refine kept_updCore ?_
    | split

theorem kept_settle {s₀ : State} {s : State} (hk : Kept s₀ s) : Kept s₀ (settle s) := by
  unfold settle
  repeat' first
    | with_reducible assumption
    | with_reducible refine kept_fillSlots ?_
    | with_reducible refine kept_dispatch ?_
    | (with_reducible refine Kept.foldl _ ?_ _ ?_; (intro t x h; try dsimp only))

theorem kept_taskTurn {s₀ : State} {s : State} (hk : Kept s₀ s) : Kept s₀ (taskTurn s) := by
  unfold taskTurn
  repeat' first
    | with_reducible assumption
    | with_reducible refine kept_used ?_
    | with_reducible refine kept_takeTask ?_
    | split

theorem kept_taskTurns {s₀ : State} {n : Nat} {s : State} (hk : Kept s₀ s) : Kept s₀ (taskTurns n s) := by
  induction n generalizing s with
  | zero => exact hk
  | succ n ih => exact ih (kept_taskTurn (kept_settle hk))

theorem kept_drainTasks {s₀ s : State} (hk : Kept s₀ s) : Kept s₀ (drainTasks s) := kept_taskTurns hk

theorem kept_busyOff {s₀ : State} {k t : Nat} {s : State} (hk : Kept s₀ s) : Kept s₀ (busyOff k t s) := kept_updCore hk

theorem kept_busyOn {s₀ : State} {k t : Nat} {s : State} (hk : Kept s₀ s) : Kept s₀ (busyOn k t s) := kept_updCore hk

theorem kept_endTask {s₀ : State} {k : Nat} {fault : Bool} {s : State} (hk : Kept s₀ s) : Kept s₀ (endTask k fault s) := by
  unfold endTask
  repeat' first
    | with_reducible assumption
    | with_reducible refine kept_setDesc ?_
    | with_reducible refine kept_updCore ?_
    | with_reducible refine kept_takeSeq ?_
    | with_reducible refine kept_makeReady ?_
    | with_reducible refine kept_busyOff ?_
    | split
    | (with_reducible apply Kept.mk_; iterate 7 rfl
       first | rfl | simp [State.shape]
       first | exact Nat.le_refl _ | simp
       first | exact Nat.le_refl _ | simp)

theorem kept_advanceList {s₀ : State} {ms : Bool} {s : State} (hk : Kept s₀ s) : Kept s₀ (advanceList ms s) := by
  unfold advanceList
  repeat' first
    | with_reducible assumption
    | with_reducible refine kept_setDesc ?_
    | with_reducible refine kept_takeSeq ?_
    | with_reducible refine kept_makeReady ?_
    | (with_reducible refine Kept.foldl _ ?_ _ ?_; (intro t x h; try dsimp only))

theorem kept_loadWindow {s₀ : State} {s : State} (hk : Kept s₀ s) : Kept s₀ (loadWindow s) := hk.same rfl rfl rfl rfl rfl rfl rfl (by simp [State.shape, loadWindow]) (Nat.le_refl _) (Nat.le_refl _)

theorem kept_millisecond {s₀ : State} {s : State} (hk : Kept s₀ s) : Kept s₀ (millisecond s) := by
  unfold millisecond
  repeat' first
    | with_reducible assumption
    | with_reducible refine kept_advanceList ?_
    | with_reducible refine kept_loadWindow ?_
    | split
    | (with_reducible apply Kept.mk_; iterate 7 rfl
       first | rfl | simp [State.shape]
       first | exact Nat.le_refl _ | simp
       first | exact Nat.le_refl _ | simp)

theorem kept_takeCommand {s₀ : State} {cmd : Nat} {c : TaskCmd} {s : State} (hk : Kept s₀ s) : Kept s₀ (takeCommand cmd c s) := by
  have key : ∀ (o : Option Nat) (x : State), Kept s₀ x → Kept s₀ (match o with | some r => takeTask r s | none => x) := by
    intro o x hx
    cases o with
    | some r => exact kept_takeTask hk
    | none => exact hx
  exact key _ _ (kept_taskCommand hk)

theorem kept_addBus {s₀ : State} {n : Nat} {v : Int} {s : State} (hk : Kept s₀ s) : Kept s₀ (addBus n v s) := hk.of_eq rfl

theorem kept_engOut {s₀ : State} {e : Nat} {s : State} {o : EngOut} (hk : Kept s₀ s) : Kept s₀ (engOut e s o) := by
  cases o with
  | bus n v => exact kept_addBus hk
  | line l v => exact hk.of_eq rfl
  | taskEnd f => exact kept_endTask hk
  | fault => exact kept_raiseFault hk
  | ended => exact hk
  | bgWrite => exact kept_voidDet (f := fun d => { d with bgwrite := true }) hk
  | sat => exact hk

theorem kept_engDone {s₀ : State} {e : Nat} {r : Engine × List EngOut} {s : State} (hg : Fits (engAt s e) → Fits r.1)
    (hk : Kept s₀ s) : Kept s₀ (engDone e r s) :=
  Kept.foldl (engOut e) (fun _ _ h => kept_engOut h) r.2 (kept_setEng hg hk)

theorem kept_busyEng {s₀ : State} {e : Nat} {a b : Engine} {s : State} (hk : Kept s₀ s) : Kept s₀ (busyEng e a b s) := by
  have h := Kept.ite (c := (!a.saved && b.saved) = true) (kept_busyOff (k := 4 + e) (t := s.frame.tickAt + 10 + a.w) hk) hk
  exact Kept.ite (kept_busyOn h) h

theorem kept_finishEngine {s₀ : State} {errs : List FrameErr} {e : Nat} {s : State} (hk : Kept s₀ s) : Kept s₀ (finishEngine errs e s) :=
  Kept.ite (kept_busyEng (kept_busyEng (kept_engDone fits_engFinish hk))) hk

theorem kept_saturate {s₀ : State} {s : State} (hk : Kept s₀ s) : Kept s₀ (saturate s) := hk.same rfl rfl rfl rfl rfl rfl rfl (by simp [State.shape, saturate]) (Nat.le_refl _) (Nat.le_refl _)

theorem kept_onIfaces {s₀ : State} {f : Iface → Iface} {s : State} (hk : Kept s₀ s) : Kept s₀ (onIfaces f s) := hk.same rfl rfl rfl rfl rfl rfl rfl (by simp [State.shape, onIfaces]) (Nat.le_refl _) (Nat.le_refl _)

theorem kept_addSamples {s₀ : State} {buses : List (Option Nat)} {xs : List Int} {s : State} (hk : Kept s₀ s) : Kept s₀ (addSamples buses xs s) := by
  unfold addSamples
  repeat' first
    | with_reducible assumption
    | with_reducible refine kept_addBus ?_
    | (with_reducible refine Kept.foldl _ ?_ _ ?_; (intro t x h; try dsimp only))
    | split

theorem kept_asrcDue {s₀ : State} {d : Nat} {s : State} (hk : Kept s₀ s) : Kept s₀ (asrcDue d s) := by
  unfold asrcDue
  repeat' first
    | with_reducible assumption
    | with_reducible refine kept_used ?_
    | with_reducible refine kept_updDom ?_
    | split
    | (with_reducible apply Kept.mk_; iterate 7 rfl
       first | rfl | simp [State.shape]
       first | exact Nat.le_refl _ | simp
       first | exact Nat.le_refl _ | simp)

theorem kept_asrcLost {s₀ : State} {t d : Nat} {s : State} (hk : Kept s₀ s) : Kept s₀ (asrcLost t d s) := by
  unfold asrcLost
  repeat' first
    | with_reducible assumption
    | with_reducible refine kept_updDom ?_
    | split
    | (with_reducible apply Kept.mk_; iterate 7 rfl
       first | rfl | simp [State.shape]
       first | exact Nat.le_refl _ | simp
       first | exact Nat.le_refl _ | simp)

theorem kept_asrcForce {s₀ : State} {t : Nat} {s : State} (hk : Kept s₀ s) : Kept s₀ (asrcForce t s) := by
  unfold asrcForce
  repeat' first
    | with_reducible assumption
    | with_reducible refine kept_asrcDue ?_
    | with_reducible refine kept_asrcLost ?_
    | (with_reducible refine Kept.foldl _ ?_ _ ?_; (intro t x h; try dsimp only))

theorem kept_asrcSamples {s₀ : State} {d n : Nat} {given : List Int} {s : State} (hk : Kept s₀ s) : Kept s₀ (asrcSamples d n given s).1 := by
  unfold asrcSamples
  repeat' first
    | with_reducible assumption
    | with_reducible refine kept_used ?_
    | (with_reducible refine Kept.foldl _ ?_ _ ?_; (intro t x h; try dsimp only))
    | split

theorem kept_takeInputs {s₀ : State} {f d n : Nat} {i : Iface} {s : State} (hk : Kept s₀ s) : Kept s₀ (takeInputs f d n i s).1 := by
  unfold takeInputs
  repeat' first
    | with_reducible assumption
    | with_reducible refine kept_asrcSamples ?_
    | split

theorem kept_sapInput {s₀ : State} {f p : Nat} {s : State} (hk : Kept s₀ s) : Kept s₀ (sapInput f p s) := by
  unfold sapInput
  repeat' first
    | with_reducible assumption
    | with_reducible refine kept_updSap ?_
    | with_reducible refine kept_addSamples ?_
    | with_reducible refine kept_takeInputs ?_
    | split

theorem kept_rxInput {s₀ : State} {f r : Nat} {s : State} (hk : Kept s₀ s) : Kept s₀ (rxInput f r s) := by
  unfold rxInput
  repeat' first
    | with_reducible assumption
    | with_reducible refine kept_updRx ?_
    | with_reducible refine kept_addSamples ?_
    | with_reducible refine kept_takeInputs ?_
    | split

theorem kept_pdmInput {s₀ : State} {f k : Nat} {s : State} (hk : Kept s₀ s) : Kept s₀ (pdmInput f k s) := by
  unfold pdmInput
  repeat' first
    | with_reducible assumption
    | with_reducible refine kept_updPdm ?_
    | with_reducible refine kept_addSamples ?_
    | with_reducible refine kept_takeInputs ?_
    | split

theorem kept_inputs {s₀ : State} {f : Nat} {s : State} (hk : Kept s₀ s) : Kept s₀ (inputs f s) := by
  unfold inputs
  repeat' first
    | with_reducible assumption
    | with_reducible refine kept_sapInput ?_
    | with_reducible refine kept_rxInput ?_
    | with_reducible refine kept_pdmInput ?_
    | (with_reducible refine Kept.foldl _ ?_ _ ?_; (intro t x h; try dsimp only))

theorem kept_outputs {s₀ : State} {f : Nat} {s : State} (hk : Kept s₀ s) : Kept s₀ (outputs f s) := hk.same rfl rfl rfl rfl rfl rfl rfl (by simp [State.shape, outputs]) (Nat.le_refl _) (Nat.le_refl _)

theorem kept_cvCodes {s₀ : State} {s : State} (hk : Kept s₀ s) : Kept s₀ (cvCodes s) := hk.same rfl rfl rfl rfl rfl rfl rfl (by simp [State.shape, cvCodes]) (Nat.le_refl _) (Nat.le_refl _)

theorem wf_delayStore {y : Delay} {base f : Nat} {m : Memory} (w : Memory.wf 0 m) : Memory.wf 0 (y.store base f m) := by
  unfold Delay.store
  induction Store.keys y.lines generalizing m with
  | nil => exact w
  | cons k l ih => exact ih (memory_wf_writeW _ _ w)

theorem kept_delayFrame {s₀ : State} {f : Nat} {s : State} (hk : Kept s₀ s) : Kept s₀ (delayFrame f s) := by
  have h : Kept s₀ { s with dram := s.dly.store (streamerBase s) f s.dram } := hk.dram fun w => wf_delayStore w
  exact h.of_eq rfl

theorem kept_stepFive {s₀ : State} {f : Nat} {s : State} (hk : Kept s₀ s) : Kept s₀ (stepFive f s) := by
  unfold stepFive
  have h := kept_saturate (kept_inputs (f := f) (kept_cvCodes hk))
  generalize saturate (inputs f (cvCodes s)) = t at h ⊢
  exact (kept_delayFrame (Kept.ite (kept_outputs h) h)).of_eq rfl

theorem kept_frameError {s₀ s : State} {x : FrameErr} (hk : Kept s₀ s) : Kept s₀ (frameError s x) := by
  unfold frameError
  split
  · exact Kept.ite (kept_raiseFault (kept_updCluster hk)) hk
  · exact kept_raiseFault hk
  · exact hk
  · exact kept_countEcc hk
  · exact hk
  · exact hk.of_eq rfl

theorem kept_finishFrame {s₀ : State} {errs : List FrameErr} {s : State} (hk : Kept s₀ s) : Kept s₀ (finishFrame errs s) := by
  unfold finishFrame
  have h1 : Kept s₀ ((List.range 16).foldl (fun s e => finishEngine errs e s) s) := Kept.foldl _ (fun _ _ h => kept_finishEngine h) _ hk
  have h2 := Kept.foldl frameError (fun _ _ h => kept_frameError h) errs h1
  exact Kept.ite (Kept.ite (kept_stepFive h2) h2) hk

theorem kept_enterHold {s₀ : State} {t : Nat} {s : State} (hk : Kept s₀ s) : Kept s₀ (enterHold t s) := by
  unfold enterHold
  repeat' first
    | with_reducible assumption
    | with_reducible refine kept_setEff ?_
    | with_reducible refine kept_detFall ?_
    | with_reducible refine kept_enterReady ?_
    | with_reducible refine kept_onIfaces ?_
    | split
    | (with_reducible apply Kept.mk_; iterate 7 rfl
       first | rfl | simp [State.shape]
       first | exact Nat.le_refl _ | simp
       first | exact Nat.le_refl _ | simp)

theorem kept_updTwin {s₀ : State} {f : Twin → Twin} {s : State} (hk : Kept s₀ s) : Kept s₀ (updTwin f s) := hk.of_eq rfl

theorem kept_twinInt {s₀ : State} {en : Bool} {s : State} (hk : Kept s₀ s) : Kept s₀ (twinInt en s) := by
  unfold twinInt
  repeat' first
    | with_reducible assumption
    | with_reducible refine kept_raiseInt ?_
    | split

theorem kept_outOfStep {s₀ : State} {s : State} (hk : Kept s₀ s) : Kept s₀ (outOfStep s) := by
  unfold outOfStep
  repeat' first
    | with_reducible assumption
    | with_reducible refine kept_updTwin ?_
    | with_reducible refine kept_twinInt ?_
    | split

theorem kept_sendMark {s₀ : State} {f : Nat} {s : State} (hk : Kept s₀ s) : Kept s₀ (sendMark f s) := by
  unfold sendMark
  repeat' first
    | with_reducible assumption
    | split
    | (with_reducible apply Kept.mk_; iterate 7 rfl
       first | rfl | simp [State.shape]
       first | exact Nat.le_refl _ | simp
       first | exact Nat.le_refl _ | simp)

theorem kept_readyMark {s₀ : State} {s : State} (hk : Kept s₀ s) : Kept s₀ (readyMark s) := by
  unfold readyMark
  repeat' first
    | with_reducible assumption
    | split
    | (with_reducible apply Kept.mk_; iterate 7 rfl
       first | rfl | simp [State.shape]
       first | exact Nat.le_refl _ | simp
       first | exact Nat.le_refl _ | simp)

theorem kept_yieldClose {s₀ : State} {f : Nat} {s : State} (hk : Kept s₀ s) : Kept s₀ (yieldClose f s) := by
  unfold yieldClose
  repeat' first
    | with_reducible assumption
    | with_reducible refine kept_setEff ?_
    | with_reducible refine kept_updTwin ?_
    | with_reducible refine kept_twinInt ?_
    | split

theorem kept_takeHolder {s₀ : State} {f cause : Nat} {ifacesNow : Bool} {s : State} (hk : Kept s₀ s) : Kept s₀ (takeHolder f cause ifacesNow s) := by
  unfold takeHolder
  repeat' first
    | with_reducible assumption
    | with_reducible refine kept_setEff ?_
    | with_reducible refine kept_updTwin ?_
    | with_reducible refine kept_twinInt ?_

theorem kept_takeClose {s₀ : State} {f : Nat} {s : State} (hk : Kept s₀ s) : Kept s₀ (takeClose f s) := by
  unfold takeClose
  repeat' first
    | with_reducible assumption
    | with_reducible refine kept_takeHolder ?_
    | split

theorem kept_exchangeRoles {s₀ : State} {s : State} (hk : Kept s₀ s) : Kept s₀ (exchangeRoles s) := by
  unfold exchangeRoles
  repeat' first
    | with_reducible assumption
    | with_reducible refine kept_setEff ?_
    | with_reducible refine kept_updTwin ?_

theorem kept_swapClose {s₀ : State} {f : Nat} {s : State} (hk : Kept s₀ s) : Kept s₀ (swapClose f s) := by
  unfold swapClose
  repeat' first
    | with_reducible assumption
    | with_reducible refine kept_updTwin ?_
    | with_reducible refine kept_twinInt ?_
    | with_reducible refine kept_exchangeRoles ?_
    | split

theorem kept_twinClose {s₀ : State} {f : Nat} {s : State} (hk : Kept s₀ s) : Kept s₀ (twinClose f s) := by
  unfold twinClose
  repeat' first
    | with_reducible assumption
    | with_reducible refine kept_sendMark ?_
    | with_reducible refine kept_yieldClose ?_
    | with_reducible refine kept_takeClose ?_
    | with_reducible refine kept_swapClose ?_

theorem kept_loseMarks {s₀ : State} {t : Nat} {s : State} (hk : Kept s₀ s) : Kept s₀ (loseMarks t s) := by
  unfold loseMarks
  repeat' first
    | with_reducible assumption
    | with_reducible refine kept_logFault ?_
    | with_reducible refine kept_updTwin ?_
    | with_reducible refine kept_twinInt ?_
    | split

theorem kept_retireLead {s₀ : State} {s : State} (hk : Kept s₀ s) : Kept s₀ (retireLead s) := by
  unfold retireLead
  repeat' first
    | with_reducible assumption
    | with_reducible refine kept_setEff ?_
    | with_reducible refine kept_logFault ?_
    | with_reducible refine kept_twinRetire ?_
    | with_reducible refine kept_updTwin ?_
    | with_reducible refine kept_twinInt ?_
    | split
    | (with_reducible apply Kept.mk_; iterate 7 rfl
       first | rfl | simp [State.shape]
       first | exact Nat.le_refl _ | simp
       first | exact Nat.le_refl _ | simp)

theorem kept_mbxTake {s₀ : State} {c : Nat} {s : State} (hk : Kept s₀ s) : Kept s₀ (mbxTake c s) := by
  unfold mbxTake
  repeat' first
    | with_reducible assumption
    | with_reducible refine kept_updMbx ?_
    | split
    | (with_reducible apply Kept.mk_; iterate 7 rfl
       first | rfl | simp [State.shape]
       first | exact Nat.le_refl _ | simp
       first | exact Nat.le_refl _ | simp)

theorem kept_sendOut {s₀ : State} {c : Nat} {ws : Words} {s : State} (hk : Kept s₀ s) : Kept s₀ (sendOut c ws s) := by
  unfold sendOut
  repeat' first
    | with_reducible assumption
    | with_reducible refine kept_updMbx ?_
    | split
    | (with_reducible apply Kept.mk_; iterate 7 rfl
       first | rfl | simp [State.shape]
       first | exact Nat.le_refl _ | simp
       first | exact Nat.le_refl _ | simp)

theorem kept_sendWaiting {s₀ : State} {c : Nat} {s : State} (hk : Kept s₀ s) : Kept s₀ (sendWaiting c s) := by
  unfold sendWaiting
  repeat' first
    | with_reducible assumption
    | with_reducible refine kept_updMbx ?_
    | split
    | (with_reducible apply Kept.mk_; iterate 7 rfl
       first | rfl | simp [State.shape]
       first | exact Nat.le_refl _ | simp
       first | exact Nat.le_refl _ | simp)

theorem kept_answer {s₀ : State} {c : Nat} {m : Words} {e : Err} {args : List Nat} {s : State} (hk : Kept s₀ s) : Kept s₀ (answer c m e args s) := by
  unfold answer
  repeat' first
    | with_reducible assumption
    | with_reducible refine kept_sendOut ?_
    | (with_reducible apply Kept.mk_; iterate 7 rfl
       first | rfl | simp [State.shape]
       first | exact Nat.le_refl _ | simp
       first | exact Nat.le_refl _ | simp)

theorem kept_updFw {s₀ : State} {f : Firmware → Firmware} {s : State} (hk : Kept s₀ s) : Kept s₀ (updFw f s) := hk.of_eq rfl

theorem kept_setBank {s₀ : State} {b : Nat} {m : Memory} {s : State} (hk : Kept s₀ s) : Kept s₀ (setBank b m s) := hk.of_eq rfl

theorem kept_writeSlot {s₀ : State} {bs : List Byte} {s : State} (hk : Kept s₀ s) : Kept s₀ (writeSlot bs s) :=
  hk.flash fun w => memory_wf_writeN _ _ w

theorem kept_writeFloor {s₀ : State} {ver : Nat} {s : State} (hk : Kept s₀ s) : Kept s₀ (writeFloor ver s) := by
  unfold writeFloor
  dsimp only
  exact kept_updFw (hk.flash fun w => memory_wf_writeN _ _ w)

theorem kept_blowEpoch {s₀ : State} {e : Nat} {s : State} (hk : Kept s₀ s) : Kept s₀ (blowEpoch e s) :=
  hk.blown ⟨fun l => ⟨l, rfl⟩, Nat.le_max_left _ _, fun _ h => h⟩

theorem kept_confirmCut {s₀ s : State} (hk : Kept s₀ s) : Kept s₀ (confirmCut s) := by
  unfold confirmCut
  dsimp only
  split
  · exact (kept_writeSlot (kept_used hk)).of_eq rfl
  · split
    · exact ((kept_writeSlot (kept_used hk)).flash fun w => memory_wf_writeN _ _ w).of_eq rfl
    · exact kept_used (kept_blowEpoch (kept_writeFloor (kept_writeSlot (kept_used hk))))

theorem kept_endUpdate {s₀ : State} {e : Err} {st : UpdStage} {s : State} (hk : Kept s₀ s) : Kept s₀ (endUpdate e st s) := hk.of_eq rfl

theorem kept_replyWaiting {s₀ : State} {e : Err} {s : State} (hk : Kept s₀ s) : Kept s₀ (replyWaiting e s) := by
  unfold replyWaiting
  repeat' first
    | with_reducible assumption
    | with_reducible refine kept_sendOut ?_
    | with_reducible refine kept_updFw ?_
    | split

theorem kept_hoReturn {s₀ : State} {s : State} (hk : Kept s₀ s) : Kept s₀ (hoReturn s) := by
  unfold hoReturn
  repeat' first
    | with_reducible assumption
    | split
    | (with_reducible apply Kept.mk_; iterate 7 rfl
       first | rfl | simp [State.shape]
       first | exact Nat.le_refl _ | simp
       first | exact Nat.le_refl _ | simp)

theorem kept_writeRecord {s₀ : State} {b : Nat} {s : State} (hk : Kept s₀ s) : Kept s₀ (writeRecord b s) := hk.of_eq rfl

theorem kept_hoBegin {s₀ : State} {b : Nat} {s : State} (hk : Kept s₀ s) : Kept s₀ (hoBegin b s) := hk.of_eq rfl

theorem kept_stopControl {s₀ : State} {s : State} (hk : Kept s₀ s) : Kept s₀ (stopControl s) := kept_stopTasks hk

theorem kept_hoFail {s₀ : State} {e : Err} {h : Handover} {s : State} (hk : Kept s₀ s) : Kept s₀ (hoFail e h s) := by
  unfold hoFail
  repeat' first
    | with_reducible assumption
    | with_reducible refine kept_updFw ?_
    | with_reducible refine kept_endUpdate ?_
    | with_reducible refine kept_replyWaiting ?_
    | with_reducible refine kept_hoReturn ?_

theorem kept_hoSucceed {s₀ : State} {s : State} (hk : Kept s₀ s) : Kept s₀ (hoSucceed s) := by
  unfold hoSucceed
  repeat' first
    | with_reducible assumption
    | with_reducible refine kept_updFw ?_
    | with_reducible refine kept_endUpdate ?_
    | with_reducible refine kept_replyWaiting ?_
    | with_reducible refine kept_hoReturn ?_

theorem kept_hoStep {s₀ : State} {h : Handover} {s : State} (hk : Kept s₀ s) : Kept s₀ (hoStep h s) := by
  unfold hoStep
  repeat' first
    | with_reducible assumption
    | with_reducible refine kept_updFw ?_
    | with_reducible refine kept_stopControl ?_
    | with_reducible refine kept_hoFail ?_
    | with_reducible refine kept_hoSucceed ?_
    | split

theorem kept_loaderStart {s₀ : State} {s : State} (hk : Kept s₀ s) : Kept s₀ (loaderStart s) := by
  unfold loaderStart
  repeat' first
    | with_reducible assumption
    | with_reducible refine kept_updFw ?_
    | with_reducible refine kept_endUpdate ?_
    | with_reducible refine kept_replyWaiting ?_

theorem kept_boundary {s₀ : State} {b : Nat} {s : State} (hk : Kept s₀ s) : Kept s₀ (boundary b s) := by
  unfold boundary
  repeat' first
    | with_reducible assumption
    | with_reducible refine kept_hoBegin ?_
    | with_reducible refine kept_hoStep ?_
    | with_reducible refine kept_loaderStart ?_
    | split

theorem kept_loaderAdvance {s₀ : State} {s : State} (hk : Kept s₀ s) : Kept s₀ (loaderAdvance s) := by
  unfold loaderAdvance
  repeat' first
    | with_reducible assumption
    | with_reducible refine kept_loaderStart ?_
    | split

theorem kept_msBoundary {s₀ : State} {s : State} (hk : Kept s₀ s) : Kept s₀ (msBoundary s) := by
  unfold msBoundary
  repeat' first
    | with_reducible assumption
    | with_reducible refine kept_boundary ?_
    | with_reducible refine kept_loaderAdvance ?_
    | split
    | (with_reducible apply Kept.mk_; iterate 7 rfl
       first | rfl | simp [State.shape]
       first | exact Nat.le_refl _ | simp
       first | exact Nat.le_refl _ | simp)

theorem kept_trialBack {s₀ : State} {s : State} (hk : Kept s₀ s) : Kept s₀ (trialBack s) := by
  unfold trialBack
  repeat' first
    | with_reducible assumption
    | with_reducible refine kept_updFw ?_
    | with_reducible refine kept_setBank ?_
    | with_reducible refine kept_confirmCut ?_
    | with_reducible refine kept_endUpdate ?_
    | with_reducible refine kept_replyWaiting ?_
    | split

theorem kept_loseLoad {s₀ : State} {s : State} (hk : Kept s₀ s) : Kept s₀ (loseLoad s) := hk.of_eq rfl

theorem kept_coreRestart {s₀ : State} {s : State} (hk : Kept s₀ s) : Kept s₀ (coreRestart s) := by
  unfold coreRestart
  repeat' first
    | with_reducible assumption
    | with_reducible refine kept_stopControl ?_
    | with_reducible refine kept_hoFail ?_
    | with_reducible refine kept_trialBack ?_
    | with_reducible refine kept_loseLoad ?_
    | split
    | (with_reducible apply Kept.mk_; iterate 7 rfl
       first | rfl | simp [State.shape]
       first | exact Nat.le_refl _ | simp
       first | exact Nat.le_refl _ | simp)

theorem kept_mapSlots {s₀ : State} {f : Nat → Slot → Slot} {s : State} (hk : Kept s₀ s) : Kept s₀ (mapSlots f s) := hk.of_eq rfl

theorem kept_holdUnit {s₀ : State} {s : State} (hk : Kept s₀ s) : Kept s₀ (holdUnit s) := by
  unfold holdUnit
  repeat' first
    | with_reducible assumption
    | refine kept_setEng (fun w => by first | exact fits_same w rfl rfl rfl | exact fits_setY w | exact fits_engReload | exact fits_engDispatch w) ?_
    | with_reducible refine kept_stopTasks ?_
    | with_reducible refine kept_mapSlots ?_
    | split
    | (with_reducible apply Kept.mk_; iterate 7 rfl
       first | rfl | simp [State.shape]
       first | exact Nat.le_refl _ | simp
       first | exact Nat.le_refl _ | simp)

theorem kept_rejoinUnit {s₀ : State} {s : State} (hk : Kept s₀ s) : Kept s₀ (rejoinUnit s) := by
  unfold rejoinUnit
  repeat' first
    | with_reducible assumption
    | refine kept_setEng (fun w => by first | exact fits_same w rfl rfl rfl | exact fits_setY w | exact fits_engReload | exact fits_engDispatch w) ?_
    | split
    | (with_reducible apply Kept.mk_; iterate 7 rfl
       first | rfl | simp [State.shape]
       first | exact Nat.le_refl _ | simp
       first | exact Nat.le_refl _ | simp)

theorem kept_restartClose {s₀ : State} {s : State} (hk : Kept s₀ s) : Kept s₀ (restartClose s) := by
  unfold restartClose
  repeat' first
    | with_reducible assumption
    | with_reducible refine kept_holdUnit ?_
    | with_reducible refine kept_rejoinUnit ?_
    | split

theorem kept_chargePeaks {s₀ : State} {s : State} (hk : Kept s₀ s) : Kept s₀ (chargePeaks s) := hk.same rfl rfl rfl rfl rfl rfl rfl (by simp [State.shape, chargePeaks]) (Nat.le_refl _) (Nat.le_refl _)

theorem kept_meterChanges {s₀ : State} {s : State} (hk : Kept s₀ s) : Kept s₀ (meterChanges s) := hk.same rfl rfl rfl rfl rfl rfl rfl (by simp [State.shape, meterChanges]) (Nat.le_refl _) (Nat.le_refl _)

theorem kept_cvLoads {s₀ : State} {t : Nat} {s : State} (hk : Kept s₀ s) : Kept s₀ (cvLoads t s) := hk.same rfl rfl rfl rfl rfl rfl rfl (by simp [State.shape, cvLoads]) (Nat.le_refl _) (Nat.le_refl _)

theorem kept_delayForce {s₀ : State} {s : State} (hk : Kept s₀ s) : Kept s₀ (delayForce s) := hk.of_eq rfl

theorem kept_startGroup {s₀ : State} {f g : Nat} {s : State} (hk : Kept s₀ s) : Kept s₀ (startGroup f g s) := hk.same rfl rfl rfl rfl rfl rfl rfl (by simp [State.shape, startGroup]) (Nat.le_refl _) (Nat.le_refl _)

theorem kept_capturedLate {s₀ : State} {s r : State} (hk : Kept s₀ r) : Kept s₀ (capturedLate s r) := by
  unfold capturedLate
  repeat' first
    | with_reducible assumption
    | (with_reducible apply Kept.mk_; iterate 7 rfl
       first | rfl | simp [State.shape]
       first | exact Nat.le_refl _ | simp
       first | exact Nat.le_refl _ | simp)

theorem kept_numberings {s₀ : State} {f t : Nat} {opens fresh : Bool} {s : State} (hk : Kept s₀ s) : Kept s₀ (numberings f t opens fresh s) := by
  unfold numberings
  repeat' first
    | with_reducible assumption
    | with_reducible refine kept_onIfaces ?_
    | with_reducible refine kept_startGroup ?_
    | with_reducible refine kept_capturedLate ?_
    | (with_reducible refine Kept.foldl _ ?_ _ ?_; (intro t x h; try dsimp only))
    | split

theorem kept_slotSample {s₀ : State} {h : Hood} {s : State} {i : Nat} (hk : Kept s₀ s) : Kept s₀ (slotSample h s i) := by
  unfold slotSample
  repeat' first
    | with_reducible assumption
    | with_reducible refine kept_setSlot ?_
    | with_reducible refine kept_updCluster ?_
    | with_reducible refine kept_addBus ?_
    | (with_reducible refine Kept.foldl _ ?_ _ ?_; (intro t x h; try dsimp only))
    | split
    | (with_reducible apply Kept.mk_; iterate 7 rfl
       first | rfl | simp [State.shape]
       first | exact Nat.le_refl _ | simp
       first | exact Nat.le_refl _ | simp)

theorem kept_stepFour {s₀ : State} {s : State} (hk : Kept s₀ s) : Kept s₀ (stepFour s) := by
  unfold stepFour
  split
  · exact hk
  · rename_i h _
    refine Kept.let_ (v := { s with groups := ((s.groups.map (groupLfos (rateOf s).base)).zip s.groups).map fun (x : Group × Group) => { x.1 with bp := x.2.bp } })
      (b := fun t => Prod.fst ((fun u => ({ u with
        groups := (u.groups.zip (s.groups.map (groupLfos (rateOf s).base))).map fun (x : Group × Group) => { x.1 with bp := x.2.bp }
        engines := u.engines.map engTick }, ())) ((Store.keys t.slots).foldl (slotSample h) t))) (hk.of_eq rfl) fun t k => ?_
    refine Kept.let_ (v := (Store.keys t.slots).foldl (slotSample h) t) (b := fun u => { u with
        groups := (u.groups.zip (s.groups.map (groupLfos (rateOf s).base))).map fun (x : Group × Group) => { x.1 with bp := x.2.bp }
        engines := u.engines.map engTick }) (Kept.foldl _ (fun _ _ h => kept_slotSample h) _ k) fun u m => ?_
    exact (m.mapEngines fun _ w => fits_engTick w).of_eq rfl

theorem kept_openPeriod {s₀ : State} {f : Nat} {s : State} (hk : Kept s₀ s) : Kept s₀ (openPeriod f s) := by
  have h : Kept s₀ { s with engines := s.engines.map fun g => { g with smp := RegBank.zero } } :=
    hk.mapEngines fun g w => by
      rw [fits_banks] at w ⊢
      exact ⟨⟨rfl, rfl, rfl, rfl, rfl, rfl⟩, w.2⟩
  exact h.of_eq rfl

theorem kept_topUpSlot {s₀ : State} {s : State} {i : Nat} (hk : Kept s₀ s) : Kept s₀ (topUpSlot s i) := by
  unfold topUpSlot
  repeat' first
    | with_reducible assumption
    | with_reducible refine kept_setSlot ?_
    | split
    | (with_reducible apply Kept.mk_; iterate 7 rfl
       first | rfl | simp [State.shape]
       first | exact Nat.le_refl _ | simp
       first | exact Nat.le_refl _ | simp)

theorem kept_markLine {s₀ : State} {o : LineOwner} {l : LineAt} {st : LineStat} {s : State} (hk : Kept s₀ s) : Kept s₀ (markLine o l st s) := by
  unfold markLine
  repeat' first
    | with_reducible assumption
    | with_reducible refine kept_setSlot ?_
    | split
    | (with_reducible apply Kept.mk_; iterate 7 rfl
       first | rfl | simp [State.shape]
       first | exact Nat.le_refl _ | simp
       first | exact Nat.le_refl _ | simp)

theorem kept_countLine {s₀ : State} {o : LineOwner} {f : Cluster → Cluster} {s : State} (hk : Kept s₀ s) : Kept s₀ (countLine o f s) := by
  unfold countLine
  repeat' first
    | with_reducible assumption
    | with_reducible refine kept_updCluster ?_
    | split

theorem kept_lineLate {s₀ : State} {o : LineOwner} {l : LineAt} {s : State} (hk : Kept s₀ s) : Kept s₀ (lineLate o l s) := by
  unfold lineLate
  repeat' first
    | with_reducible assumption
    | with_reducible refine kept_raiseFault ?_
    | with_reducible refine kept_markLine ?_
    | with_reducible refine kept_countLine ?_
    | split

theorem kept_missLine {s₀ s : State} {x : FrameErr} (hk : Kept s₀ s) : Kept s₀ (missLine s x) := by
  unfold missLine
  split
  · exact kept_lineLate hk
  · exact hk

theorem kept_firstReads {s₀ : State} {errs : List FrameErr} {s : State} (hk : Kept s₀ s) : Kept s₀ (firstReads errs s) :=
  Kept.foldl missLine (fun _ _ h => kept_missLine h) errs (Kept.foldl topUpSlot (fun _ _ h => kept_topUpSlot h) _ hk)

theorem kept_openFrame {s₀ : State} {t c : Nat} {s : State} (hk : Kept s₀ s) : Kept s₀ (openFrame t c s) := by
  unfold openFrame
  have h1 : Kept s₀ { s with engines := s.engines.map xfClose } := hk.mapEngines fun _ w => fits_xfClose w
  have h2 := Kept.ite (c := (!s.frame.ran) = true) (kept_openPeriod (f := openWindow s) h1) (kept_cvLoads (t := c) h1)
  refine kept_restartClose (kept_mapSlots (kept_delayForce ?_))
  refine Kept.ite ?_ ?_
  · exact (h2.time (Nat.le_max_left _ c)).of_eq rfl
  · exact (h2.time (Nat.le_max_left _ c)).of_eq rfl

theorem kept_startFrame {s₀ : State} {t c : Nat} {fresh : Bool} {errs : List FrameErr} {s : State} (hk : Kept s₀ s) : Kept s₀ (startFrame t c fresh errs s) :=
  kept_stepFour (kept_firstReads (kept_advanceList (kept_numberings (kept_boundary (kept_twinClose (kept_meterChanges (kept_chargePeaks
    (kept_closeEvents (kept_openFrame hk)))))))))

theorem kept_leaveAt {s₀ : State} {c : Nat} {s : State} (hk : Kept s₀ s) : Kept s₀ (leaveAt c s) := by
  have h := hk.time (Nat.le_max_left s.now c)
  exact kept_enterReady (kept_meterChanges (kept_restartClose (Kept.ite (kept_cvLoads h) h)))

theorem kept_closeWindow {s₀ : State} {t c : Nat} {fresh : Bool} {errs : List FrameErr} {s : State} (hk : Kept s₀ s) : Kept s₀ (closeWindow t c fresh errs s) := by
  unfold closeWindow
  repeat' first
    | with_reducible assumption
    | with_reducible refine kept_startFrame ?_
    | with_reducible refine kept_leaveAt ?_
    | split

theorem kept_frameTick {s₀ : State} {t c : Nat} {errs : List FrameErr} {s : State} (hk : Kept s₀ s) : Kept s₀ (frameTick t c errs s) := by
  unfold frameTick
  repeat' first
    | with_reducible assumption
    | with_reducible refine kept_drain ?_
    | with_reducible refine kept_finishFrame ?_
    | with_reducible refine kept_closeWindow ?_

theorem kept_startHeld {s₀ : State} {c : Nat} {s : State} (hk : Kept s₀ s) : Kept s₀ (startHeld c s) := by
  unfold startHeld
  repeat' first
    | with_reducible assumption
    | with_reducible refine kept_frameTick ?_
    | split
    | (with_reducible apply Kept.mk_; iterate 7 rfl
       first | rfl | simp [State.shape]
       first | exact Nat.le_refl _ | simp
       first | exact Nat.le_refl _ | simp)

theorem kept_measure {s₀ : State} {d t : Nat} {s : State} (hk : Kept s₀ s) : Kept s₀ (Machine.measure d t s) :=
  Kept.ite (kept_updDom hk) hk

theorem kept_countGlitch {s₀ : State} {s : State} (hk : Kept s₀ s) : Kept s₀ (countGlitch s) := hk.of_eq rfl

theorem kept_rateHold {s₀ : State} {t : Nat} {s : State} (hk : Kept s₀ s) : Kept s₀ (rateHold t s) := by
  unfold rateHold
  repeat' first
    | with_reducible assumption
    | with_reducible refine kept_raiseInt ?_
    | with_reducible refine kept_clockFault ?_
    | with_reducible refine kept_enterHold ?_
    | (with_reducible apply Kept.mk_; iterate 7 rfl
       first | rfl | simp [State.shape]
       first | exact Nat.le_refl _ | simp
       first | exact Nat.le_refl _ | simp)

theorem kept_runTick {s₀ : State} {t : Nat} {errs : List FrameErr} {s : State} (hk : Kept s₀ s) : Kept s₀ (runTick t errs s) := by
  unfold runTick
  repeat' first
    | with_reducible assumption
    | with_reducible refine kept_finishFrame ?_
    | with_reducible refine kept_frameTick ?_
    | with_reducible refine kept_startHeld ?_
    | with_reducible refine kept_measure ?_
    | with_reducible refine kept_countGlitch ?_
    | with_reducible refine kept_rateHold ?_
    | with_reducible refine Kept.ite ?_ ?_
    | split
    | (with_reducible apply Kept.mk_; iterate 7 rfl
       first | rfl | simp [State.shape]
       first | exact Nat.le_refl _ | simp
       first | exact Nat.le_refl _ | simp)

theorem kept_expire {s₀ : State} {t : Nat} {s : State} (hk : Kept s₀ s) : Kept s₀ (expire t s) := by
  unfold expire
  repeat' first
    | with_reducible assumption
    | with_reducible refine kept_raiseInt ?_
    | with_reducible refine kept_clockFault ?_
    | with_reducible refine kept_finishFrame ?_
    | with_reducible refine kept_enterHold ?_
    | with_reducible refine kept_startHeld ?_
    | split
    | (with_reducible apply Kept.mk_; iterate 7 rfl
       first | rfl | simp [State.shape]
       first | exact Nat.le_refl _ | simp
       first | exact Nat.le_refl _ | simp)

theorem kept_forceExpiry {s₀ : State} {t : Nat} {s : State} (hk : Kept s₀ s) : Kept s₀ (forceExpiry t s) := by
  unfold forceExpiry
  repeat' first
    | with_reducible assumption
    | with_reducible refine kept_expire ?_
    | split

theorem kept_enterRun {s₀ : State} {t : Nat} {errs : List FrameErr} {s : State} (hk : Kept s₀ s) : Kept s₀ (enterRun t errs s) := by
  unfold enterRun
  repeat' first
    | with_reducible assumption
    | with_reducible refine kept_setEff ?_
    | with_reducible refine kept_drain ?_
    | with_reducible refine kept_closeWindow ?_
    | (with_reducible apply Kept.mk_; iterate 7 rfl
       first | rfl | simp [State.shape]
       first | exact Nat.le_refl _ | simp
       first | exact Nat.le_refl _ | simp)

theorem kept_readyTick {s₀ : State} {t : Nat} {errs : List FrameErr} {s : State} (hk : Kept s₀ s) : Kept s₀ (readyTick t errs s) := by
  unfold readyTick
  repeat' first
    | with_reducible assumption
    | with_reducible refine kept_readyMark ?_
    | with_reducible refine kept_enterRun ?_
    | split
    | (with_reducible apply Kept.mk_; iterate 7 rfl
       first | rfl | simp [State.shape]
       first | exact Nat.le_refl _ | simp
       first | exact Nat.le_refl _ | simp)

theorem kept_yieldSeen {s₀ : State} {s : State} (hk : Kept s₀ s) : Kept s₀ (yieldSeen s) := by
  unfold yieldSeen
  repeat' first
    | with_reducible assumption
    | with_reducible refine kept_logFault ?_
    | with_reducible refine kept_updTwin ?_
    | split

theorem kept_relock {s₀ : State} {d t : Nat} {s : State} (hk : Kept s₀ s) : Kept s₀ (relock d t s) := by
  unfold relock
  repeat' first
    | with_reducible assumption
    | with_reducible refine kept_setEff ?_
    | with_reducible refine kept_raiseInt ?_
    | with_reducible refine kept_drain ?_
    | with_reducible refine kept_finishFrame ?_
    | with_reducible refine kept_yieldSeen ?_
    | with_reducible refine kept_closeWindow ?_
    | (with_reducible apply Kept.mk_; iterate 7 rfl
       first | rfl | simp [State.shape]
       first | exact Nat.le_refl _ | simp
       first | exact Nat.le_refl _ | simp)

theorem kept_holdTick {s₀ : State} {d t : Nat} {s : State} (hk : Kept s₀ s) : Kept s₀ (holdTick d t s) := by
  unfold holdTick
  repeat' first
    | with_reducible assumption
    | with_reducible refine kept_measure ?_
    | with_reducible refine kept_countGlitch ?_
    | with_reducible refine kept_relock ?_
    | split
    | (with_reducible apply Kept.mk_; iterate 7 rfl
       first | rfl | simp [State.shape]
       first | exact Nat.le_refl _ | simp
       first | exact Nat.le_refl _ | simp)

theorem kept_srcTick {s₀ : State} {t : Nat} {errs : List FrameErr} {s : State} (hk : Kept s₀ s) : Kept s₀ (srcTick t errs s) := by
  unfold srcTick
  repeat' first
    | with_reducible assumption
    | with_reducible refine kept_measure ?_
    | with_reducible refine kept_countGlitch ?_
    | with_reducible refine kept_runTick ?_
    | with_reducible refine kept_readyTick ?_
    | with_reducible refine kept_holdTick ?_
    | split

theorem kept_relockMaster {s₀ : State} {d t : Nat} {s : State} (hk : Kept s₀ s) : Kept s₀ (relockMaster d t s) := by
  unfold relockMaster
  repeat' first
    | with_reducible assumption
    | with_reducible refine kept_measure ?_
    | (with_reducible apply Kept.mk_; iterate 7 rfl
       first | rfl | simp [State.shape]
       first | exact Nat.le_refl _ | simp
       first | exact Nat.le_refl _ | simp)

theorem kept_offerTimer {s₀ : State} {n : Nat} {s : State} (hk : Kept s₀ s) : Kept s₀ (offerTimer n s) := kept_takeOffer hk

theorem kept_countEdge {s₀ : State} {n : Nat} {s : State} (hk : Kept s₀ s) : Kept s₀ (countEdge n s) := kept_updTimer hk

theorem kept_sourceEdge {s₀ : State} {n : Nat} {s : State} (hk : Kept s₀ s) : Kept s₀ (sourceEdge n s) := by
  unfold sourceEdge
  exact Kept.ite (Kept.ite (kept_offerTimer (kept_countEdge (kept_pump hk))) (kept_countEdge hk)) hk

theorem kept_domTimers {s₀ : State} {d : Nat} {s : State} (hk : Kept s₀ s) : Kept s₀ (domTimers d s) := by
  unfold domTimers
  repeat' first
    | with_reducible assumption
    | with_reducible refine kept_sourceEdge ?_
    | (with_reducible refine Kept.foldl _ ?_ _ ?_; (intro t x h; try dsimp only))
    | split

theorem kept_anyTick {s₀ : State} {d t : Nat} {errs : List FrameErr} {s : State} (hk : Kept s₀ s) : Kept s₀ (anyTick d t errs s) := by
  unfold anyTick
  repeat' first
    | with_reducible assumption
    | with_reducible refine kept_later ?_
    | with_reducible refine kept_drain ?_
    | with_reducible refine kept_asrcForce ?_
    | with_reducible refine kept_loseMarks ?_
    | with_reducible refine kept_retireLead ?_
    | with_reducible refine kept_measure ?_
    | with_reducible refine kept_forceExpiry ?_
    | with_reducible refine kept_relockMaster ?_
    | with_reducible refine kept_holdTick ?_
    | with_reducible refine kept_domTimers ?_
    | with_reducible refine kept_srcTick ?_
    | with_reducible refine Kept.ite ?_ ?_

theorem kept_muteHold {s₀ : State} {t : Nat} {s : State} (hk : Kept s₀ s) : Kept s₀ (muteHold t s) := by
  unfold muteHold
  repeat' first
    | with_reducible assumption
    | with_reducible refine kept_onIfaces ?_
    | split
    | (with_reducible apply Kept.mk_; iterate 7 rfl
       first | rfl | simp [State.shape]
       first | exact Nat.le_refl _ | simp
       first | exact Nat.le_refl _ | simp)

theorem kept_sapStop {s₀ : State} {p : Nat} {s : State} (hk : Kept s₀ s) : Kept s₀ (sapStop p s) := by
  unfold sapStop
  repeat' first
    | with_reducible assumption
    | with_reducible refine kept_updSap ?_
    | with_reducible refine kept_raiseInt ?_

theorem kept_sapRestart {s₀ : State} {p : Nat} {s : State} (hk : Kept s₀ s) : Kept s₀ (sapRestart p s) := by
  unfold sapRestart
  repeat' first
    | with_reducible assumption
    | with_reducible refine kept_updSap ?_
    | with_reducible refine kept_raiseInt ?_

theorem kept_sapFrame {s₀ : State} {h : HPort} {p t bclk : Nat} {cyc : List PinCycle} {s : State} (hk : Kept s₀ s) : Kept s₀ (sapFrame h p t bclk cyc s) := by
  unfold sapFrame
  repeat' first
    | with_reducible assumption
    | with_reducible refine kept_used ?_
    | with_reducible refine kept_updSap ?_
    | with_reducible refine kept_sapStop ?_
    | with_reducible refine kept_sapRestart ?_
    | split
    | (with_reducible apply Kept.mk_; iterate 7 rfl
       first | rfl | simp [State.shape]
       first | exact Nat.le_refl _ | simp
       first | exact Nat.le_refl _ | simp)

theorem kept_txBlockDue {s₀ : State} {x : Nat} {s : State} (hk : Kept s₀ s) : Kept s₀ (txBlockDue x s) := kept_updTx hk

theorem kept_txFrame {s₀ : State} {h : HAes} {x t : Nat} {s : State} (hk : Kept s₀ s) : Kept s₀ (txFrame h x t s) := by
  unfold txFrame
  repeat' first
    | with_reducible assumption
    | with_reducible refine kept_used ?_
    | with_reducible refine kept_updTx ?_
    | with_reducible refine kept_txBlockDue ?_

theorem kept_triggerGroups {s₀ : State} {m t : Nat} {s : State} (hk : Kept s₀ s) : Kept s₀ (triggerGroups m t s) := hk.same rfl rfl rfl rfl rfl rfl rfl (by simp [State.shape, triggerGroups]) (Nat.le_refl _) (Nat.le_refl _)

theorem kept_rxChange {s₀ : State} {r : Nat} {f : AesRx → AesRx} {s : State} (hk : Kept s₀ s) : Kept s₀ (rxChange r f s) := by
  unfold rxChange
  repeat' first
    | with_reducible assumption
    | with_reducible refine kept_updRx ?_
    | with_reducible refine kept_raiseInt ?_
    | split
    | (with_reducible apply Kept.mk_; iterate 7 rfl
       first | rfl | simp [State.shape]
       first | exact Nat.le_refl _ | simp
       first | exact Nat.le_refl _ | simp)

theorem fits_shape_empty : Engine.empty.shape = engCounts := rfl

theorem kept_unitsReset {s₀ s : State} (hk : Kept s₀ s) : Kept s₀ (unitsReset s) := by
  refine hk.trans ⟨rfl, rfl, Nat.le_refl _, onlyBlown_refl _, id, fun w => ?_, fun w => ⟨Nat.zero_le _, w.2⟩⟩
  simp only [State.shape, unitCounts, List.cons.injEq] at w ⊢
  simp [w, fits_shape_empty, unitsReset, CvSt.empty, Clocks.empty, AudioSt.empty, Sched.empty, BusSt.empty]

theorem kept_install {s₀ : State} {h : Hood} {s : State} (hk : Kept s₀ s) : Kept s₀ (install h s) := by
  unfold install
  extract_lets t₀ t
  have k : Kept s₀ t := (kept_unitsReset hk).of_eq rfl
  clear_value t
  refine k.trans ⟨rfl, rfl, Nat.le_refl _, onlyBlown_refl _, id, fun w => ?_, id⟩
  have hm : ((List.range 16).map (engOfHood t h)).map Engine.shape = List.replicate 16 engCounts := by
    have := fits_map (l := (List.range 16).map (engOfHood t h)) fun g hg => by
      obtain ⟨e, _, rfl⟩ := List.mem_map.1 hg
      exact fits_engOfHood
    rw [this, List.length_map, List.length_range]
  have w' := (List.cons.inj w).1
  simp only [List.cons.injEq] at w'
  simp +zetaDelta only [State.shape, unitCounts, List.length_mapIdx, List.length_map, List.length_range, w', hm]

theorem kept_restartBegin {s₀ : State} {cluster : Bool} {i : Nat} {s : State} (hk : Kept s₀ s) : Kept s₀ (restartBegin cluster i s) := by
  unfold restartBegin
  repeat' first
    | with_reducible assumption
    | with_reducible refine kept_detFault ?_
    | with_reducible refine kept_holdUnit ?_
    | split
    | (with_reducible apply Kept.mk_; iterate 7 rfl
       first | rfl | simp [State.shape]
       first | exact Nat.le_refl _ | simp
       first | exact Nat.le_refl _ | simp)

theorem kept_reloadEngine {s₀ : State} {e : Nat} {s : State} (hk : Kept s₀ s) : Kept s₀ (reloadEngine e s) := by
  unfold reloadEngine
  repeat' first
    | with_reducible assumption
    | refine kept_setEng (fun w => by first | exact fits_same w rfl rfl rfl | exact fits_setY w | exact fits_engReload | exact fits_engDispatch w) ?_
    | split

theorem kept_restartReload {s₀ : State} {s : State} (hk : Kept s₀ s) : Kept s₀ (restartReload s) := by
  unfold restartReload
  repeat' first
    | with_reducible assumption
    | with_reducible refine kept_updCluster ?_
    | with_reducible refine kept_reloadEngine ?_
    | split

theorem kept_restartDone {s₀ : State} {s : State} (hk : Kept s₀ s) : Kept s₀ (restartDone s) := by
  unfold restartDone
  repeat' first
    | with_reducible assumption
    | with_reducible refine kept_rejoinUnit ?_
    | with_reducible refine kept_restartReload ?_
    | split
    | (with_reducible apply Kept.mk_; iterate 7 rfl
       first | rfl | simp [State.shape]
       first | exact Nat.le_refl _ | simp
       first | exact Nat.le_refl _ | simp)

theorem kept_restartStopped {s₀ s : State} (hk : Kept s₀ s) : Kept s₀ (restartStopped s) := by
  unfold restartStopped
  refine Kept.ite ?_ hk
  have h : Kept s₀ ((List.range 16).foldl (fun s e => if (engAt s e).phase = .stopped then reloadEngine e s else s) s) :=
    Kept.foldl _ (fun t x h => Kept.ite (kept_reloadEngine h) h) _ hk
  refine Kept.let_ (b := fun t => { t with clusters := t.clusters.map fun c => { c with stopped := false } }) h fun t h => ?_
  exact h.same rfl rfl rfl rfl rfl rfl rfl (by simp only [State.shape, List.length_map]) (Nat.le_refl _) (Nat.le_refl _)

theorem kept_runAccept {s₀ : State} {s : State} (hk : Kept s₀ s) : Kept s₀ (runAccept s) := hk.of_eq rfl

theorem kept_stopAccept {s₀ : State} {s : State} (hk : Kept s₀ s) : Kept s₀ (stopAccept s) := by
  unfold stopAccept
  repeat' first
    | with_reducible assumption
    | with_reducible refine kept_enterReady ?_
    | with_reducible refine kept_updTwin ?_
    | split
    | (with_reducible apply Kept.mk_; iterate 7 rfl
       first | rfl | simp [State.shape]
       first | exact Nat.le_refl _ | simp
       first | exact Nat.le_refl _ | simp)

theorem kept_loseMailboxes {s₀ : State} {s : State} (hk : Kept s₀ s) : Kept s₀ (loseMailboxes s) := hk.same rfl rfl rfl rfl rfl rfl rfl (by simp [State.shape, loseMailboxes]) (Nat.le_refl _) (Nat.le_refl _)

theorem kept_enterSleep {s₀ s : State} (hk : Kept s₀ s) : Kept s₀ (enterSleep s) := by
  have h := kept_stopEngines (kept_loseMailboxes hk)
  have h2 : Kept s₀ { stopEngines (loseMailboxes s) with
      dram := if dramOn (stopEngines (loseMailboxes s)) then (stopEngines (loseMailboxes s)).dram else [] } := h.dram fun w => by
    split
    · exact w
    · exact memory_wf_nil
  exact h2.of_eq rfl

theorem kept_enterService {s₀ : State} {s : State} (hk : Kept s₀ s) : Kept s₀ (enterService s) := by
  unfold enterService
  repeat' first
    | with_reducible assumption
    | with_reducible refine kept_stopEngines ?_
    | (with_reducible apply Kept.mk_; iterate 7 rfl
       first | rfl | simp [State.shape]
       first | exact Nat.le_refl _ | simp
       first | exact Nat.le_refl _ | simp)

theorem kept_readyAccept {s₀ : State} {s : State} (hk : Kept s₀ s) : Kept s₀ (readyAccept s) := by
  unfold readyAccept
  have h := Kept.ite (c := decide (s.mode.mode = .safe) = true) (kept_restartStopped hk) hk
  refine (h.mapEngines (f := fun g => { g with act := false }) fun _ w => fits_same w rfl rfl rfl).same rfl rfl rfl rfl rfl rfl rfl ?_
    (Nat.le_refl _) (Nat.le_refl _)
  simp only [State.shape, List.length_map]

theorem kept_requestDo {s₀ : State} {req : Nat} {s : State} (hk : Kept s₀ s) : Kept s₀ (requestDo req s) := by
  unfold requestDo
  repeat' first
    | with_reducible assumption
    | with_reducible refine kept_runAccept ?_
    | with_reducible refine kept_stopAccept ?_
    | with_reducible refine kept_enterSleep ?_
    | with_reducible refine kept_enterService ?_
    | with_reducible refine kept_readyAccept ?_
    | split

theorem kept_powerOn {s₀ : State} {strap : Bool} {s : State} (hk : Kept s₀ s) : Kept s₀ (powerOn strap s) := by
  unfold powerOn
  have h := Kept.ite (c := s.fw.stage = .confirm) (kept_confirmCut hk) hk
  exact h.trans ⟨rfl, rfl, Nat.le_refl _, onlyBlown_refl _, fun w => ⟨memory_wf_nil, memory_wf_nil, w.2.2⟩, fun _ => rfl,
    fun _ => ⟨Nat.zero_le _, Nat.zero_le _⟩⟩

theorem kept_warmReset {s₀ : State} {cause : Nat} {strap : Bool} {s : State} (hk : Kept s₀ s) : Kept s₀ (warmReset cause strap s) := by
  have h : Kept s (powerOn strap s) := kept_powerOn (Kept.refl s)
  refine hk.trans ⟨h.part, h.pending, h.now, h.fuses, h.memWf, fun w => ?_, fun w => ⟨(h.bounded w).1, w.2⟩⟩
  have w' := h.shape w
  simp only [State.shape, unitCounts, List.cons.injEq] at w w' ⊢
  simp only [warmReset, List.length_map]
  simp [w, w']

theorem kept_wakeKept {s₀ s : State} (hk : Kept s₀ s) : Kept s₀ (wakeKept s) := by
  refine hk.trans ⟨rfl, rfl, Nat.le_refl _, onlyBlown_refl _, fun w => ⟨w.1, memory_wf_nil, w.2.2⟩, fun w => ?_,
    fun w => ⟨Nat.zero_le _, w.2⟩⟩
  simp only [State.shape, unitCounts, List.cons.injEq] at w
  simp [State.shape, unitCounts, wakeKept, State.reset, w, fits_shape_empty, CvSt.empty, Clocks.empty, AudioSt.empty, Sched.empty, BusSt.empty, Carder.empty, HostSt.empty]

theorem kept_wakeTo {s₀ : State} {e c : EccKind} {s : State} (hk : Kept s₀ s) : Kept s₀ (wakeTo e c s) := by
  unfold wakeTo
  repeat' first
    | with_reducible assumption
    | with_reducible refine kept_countEcc ?_
    | with_reducible refine kept_raiseInt ?_
    | with_reducible refine kept_install ?_
    | with_reducible refine kept_wakeKept ?_
    | split
    | (with_reducible apply Kept.mk_; iterate 7 rfl
       first | rfl | simp [State.shape]
       first | exact Nat.le_refl _ | simp
       first | exact Nat.le_refl _ | simp)

theorem kept_recWrite {s₀ : State} {i k : Nat} {w : Word} {s : State} (hk : Kept s₀ s) : Kept s₀ (recWrite i k w s) := by
  unfold recWrite
  repeat' first
    | with_reducible assumption
    | with_reducible refine kept_setSlot ?_
    | split
    | (with_reducible apply Kept.mk_; iterate 7 rfl
       first | rfl | simp [State.shape]
       first | exact Nat.le_refl _ | simp
       first | exact Nat.le_refl _ | simp)

theorem kept_tgtWrite {s₀ : State} {tgt e a : Nat} {w : Word} {s : State} (hk : Kept s₀ s) : Kept s₀ (tgtWrite tgt e a w s) := by
  unfold tgtWrite
  dsimp only
  split
  · exact hk.dram fun m => memory_wf_writeW _ _ m
  · exact kept_setEng (fun w => fits_same w rfl rfl rfl) hk
  · exact kept_setEng (fun w => fits_same w rfl rfl rfl) hk
  · exact kept_setEng (fun w => fits_same w rfl rfl rfl) hk
  · exact kept_recWrite hk
  · exact hk

theorem kept_winStart {s₀ : State} {w v : Nat} {s : State} (hk : Kept s₀ s) : Kept s₀ (winStart w v s) := kept_updWin hk

theorem kept_useEcc {s₀ : State} {k : EccKind} {s : State} (hk : Kept s₀ s) : Kept s₀ (useEcc k s) := by
  unfold useEcc
  repeat' first
    | with_reducible assumption
    | with_reducible refine kept_detFault ?_
    | with_reducible refine kept_countEcc ?_
    | split
    | (with_reducible apply Kept.mk_; iterate 7 rfl
       first | rfl | simp [State.shape]
       first | exact Nat.le_refl _ | simp
       first | exact Nat.le_refl _ | simp)

theorem kept_winComplete {s₀ : State} {w : Nat} {ecc : EccKind} {s : State} (hk : Kept s₀ s) : Kept s₀ (winComplete w ecc s) := by
  unfold winComplete
  repeat' first
    | with_reducible assumption
    | with_reducible refine kept_updWin ?_
    | with_reducible refine kept_voidDet ?_
    | with_reducible refine kept_useEcc ?_
    | with_reducible refine kept_tgtWrite ?_
    | (with_reducible refine Kept.foldl _ ?_ _ ?_; (intro t x h; try dsimp only))
    | split
    | (with_reducible apply Kept.mk_; iterate 7 rfl
       first | rfl | simp [State.shape]
       first | exact Nat.le_refl _ | simp
       first | exact Nat.le_refl _ | simp)

theorem kept_fifoTake {s₀ : State} {k : Nat} {s : State} (hk : Kept s₀ s) : Kept s₀ (fifoTake k s) := by
  unfold fifoTake
  repeat' first
    | with_reducible assumption
    | split
    | (with_reducible apply Kept.mk_; iterate 7 rfl
       first | rfl | simp [State.shape]
       first | exact Nat.le_refl _ | simp
       first | exact Nat.le_refl _ | simp)

theorem kept_startBlocking {s₀ : State} {v : Nat} {s : State} (hk : Kept s₀ s) : Kept s₀ (startBlocking v s) := by
  unfold startBlocking
  repeat' first
    | with_reducible assumption
    | with_reducible refine kept_stopEngines ?_
    | (with_reducible apply Kept.mk_; iterate 7 rfl
       first | rfl | simp [State.shape]
       first | exact Nat.le_refl _ | simp
       first | exact Nat.le_refl _ | simp)

theorem kept_failPass1 {s₀ : State} {e : Err} {entry off : Nat} {s : State} (hk : Kept s₀ s) : Kept s₀ (failPass1 e entry off s) := by
  unfold failPass1
  repeat' first
    | with_reducible assumption
    | with_reducible refine kept_used ?_
    | with_reducible refine kept_raiseInt ?_
    | (with_reducible apply Kept.mk_; iterate 7 rfl
       first | rfl | simp [State.shape]
       first | exact Nat.le_refl _ | simp
       first | exact Nat.le_refl _ | simp)

theorem kept_failPass2 {s₀ : State} {e : Err} {entry off : Nat} {s : State} (hk : Kept s₀ s) : Kept s₀ (failPass2 e entry off s) :=
  kept_raiseInt (kept_used (((kept_unitsReset hk).dram fun _ => memory_wf_nil).of_eq rfl))

theorem kept_beginPass2 {s₀ : State} {h dir : List Byte} {b : Hood} {s : State} (hk : Kept s₀ s) : Kept s₀ (beginPass2 h dir b s) := by
  unfold beginPass2
  repeat' first
    | with_reducible assumption
    | with_reducible refine kept_unitsReset ?_
    | (with_reducible apply Kept.mk_; iterate 7 rfl
       first | rfl | simp [State.shape]
       first | exact Nat.le_refl _ | simp
       first | exact Nat.le_refl _ | simp)

theorem wf_dramImage {s : State} {b : Hood} {copy : Nat} {img : List Byte} (w : Memory.wf 0 s.dram) : Memory.wf 0 (dramImage s b copy img) := by
  unfold dramImage
  refine memory_wf_writeN _ _ ?_
  refine List.foldlRecOn (motive := fun m => Memory.wf 0 m) _ _ ?_ ?_
  · exact List.foldlRecOn (motive := fun m => Memory.wf 0 m) _ _ w fun m hm _ _ => memory_wf_writeN _ _ hm
  · intro m hm x _
    split
    · exact memory_wf_writeN _ _ hm
    · exact hm

theorem kept_finishBlocking {s₀ s : State} (hk : Kept s₀ s) : Kept s₀ (finishBlocking s) := by
  unfold finishBlocking
  split
  · exact hk
  · refine kept_raiseInt (kept_install (Kept.of_eq (Kept.ite ?_ ?_) rfl))
    · exact (hk.dram fun _ => memory_wf_nil).of_eq rfl
    · exact hk.dram fun w => wf_dramImage w

theorem kept_pass2Install {s₀ : State} {s : State} (hk : Kept s₀ s) : Kept s₀ (pass2Install s) := by
  unfold pass2Install
  repeat' first
    | with_reducible assumption
    | with_reducible refine kept_fifoTake ?_
    | with_reducible refine kept_failPass2 ?_
    | split
    | (with_reducible apply Kept.mk_; iterate 7 rfl
       first | rfl | simp [State.shape]
       first | exact Nat.le_refl _ | simp
       first | exact Nat.le_refl _ | simp)

theorem kept_fifoPut {s₀ : State} {w : Word} {s : State} (hk : Kept s₀ s) : Kept s₀ (fifoPut w s) := hk.of_eq rfl

theorem kept_fifoDrain {s₀ : State} {s : State} (hk : Kept s₀ s) : Kept s₀ (fifoDrain s) := by
  unfold fifoDrain
  repeat' first
    | with_reducible assumption
    | with_reducible refine kept_used ?_
    | with_reducible refine kept_fifoTake ?_

theorem kept_monitorChannel {s₀ : State} {c reading t : Nat} {s : State} (hk : Kept s₀ s) : Kept s₀ (monitorChannel c reading t s) := by
  unfold monitorChannel
  repeat' first
    | with_reducible assumption
    | with_reducible refine kept_updCv ?_
    | split

theorem kept_vmidFault {s₀ : State} {s : State} (hk : Kept s₀ s) : Kept s₀ (vmidFault s) := by
  unfold vmidFault
  repeat' first
    | with_reducible assumption
    | with_reducible refine kept_raiseFault ?_
    | (with_reducible apply Kept.mk_; iterate 7 rfl
       first | rfl | simp [State.shape]
       first | exact Nat.le_refl _ | simp
       first | exact Nat.le_refl _ | simp)

theorem kept_monitorVmid {s₀ : State} {reading : Nat} {s : State} (hk : Kept s₀ s) : Kept s₀ (monitorVmid reading s) := by
  unfold monitorVmid
  repeat' first
    | with_reducible assumption
    | with_reducible refine kept_vmidFault ?_
    | split
    | (with_reducible apply Kept.mk_; iterate 7 rfl
       first | rfl | simp [State.shape]
       first | exact Nat.le_refl _ | simp
       first | exact Nat.le_refl _ | simp)

theorem kept_monitorTemp {s₀ : State} {reading : Nat} {s : State} (hk : Kept s₀ s) : Kept s₀ (monitorTemp reading s) := by
  unfold monitorTemp
  repeat' first
    | with_reducible assumption
    | with_reducible refine kept_raiseFault ?_
    | split
    | (with_reducible apply Kept.mk_; iterate 7 rfl
       first | rfl | simp [State.shape]
       first | exact Nat.le_refl _ | simp
       first | exact Nat.le_refl _ | simp)

theorem kept_issueAt {s₀ : State} {g : EngAt} {w : Nat} {s : State} (hk : Kept s₀ s) : Kept s₀ (issueAt g w s) := by
  unfold issueAt
  repeat' first
    | with_reducible assumption
    | refine kept_engDone (fun w => by first | exact fits_issueWord w | exact fits_engPreempt w | exact fits_engFault w) ?_
    | split
    | (with_reducible apply Kept.mk_; iterate 7 rfl
       first | rfl | simp [State.shape]
       first | exact Nat.le_refl _ | simp
       first | exact Nat.le_refl _ | simp)

theorem kept_updFetch {s₀ : State} {i : Nat} {f : CellFetch → CellFetch} {s : State} (hk : Kept s₀ s) : Kept s₀ (updFetch i f s) := hk.of_eq rfl

theorem kept_setHead {s₀ : State} {r : Nat} {v : HWord} {s : State} (hk : Kept s₀ s) : Kept s₀ (setHead r v s) := kept_updRing hk

theorem kept_setTail {s₀ : State} {r : Nat} {v : HWord} {s : State} (hk : Kept s₀ s) : Kept s₀ (setTail r v s) := kept_updRing hk

theorem kept_bulkMove {s₀ : State} {w : Words} {s : State} (hk : Kept s₀ s) : Kept s₀ (bulkMove w s) := by
  unfold bulkMove
  exact Kept.ite (hk.dram fun m => memory_wf_writeN _ _ m) (hk.ringMem fun m => memory_wf_writeN _ _ m)

theorem kept_bulkTake {s₀ : State} {r : Nat} {s : State} (hk : Kept s₀ s) : Kept s₀ (bulkTake r s) := by
  unfold bulkTake
  repeat' first
    | with_reducible assumption
    | with_reducible refine kept_updRing ?_
    | with_reducible refine kept_bulkMove ?_
    | split

theorem kept_bulkStart {s₀ : State} {op r : Nat} {s : State} (hk : Kept s₀ s) : Kept s₀ (bulkStart op r s) := by
  unfold bulkStart
  repeat' first
    | with_reducible assumption
    | with_reducible refine kept_bulkTake ?_
    | split

theorem kept_countSram {s₀ : State} {n : Nat} {s : State} (hk : Kept s₀ s) : Kept s₀ (countSram n s) := hk.of_eq rfl

theorem kept_bulkDone {s₀ : State} {r : Nat} {ecc : EccKind} {s : State} (hk : Kept s₀ s) : Kept s₀ (bulkDone r ecc s) := by
  unfold bulkDone
  repeat' first
    | with_reducible assumption
    | with_reducible refine kept_updRing ?_
    | with_reducible refine kept_detFault ?_
    | with_reducible refine kept_ringDone ?_
    | with_reducible refine kept_countSram ?_
    | with_reducible refine kept_useEcc ?_
    | split

theorem kept_drainRx {s₀ : State} {n u : Nat} {s : State} (hk : Kept s₀ s) : Kept s₀ (drainRx n u s) := by
  induction n generalizing s with
  | zero => exact hk
  | succ n ih =>
    unfold drainRx
    split
    · exact Kept.ite hk (ih (kept_ringPush (kept_updUart hk)))
    · exact hk

theorem kept_drainUart {s₀ : State} {u : Nat} {s : State} (hk : Kept s₀ s) : Kept s₀ (drainUart u s) := kept_drainRx hk

theorem kept_onUart {s₀ : State} {u : Nat} {f : Uart → Uart} {s : State} (hk : Kept s₀ s) : Kept s₀ (onUart u f s) := by
  unfold onUart
  repeat' first
    | with_reducible assumption
    | with_reducible refine kept_updUart ?_
    | with_reducible refine kept_drainUart ?_
    | split

theorem kept_refillTx {s₀ : State} {n u : Nat} {s : State} (hk : Kept s₀ s) : Kept s₀ (refillTx n u s) := by
  induction n generalizing s with
  | zero => exact hk
  | succ n ih =>
    unfold refillTx
    refine Kept.ite ?_ hk
    split
    · split
      · exact ih (kept_ringPop (kept_updUart hk))
      · exact hk
    · exact hk

theorem kept_transmit {s₀ : State} {u : Nat} {s : State} (hk : Kept s₀ s) : Kept s₀ (transmit u s) := kept_updUart (kept_refillTx hk)

theorem kept_fwOffer {s₀ : State} {r : EvRec} {s : State} (hk : Kept s₀ s) : Kept s₀ (fwOffer r s) := by
  unfold fwOffer
  repeat' first
    | with_reducible assumption
    | with_reducible refine kept_offer ?_
    | split

theorem kept_midiMessage {s₀ : State} {u : Nat} {m : List MidiMap} {fst : Nat} {msg : List Nat} {s : State} (hk : Kept s₀ s) : Kept s₀ (midiMessage u m fst msg s) := by
  unfold midiMessage
  repeat' first
    | with_reducible assumption
    | with_reducible refine kept_updUart ?_
    | with_reducible refine kept_fwOffer ?_
    | split

theorem kept_midiByte {s₀ : State} {u : Nat} {m : List MidiMap} {fst : Nat} {w : HWord} {s : State} (hk : Kept s₀ s) : Kept s₀ (midiByte u m fst w s) := by
  unfold midiByte
  repeat' first
    | with_reducible assumption
    | with_reducible refine kept_updUart ?_
    | with_reducible refine kept_midiMessage ?_
    | split
    | (with_reducible apply Kept.mk_; iterate 7 rfl
       first | rfl | simp [State.shape]
       first | exact Nat.le_refl _ | simp
       first | exact Nat.le_refl _ | simp)

theorem kept_dmxEvents {s₀ : State} {m : List DmxMap} {fst : Nat} {slots : List Nat} {s : State} (hk : Kept s₀ s) : Kept s₀ (dmxEvents m fst slots s) := by
  unfold dmxEvents
  repeat' first
    | with_reducible assumption
    | with_reducible refine kept_fwOffer ?_
    | (with_reducible refine Kept.foldl _ ?_ _ ?_; (intro t x h; try dsimp only))
    | split

theorem kept_rdmSend {s₀ : State} {r n : Nat} {s : State} (hk : Kept s₀ s) : Kept s₀ (rdmSend r n s) := by
  induction n generalizing s with
  | zero => exact hk
  | succ n ih => exact ih (Kept.ite hk (kept_ringPush (hk.of_eq rfl)))

theorem kept_rdmAnswer {s₀ : State} {u : Nat} {s : State} (hk : Kept s₀ s) : Kept s₀ (rdmAnswer u s) := by
  unfold rdmAnswer
  split
  · exact kept_rdmSend (hk.of_eq rfl)
  · exact hk

theorem kept_dmxEntry {s₀ : State} {u : Nat} {m : List DmxMap} {e : Words} {s : State} (hk : Kept s₀ s) : Kept s₀ (dmxEntry u m e s) := by
  unfold dmxEntry
  exact Kept.ite (Kept.ite (kept_dmxEvents (kept_updUart hk)) (Kept.ite (kept_rdmAnswer (kept_updUart hk)) (kept_updUart hk)))
    (kept_updUart hk)

theorem kept_serveEntry {s₀ : State} {u : Nat} {e : Words} {s : State} (hk : Kept s₀ s) : Kept s₀ (serveEntry u e s) := by
  unfold serveEntry
  repeat' first
    | with_reducible assumption
    | with_reducible refine kept_midiByte ?_
    | with_reducible refine kept_dmxEntry ?_
    | (with_reducible refine Kept.foldl _ ?_ _ ?_; (intro t x h; try dsimp only))
    | split

theorem kept_serveEntries {s₀ : State} {r n : Nat} {s : State} (hk : Kept s₀ s) : Kept s₀ (serveEntries r n s) := by
  induction n generalizing s with
  | zero => exact hk
  | succ n ih =>
    unfold serveEntries
    split
    · exact ih (kept_ringPop (kept_serveEntry hk))
    · exact hk

theorem kept_fwTail {s₀ : State} {r : Nat} {v : HWord} {s : State} (hk : Kept s₀ s) : Kept s₀ (fwTail r v s) := by
  unfold fwTail
  split
  · exact Kept.ite (kept_drainUart (kept_serveEntries hk)) (kept_setTail hk)
  · exact hk

theorem kept_serve {s₀ : State} {c : Nat} {p : Words → Bool} {eff : Words → State → State} {s : State}
    (he : ∀ m t, reqErr t c m = .ok → Kept s₀ t → Kept s₀ (eff m t)) (hk : Kept s₀ s) : Kept s₀ (serve c p eff s) := by
  unfold serve
  refine Kept.ite ?_ hk
  dsimp only
  split
  · exact kept_sendWaiting hk
  · split
    · exact kept_answer (kept_sendWaiting hk)
    · rename_i h
      exact Kept.ite (he _ _ (by simpa using h) (kept_sendWaiting hk)) (kept_sendWaiting hk)

theorem kept_chanRequest {s₀ : State} {c req : Nat} {s : State} (hk : Kept s₀ s) : Kept s₀ (chanRequest c req s) := by
  unfold chanRequest
  repeat' first
    | with_reducible assumption
    | with_reducible refine kept_answer ?_
    | with_reducible refine kept_requestDo ?_
    | with_reducible refine kept_serve (fun m t _ h => ?_) ?_

theorem kept_blowOwner {s₀ : State} {digest : List Byte} {s : State} (hl : s.fuses.lock = false) (hk : Kept s₀ s) :
    Kept s₀ (blowOwner digest s) := hk.blown ⟨fun l => by simp [hl] at l, Nat.le_refl _, fun _ h => h⟩

theorem kept_updBegin {s₀ : State} {c : Nat} {m : Words} {s : State} (hk : Kept s₀ s) : Kept s₀ (updBegin c m s) := by
  unfold updBegin
  repeat' first
    | with_reducible assumption
    | with_reducible refine kept_answer ?_
    | with_reducible refine kept_updFw ?_
    | with_reducible refine kept_setBank ?_

theorem kept_updLoad {s₀ : State} {c : Nat} {m : Words} {s : State} (hk : Kept s₀ s) : Kept s₀ (updLoad c m s) := by
  unfold updLoad
  repeat' first
    | with_reducible assumption
    | with_reducible refine kept_answer ?_
    | with_reducible refine kept_updFw ?_
    | with_reducible refine kept_setBank ?_

theorem kept_updVerify {s₀ : State} {c : Nat} {m : Words} {s : State} (hk : Kept s₀ s) : Kept s₀ (updVerify c m s) := by
  unfold updVerify
  repeat' first
    | with_reducible assumption
    | with_reducible refine kept_answer ?_
    | with_reducible refine kept_endUpdate ?_

theorem kept_hold {s₀ : State} {c : Nat} {m : Words} {s : State} (hk : Kept s₀ s) : Kept s₀ (hold c m s) := hk.of_eq rfl

theorem kept_updActivate {s₀ : State} {c : Nat} {m : Words} {s : State} (hk : Kept s₀ s) : Kept s₀ (updActivate c m s) := hk.of_eq rfl

theorem kept_confirmDone {s₀ : State} {ok : Bool} {s : State} (hk : Kept s₀ s) : Kept s₀ (confirmDone ok s) := by
  unfold confirmDone
  repeat' first
    | with_reducible assumption
    | with_reducible refine kept_writeSlot ?_
    | with_reducible refine kept_writeFloor ?_
    | with_reducible refine kept_blowEpoch ?_
    | with_reducible refine kept_endUpdate ?_
    | with_reducible refine kept_replyWaiting ?_
    | split
    | (with_reducible apply Kept.mk_; iterate 7 rfl
       first | rfl | simp [State.shape]
       first | exact Nat.le_refl _ | simp
       first | exact Nat.le_refl _ | simp)

theorem kept_updAbort {s₀ : State} {c : Nat} {m : Words} {s : State} (hk : Kept s₀ s) : Kept s₀ (updAbort c m s) := by
  unfold updAbort
  repeat' first
    | with_reducible assumption
    | with_reducible refine kept_answer ?_
    | with_reducible refine kept_updFw ?_
    | with_reducible refine kept_setBank ?_

theorem kept_resumeConfirm {s₀ : State} {ver : Nat} {s : State} (hk : Kept s₀ s) : Kept s₀ (resumeConfirm ver s) := by
  unfold resumeConfirm
  repeat' first
    | with_reducible assumption
    | with_reducible refine kept_updFw ?_
    | with_reducible refine kept_writeFloor ?_
    | with_reducible refine kept_blowEpoch ?_
    | split
    | (with_reducible apply Kept.mk_; iterate 7 rfl
       first | rfl | simp [State.shape]
       first | exact Nat.le_refl _ | simp
       first | exact Nat.le_refl _ | simp)

theorem kept_bootDone {s₀ : State} {s : State} (hk : Kept s₀ s) : Kept s₀ (bootDone s) := by
  unfold bootDone
  repeat' first
    | with_reducible assumption
    | with_reducible refine kept_updFw ?_
    | with_reducible refine kept_resumeConfirm ?_
    | with_reducible refine Kept.ite ?_ ?_

theorem kept_midiSend {s₀ : State} {m : Words} {s : State} (hk : Kept s₀ s) : Kept s₀ (midiSend m s) := by
  unfold midiSend
  repeat' first
    | with_reducible assumption
    | with_reducible refine kept_updUart ?_
    | with_reducible refine kept_ringPush ?_
    | split
    | (with_reducible apply Kept.mk_; iterate 7 rfl
       first | rfl | simp [State.shape]
       first | exact Nat.le_refl _ | simp
       first | exact Nat.le_refl _ | simp)

theorem kept_pdmChange {s₀ : State} {k : Nat} {f : Pdm → Pdm} {s : State} (hk : Kept s₀ s) : Kept s₀ (pdmChange k f s) := by
  unfold pdmChange
  repeat' first
    | with_reducible assumption
    | with_reducible refine kept_updPdm ?_
    | with_reducible refine kept_raiseInt ?_
    | split
    | (with_reducible apply Kept.mk_; iterate 7 rfl
       first | rfl | simp [State.shape]
       first | exact Nat.le_refl _ | simp
       first | exact Nat.le_refl _ | simp)

theorem kept_takeLink {s₀ : State} {r : Words} {s : State} (hk : Kept s₀ s) : Kept s₀ (takeLink r s) := by
  unfold takeLink
  repeat' first
    | with_reducible assumption
    | with_reducible refine kept_offer ?_
    | with_reducible refine kept_updTwin ?_
    | with_reducible refine kept_outOfStep ?_
    | split
    | (with_reducible apply Kept.mk_; iterate 7 rfl
       first | rfl | simp [State.shape]
       first | exact Nat.le_refl _ | simp
       first | exact Nat.le_refl _ | simp)

theorem kept_markActs {s₀ : State} {m : MarkMsg} {s : State} (hk : Kept s₀ s) : Kept s₀ (markActs m s) := by
  unfold markActs
  repeat' first
    | with_reducible assumption
    | with_reducible refine kept_updTwin ?_
    | split

theorem kept_markChecks {s₀ : State} {m : MarkMsg} {s : State} (hk : Kept s₀ s) : Kept s₀ (markChecks m s) := by
  unfold markChecks
  repeat' first
    | with_reducible assumption
    | with_reducible refine kept_updTwin ?_
    | with_reducible refine kept_twinInt ?_
    | with_reducible refine kept_outOfStep ?_
    | split
    | (with_reducible apply Kept.mk_; iterate 7 rfl
       first | rfl | simp [State.shape]
       first | exact Nat.le_refl _ | simp
       first | exact Nat.le_refl _ | simp)

theorem kept_readLatch {s₀ : State} {r : Reg} {s : State} (hk : Kept s₀ s) : Kept s₀ (readLatch r s) := by
  unfold readLatch
  repeat' first
    | with_reducible assumption
    | with_reducible refine kept_updRx ?_
    | split

theorem kept_cselNext {s₀ : State} {s : State} (hk : Kept s₀ s) : Kept s₀ (cselNext s) := hk.of_eq rfl

theorem kept_readClears {s₀ : State} {r : Reg} {s : State} (hk : Kept s₀ s) : Kept s₀ (readClears r s) := by
  unfold readClears
  repeat' first
    | with_reducible assumption
    | refine kept_setEng (fun w => by first | exact fits_same w rfl rfl rfl | exact fits_setY w | exact fits_engReload | exact fits_engDispatch w) ?_
    | with_reducible refine kept_updGroup ?_
    | with_reducible refine kept_updCluster ?_
    | with_reducible refine kept_updRing ?_
    | with_reducible refine kept_updUart ?_
    | with_reducible refine kept_updTimer ?_
    | with_reducible refine kept_updSap ?_
    | with_reducible refine kept_updRx ?_
    | with_reducible refine kept_updPdm ?_
    | with_reducible refine kept_setDesc ?_
    | with_reducible refine kept_updCore ?_
    | with_reducible refine kept_cselNext ?_
    | split
    | (with_reducible apply Kept.mk_; iterate 7 rfl
       first | rfl | simp [State.shape]
       first | exact Nat.le_refl _ | simp
       first | exact Nat.le_refl _ | simp)

theorem kept_baseRead {s₀ : State} {r : Reg} {s : State} (hk : Kept s₀ s) : Kept s₀ (baseRead r s).1 := by
  unfold baseRead
  repeat' first
    | with_reducible assumption
    | with_reducible refine kept_readLatch ?_
    | with_reducible refine kept_readClears ?_
    | split

theorem kept_updHost {s₀ : State} {f : HostSt → HostSt} {s : State} (hf : (f s.host).wins.length = s.host.wins.length) (hk : Kept s₀ s) :
    Kept s₀ (updHost f s) := hk.same rfl rfl rfl rfl rfl rfl rfl (by simp only [State.shape, updHost, hf]) (Nat.le_refl _) (Nat.le_refl _)

theorem kept_hostPortReset {s₀ : State} {s : State} (hk : Kept s₀ s) : Kept s₀ (hostPortReset s) := hk.of_eq rfl

theorem kept_spiPortReset {s₀ : State} {s : State} (hk : Kept s₀ s) : Kept s₀ (spiPortReset s) := hk.of_eq rfl

theorem kept_hostCfgDo {s₀ : State} {v : Nat} {s : State} (hk : Kept s₀ s) : Kept s₀ (hostCfgDo v s) := by
  unfold hostCfgDo
  repeat' first
    | with_reducible assumption
    | with_reducible refine kept_updHost (by first | rfl | (split <;> rfl)) ?_
    | with_reducible refine kept_hostPortReset ?_
    | with_reducible refine kept_spiPortReset ?_
    | split

theorem kept_blockCtlDo {s₀ : State} {v : Nat} {s : State} (hk : Kept s₀ s) : Kept s₀ (blockCtlDo v s) := by
  unfold blockCtlDo
  repeat' first
    | with_reducible assumption
    | with_reducible refine kept_startBlocking ?_
    | split
    | (with_reducible apply Kept.mk_; iterate 7 rfl
       first | rfl | simp [State.shape]
       first | exact Nat.le_refl _ | simp
       first | exact Nat.le_refl _ | simp)

theorem kept_winCmdDo {s₀ : State} {w v : Nat} {s : State} (hk : Kept s₀ s) : Kept s₀ (winCmdDo w v s) := by
  unfold winCmdDo
  repeat' first
    | with_reducible assumption
    | with_reducible refine kept_updWin ?_
    | with_reducible refine kept_winStart ?_
    | split

theorem kept_audGrpDo {s₀ : State} {g v : Nat} {s : State} (hk : Kept s₀ s) : Kept s₀ (audGrpDo g v s) := hk.same rfl rfl rfl rfl rfl rfl rfl (by simp [State.shape, audGrpDo]) (Nat.le_refl _) (Nat.le_refl _)

theorem kept_pdmCtlDo {s₀ : State} {k v : Nat} {s : State} (hk : Kept s₀ s) : Kept s₀ (pdmCtlDo k v s) := kept_updPdm hk

theorem kept_cdataDo {s₀ : State} {v : Nat} {s : State} (hk : Kept s₀ s) : Kept s₀ (cdataDo v s) := by
  unfold cdataDo
  repeat' first
    | with_reducible assumption
    | with_reducible refine kept_updPdm ?_
    | with_reducible refine kept_cselNext ?_

theorem kept_pairDo {s₀ : State} {on : Bool} {s : State} (hk : Kept s₀ s) : Kept s₀ (pairDo on s) := by
  unfold pairDo
  repeat' first
    | with_reducible assumption
    | with_reducible refine kept_updTwin ?_
    | split

theorem kept_twinCtlDo {s₀ : State} {v : Nat} {s : State} (hk : Kept s₀ s) : Kept s₀ (twinCtlDo v s) := by
  unfold twinCtlDo
  repeat' first
    | with_reducible assumption
    | with_reducible refine kept_updTwin ?_
    | with_reducible refine kept_pairDo ?_
    | split

theorem kept_tmrGoDo {s₀ : State} {v : Nat} {s : State} (hk : Kept s₀ s) : Kept s₀ (tmrGoDo v s) := hk.same rfl rfl rfl rfl rfl rfl rfl (by simp [State.shape, tmrGoDo]) (Nat.le_refl _) (Nat.le_refl _)

theorem kept_cvFaultDo {s₀ : State} {v : Nat} {s : State} (hk : Kept s₀ s) : Kept s₀ (cvFaultDo v s) := hk.same rfl rfl rfl rfl rfl rfl rfl (by simp [State.shape, cvFaultDo]) (Nat.le_refl _) (Nat.le_refl _)

theorem bitAt_eq_testBit (x i : Nat) : bitAt x i = x.testBit i := by
  rw [bitAt, Nat.testBit_eq_decide_div_mod_eq, Bool.eq_iff_iff, beq_iff_eq, decide_eq_true_eq]

theorem kept_cvPolDo {s₀ : State} {v : Nat} {s : State} (hk : Kept s₀ s) : Kept s₀ (cvPolDo v s) := by
  refine hk.blown ⟨fun l => ⟨l, rfl⟩, Nat.le_refl _, fun i h => ?_⟩
  rw [bitAt_eq_testBit] at h ⊢
  show (s.fuses.cvPol ||| bits v 15 0).testBit i = true
  rw [Nat.testBit_or, h, Bool.true_or]

theorem kept_rstCtlDo {s₀ : State} {p : Port} {strap : Bool} {v : Nat} {s : State} (hk : Kept s₀ s) : Kept s₀ (rstCtlDo p strap v s) := by
  unfold rstCtlDo
  repeat' first
    | with_reducible assumption
    | with_reducible refine kept_coreRestart ?_
    | with_reducible refine kept_warmReset ?_
    | split

theorem kept_domRstDo {s₀ : State} {v : Nat} {s : State} (hk : Kept s₀ s) : Kept s₀ (domRstDo v s) := by
  unfold domRstDo
  repeat' first
    | with_reducible assumption
    | with_reducible refine kept_restartBegin ?_
    | split
    | (with_reducible apply Kept.mk_; iterate 7 rfl
       first | rfl | simp [State.shape]
       first | exact Nat.le_refl _ | simp
       first | exact Nat.le_refl _ | simp)

theorem kept_portTail {s₀ : State} {r : Nat} {v : HWord} {s : State} (hk : Kept s₀ s) : Kept s₀ (portTail r v s) := by
  unfold portTail
  repeat' first
    | with_reducible assumption
    | with_reducible refine kept_setTail ?_
    | with_reducible refine kept_drainUart ?_
    | split

theorem kept_tailDo {s₀ : State} {who : Agent} {r v : Nat} {s : State} (hk : Kept s₀ s) : Kept s₀ (tailDo who r v s) := by
  unfold tailDo
  repeat' first
    | with_reducible assumption
    | with_reducible refine kept_fwTail ?_
    | with_reducible refine kept_portTail ?_
    | split

theorem kept_mbxCtlDo {s₀ : State} {c v : Nat} {s : State} (hk : Kept s₀ s) : Kept s₀ (mbxCtlDo c v s) := kept_updMbx hk

theorem kept_mbxInDo {s₀ : State} {c i v : Nat} {s : State} (hk : Kept s₀ s) : Kept s₀ (mbxInDo c i v s) := kept_updMbx hk

theorem kept_w1cDo {s₀ : State} {r : Reg} {v : Nat} {s : State} (hk : Kept s₀ s) : Kept s₀ (w1cDo r v s) := by
  unfold w1cDo
  repeat' first
    | with_reducible assumption
    | refine kept_setEng (fun w => by first | exact fits_same w rfl rfl rfl | exact fits_setY w | exact fits_engReload | exact fits_engDispatch w) ?_
    | with_reducible refine kept_updCluster ?_
    | with_reducible refine kept_updMbx ?_
    | with_reducible refine kept_updUart ?_
    | with_reducible refine kept_updTimer ?_
    | with_reducible refine kept_updSap ?_
    | with_reducible refine kept_updRx ?_
    | with_reducible refine kept_updPdm ?_
    | with_reducible refine kept_updWin ?_
    | with_reducible refine kept_updTwin ?_
    | with_reducible refine kept_updFw ?_
    | with_reducible refine kept_updHost (by first | rfl | (split <;> rfl)) ?_
    | with_reducible refine kept_cvFaultDo ?_
    | split
    | (with_reducible apply Kept.mk_; iterate 7 rfl
       first | rfl | simp [State.shape]
       first | exact Nat.le_refl _ | simp
       first | exact Nat.le_refl _ | simp)

theorem kept_writeDo {s₀ : State} {who : Agent} {strap : Bool} {r : Reg} {v : Nat} {s : State} (hk : Kept s₀ s) : Kept s₀ (writeDo who strap r v s) := by
  unfold writeDo
  repeat' first
    | with_reducible assumption
    | refine kept_setEng (fun w => by first | exact fits_same w rfl rfl rfl | exact fits_setY w | exact fits_engReload | exact fits_engDispatch w) ?_
    | with_reducible refine kept_updRing ?_
    | with_reducible refine kept_updUart ?_
    | with_reducible refine kept_updTimer ?_
    | with_reducible refine kept_updTx ?_
    | with_reducible refine kept_updWin ?_
    | with_reducible refine kept_updFw ?_
    | with_reducible refine kept_txBlockDue ?_
    | with_reducible refine kept_requestDo ?_
    | with_reducible refine kept_fifoPut ?_
    | with_reducible refine kept_setHead ?_
    | with_reducible refine kept_updHost (by first | rfl | (split <;> rfl)) ?_
    | with_reducible refine kept_hostCfgDo ?_
    | with_reducible refine kept_blockCtlDo ?_
    | with_reducible refine kept_winCmdDo ?_
    | with_reducible refine kept_audGrpDo ?_
    | with_reducible refine kept_pdmCtlDo ?_
    | with_reducible refine kept_cdataDo ?_
    | with_reducible refine kept_twinCtlDo ?_
    | with_reducible refine kept_tmrGoDo ?_
    | with_reducible refine kept_cvPolDo ?_
    | with_reducible refine kept_rstCtlDo ?_
    | with_reducible refine kept_domRstDo ?_
    | with_reducible refine kept_tailDo ?_
    | with_reducible refine kept_mbxCtlDo ?_
    | with_reducible refine kept_mbxInDo ?_
    | with_reducible refine kept_w1cDo ?_
    | split
    | (with_reducible apply Kept.mk_; iterate 7 rfl
       first | rfl | simp [State.shape]
       first | exact Nat.le_refl _ | simp
       first | exact Nat.le_refl _ | simp)

theorem kept_setPort {s₀ : State} {p : Port} {x : PortSt} {s : State} (hk : Kept s₀ s) : Kept s₀ (setPort p x s) := by
  unfold setPort
  repeat' first
    | with_reducible assumption
    | with_reducible refine kept_updHost (by first | rfl | (split <;> rfl)) ?_

theorem kept_emptyWrite {s₀ : State} {p : Port} {s : State} (hk : Kept s₀ s) : Kept s₀ (emptyWrite p s) := kept_setPort hk

theorem kept_recordErr {s₀ : State} {p : Port} {page base : Nat} {e : Err} {s : State} (hk : Kept s₀ s) : Kept s₀ (recordErr p page base e s) := by
  unfold recordErr
  repeat' first
    | with_reducible assumption
    | with_reducible refine kept_updHost (by first | rfl | (split <;> rfl)) ?_
    | with_reducible refine kept_emptyWrite ?_

theorem kept_beforeWrite {s₀ : State} {r : Reg} {s : State} (hk : Kept s₀ s) : Kept s₀ (beforeWrite r s) := by
  unfold beforeWrite
  repeat' first
    | with_reducible assumption
    | with_reducible refine kept_pump ?_
    | with_reducible refine kept_fifoDrain ?_
    | split

theorem kept_commitReg {s₀ : State} {who : Agent} {strap : Bool} {x : RegAt} {v : Nat} {s : State} (hk : Kept s₀ s) : Kept s₀ (commitReg who strap x v s) := by
  unfold commitReg
  repeat' first
    | with_reducible assumption
    | with_reducible refine kept_writeDo ?_
    | with_reducible refine kept_emptyWrite ?_
    | with_reducible refine kept_recordErr ?_
    | with_reducible refine kept_beforeWrite ?_
    | split
    | (with_reducible apply Kept.mk_; iterate 7 rfl
       first | rfl | simp [State.shape]
       first | exact Nat.le_refl _ | simp
       first | exact Nat.le_refl _ | simp)

theorem kept_ringWrite {s₀ : State} {a : Nat} {w : HWord} {be : BitVec 2} {s : State} (hk : Kept s₀ s) : Kept s₀ (ringWrite a w be s) := by
  refine hk.ringMem fun m => ?_
  have h1 : Memory.wf 0 (if be.getLsbD 0 = true then Memory.write 0 s.ringMem a (w.setWidth 8) else s.ringMem) := by
    split
    · exact memory_wf_write _ _ m
    · exact m
  split
  · exact memory_wf_write _ _ h1
  · exact h1

theorem kept_turnTo {s₀ : State} {p : Port} {page : Nat} {s : State} (hk : Kept s₀ s) : Kept s₀ (turnTo p page s) := by
  unfold turnTo
  repeat' first
    | with_reducible assumption
    | with_reducible refine kept_updHost (by first | rfl | (split <;> rfl)) ?_
    | split

theorem kept_portWrite {s₀ : State} {p : Port} {strap : Bool} {page off v : Nat} {s : State} (hk : Kept s₀ s) : Kept s₀ (portWrite p strap page off v s) := by
  unfold portWrite
  repeat' first
    | with_reducible assumption
    | with_reducible refine kept_recordErr ?_
    | with_reducible refine kept_commitReg ?_
    | with_reducible refine kept_ringWrite ?_
    | with_reducible refine kept_turnTo ?_
    | split

theorem kept_agentWrite {s₀ : State} {who : Agent} {page off v : Nat} {s : State} (hk : Kept s₀ s) : Kept s₀ (agentWrite who page off v s) := by
  unfold agentWrite
  repeat' first
    | with_reducible assumption
    | with_reducible refine kept_commitReg ?_
    | with_reducible refine kept_portWrite ?_
    | split

theorem kept_holdWord {s₀ : State} {p : Port} {x : RegAt} {k : Nat} {w : HWord} {s : State} (hk : Kept s₀ s) : Kept s₀ (holdWord p x k w s) := kept_setPort hk

theorem kept_regWord {s₀ : State} {p : Port} {strap : Bool} {x : RegAt} {k : Nat} {w : HWord} {s : State} (hk : Kept s₀ s) : Kept s₀ (regWord p strap x k w s) := by
  unfold regWord
  repeat' first
    | with_reducible assumption
    | with_reducible refine kept_emptyWrite ?_
    | with_reducible refine kept_recordErr ?_
    | with_reducible refine kept_commitReg ?_
    | with_reducible refine kept_holdWord ?_
    | split

theorem kept_wordWrite {s₀ : State} {p : Port} {strap : Bool} {page off : Nat} {w : HWord} {be : BitVec 2} {s : State} (hk : Kept s₀ s) : Kept s₀ (wordWrite p strap page off w be s) := by
  unfold wordWrite
  repeat' first
    | with_reducible assumption
    | with_reducible refine kept_recordErr ?_
    | with_reducible refine kept_ringWrite ?_
    | with_reducible refine kept_regWord ?_
    | split

theorem kept_regRead {s₀ : State} {p : Port} {x : RegAt} {k : Nat} {s : State} (hk : Kept s₀ s) : Kept s₀ (regRead p x k s).1 := by
  unfold regRead
  repeat' first
    | with_reducible assumption
    | with_reducible refine kept_updMbx ?_
    | with_reducible refine kept_baseRead ?_
    | with_reducible refine kept_setPort ?_
    | split

theorem kept_wordRead {s₀ : State} {p : Port} {page off : Nat} {s : State} (hk : Kept s₀ s) : Kept s₀ (wordRead p page off s).1 := by
  unfold wordRead
  repeat' first
    | with_reducible assumption
    | with_reducible refine kept_regRead ?_
    | split

theorem kept_wordReads {s₀ : State} {p : Port} {page : Nat} {l : List Nat} {s : State} (hk : Kept s₀ s) : Kept s₀ (wordReads p page l s).1 := by
  induction l generalizing s with
  | nil => exact hk
  | cons o t ih => exact ih (kept_wordRead hk)

theorem kept_portRead {s₀ : State} {p : Port} {page : Nat} {offs : List Nat} {s : State} (hk : Kept s₀ s) :
    Kept s₀ (portRead p page offs s) := Kept.ite (kept_updHost rfl (kept_wordReads hk)) hk

theorem kept_portReadAt {s₀ : State} {p : Port} {page : Nat} {offs : List Nat} {s : State} (hk : Kept s₀ s) : Kept s₀ (portReadAt p page offs s) := by
  unfold portReadAt
  repeat' first
    | with_reducible assumption
    | with_reducible refine kept_turnTo ?_
    | with_reducible refine kept_portRead ?_
    | split

theorem kept_portReadReg {s₀ : State} {p : Port} {page off : Nat} {s : State} (hk : Kept s₀ s) : Kept s₀ (portReadReg p page off s) := by
  unfold portReadReg
  repeat' first
    | with_reducible assumption
    | with_reducible refine kept_portReadAt ?_
    | split

theorem kept_write0 {s₀ : State} {p : Port} {off v : Nat} {s : State} (hk : Kept s₀ s) : Kept s₀ (write0 p off v s) := kept_portWrite hk

theorem kept_modeRequest {s₀ : State} {via : ReqVia} {req : Nat} {s : State} (hk : Kept s₀ s) : Kept s₀ (modeRequest via req s) := by
  unfold modeRequest
  repeat' first
    | with_reducible assumption
    | with_reducible refine kept_chanRequest ?_
    | with_reducible refine kept_write0 ?_
    | split

theorem kept_agentRead {s₀ : State} {who : Agent} {off : Nat} {r : Reg} {s : State} (hk : Kept s₀ s) : Kept s₀ (agentRead who off r s) := by
  unfold agentRead
  repeat' first
    | with_reducible assumption
    | with_reducible refine kept_baseRead ?_
    | with_reducible refine kept_portReadReg ?_
    | split

theorem kept_logNotice {s₀ : State} {r : Nat} {m : Words} {s : State} (hk : Kept s₀ s) : Kept s₀ (logNotice r m s) := by
  unfold logNotice
  repeat' first
    | with_reducible assumption
    | with_reducible refine kept_ringPush ?_
    | split

theorem kept_refuseEntry {s₀ : State} {r : Nat} {s : State} (hk : Kept s₀ s) : Kept s₀ (refuseEntry r s) := by
  unfold refuseEntry
  repeat' first
    | with_reducible assumption
    | with_reducible refine kept_updRing ?_
    | with_reducible refine kept_updUart ?_
    | with_reducible refine kept_ringPop ?_
    | with_reducible refine kept_ringDone ?_
    | with_reducible refine kept_sendReply ?_
    | split

theorem kept_tapDo {s₀ : State} {op : TapOp} {s : State} (hk : Kept s₀ s) : Kept s₀ (tapDo op s) := by
  unfold tapDo
  repeat' first
    | with_reducible assumption
    | split
    | (with_reducible apply Kept.mk_; iterate 7 rfl
       first | rfl | simp [State.shape]
       first | exact Nat.le_refl _ | simp
       first | exact Nat.le_refl _ | simp)

end Sys2Proof.Laws
end

