-- ==== Sys2Proof/Laws/Ops.lean ====
section
/-! SUPPORT. What each shared operation can do, said once: units read back after an update, rings and replies, faults,
port accesses, acceptance and the carder's rounds, the close of a window, and a step. -/

namespace Sys2Proof.Laws

open Sys2Proof.Machine

variable (s : State)

/-! ## A unit after an update -/

theorem slotAt_setSlot (i k : Nat) (x : Slot) : slotAt (setSlot i x s) k = if k = i then x else slotAt s k := store_get_set_eq _ _ _ _
theorem descAt_setDesc (i k : Nat) (x : Desc) : descAt (setDesc i x s) k = if k = i then x else descAt s k := store_get_set_eq _ _ _ _
theorem ringState_updRing (i k : Nat) (f : Ring → Ring) :
    ringState (updRing i f s) k = if k = i ∧ i < s.rings.length then f (ringState s k) else ringState s k := getD_updAt _ _ _ _ _
theorem mbxAt_updMbx (i k : Nat) (f : Mbx → Mbx) :
    mbxAt (updMbx i f s) k = if k = i ∧ i < s.mbx.length then f (mbxAt s k) else mbxAt s k := getD_updAt _ _ _ _ _
theorem uartAt_updUart (i k : Nat) (f : Uart → Uart) :
    uartAt (updUart i f s) k = if k = i ∧ i < s.uarts.length then f (uartAt s k) else uartAt s k := getD_updAt _ _ _ _ _
theorem timerAt_updTimer (i k : Nat) (f : Timer → Timer) :
    timerAt (updTimer i f s) k = if k = i ∧ i < s.timers.length then f (timerAt s k) else timerAt s k := getD_updAt _ _ _ _ _
theorem cvAt_updCv (i k : Nat) (f : Cv → Cv) :
    cvAt (updCv i f s) k = if k = i ∧ i < s.cv.chans.length then f (cvAt s k) else cvAt s k := getD_updAt _ _ _ _ _
theorem sapAt_updSap (i k : Nat) (f : Sap → Sap) :
    sapAt (updSap i f s) k = if k = i ∧ i < s.audio.saps.length then f (sapAt s k) else sapAt s k := getD_updAt _ _ _ _ _
theorem rxAt_updRx (i k : Nat) (f : AesRx → AesRx) :
    rxAt (updRx i f s) k = if k = i ∧ i < s.audio.rx.length then f (rxAt s k) else rxAt s k := getD_updAt _ _ _ _ _
theorem txAt_updTx (i k : Nat) (f : AesTx → AesTx) :
    txAt (updTx i f s) k = if k = i ∧ i < s.audio.tx.length then f (txAt s k) else txAt s k := getD_updAt _ _ _ _ _
theorem pdmAt_updPdm (i k : Nat) (f : Pdm → Pdm) :
    pdmAt (updPdm i f s) k = if k = i ∧ i < s.audio.pdm.length then f (pdmAt s k) else pdmAt s k := getD_updAt _ _ _ _ _
theorem domAt_updDom (i k : Nat) (f : Domain → Domain) :
    domAt (updDom i f s) k = if k = i ∧ i < s.clocks.dom.length then f (domAt s k) else domAt s k := getD_updAt _ _ _ _ _
theorem winAt_updWin (i k : Nat) (f : Window → Window) :
    winAt (updWin i f s) k = if k = i ∧ i < s.host.wins.length then f (winAt s k) else winAt s k := getD_updAt _ _ _ _ _
theorem schCore_updCore (i k : Nat) (f : SchCore → SchCore) :
    schCore (updCore i f s) k = if k = i ∧ i < s.sched.cores.length then f (schCore s k) else schCore s k := getD_updAt _ _ _ _ _

/-! ## Interrupts and determinism -/

/-- Raising an interrupt changes INT_STAT's latched bits, or nothing. -/
theorem raiseInt_cases (n : Nat) : raiseInt n s = s ∨
    (bitAt s.host.intLatched n = false ∧ raiseInt n s = { s with host := { s.host with intLatched := s.host.intLatched + 2 ^ n } }) := by
  unfold raiseInt
  split
  · exact .inl rfl
  · rename_i h; exact .inr ⟨by simpa using h, rfl⟩

/-- Voiding determinism changes DET_STAT, and latches interrupt 10 where VALID falls. -/
theorem voidDet_cases (f : Det → Det) :
    let t := { s with det := { f s.det with void_ := true } }
    (detValid s = true ∧ voidDet f s = raiseInt 10 t) ∨ (detValid s = false ∧ voidDet f s = t) := by
  unfold voidDet
  cases h : detValid s
  · exact .inr ⟨rfl, by simp⟩
  · exact .inl ⟨rfl, by simp⟩

/-! ## Rings -/

/-- A push enters the entry at HEAD, or counts it as lost on a full ring; without such a ring nothing happens. -/
theorem ringPush_cases (r : Nat) (e : Words) :
    (hringOf s r = none ∧ ringPush r e s = s) ∨
    (∃ h, hringOf s r = some h ∧ ringCount (ringState s r) < 2 ^ h.size ∧ ringPush r e s =
      { updRing r (fun x => { x with head := x.head + 1, seen := x.head + 1, at_ := s.now }) s with
        ringMem := Memory.writeWs 0 s.ringMem (ringAddr h (ringState s r).head.toNat) e }) ∨
    (∃ h, hringOf s r = some h ∧ 2 ^ h.size ≤ ringCount (ringState s r) ∧
      ringPush r e s = updRing r (fun x => { x with lost := satInc 255 x.lost }) s) := by
  unfold ringPush
  cases hh : hringOf s r with
  | none => exact .inl ⟨rfl, rfl⟩
  | some h =>
    by_cases hc : ringCount (ringState s r) < 2 ^ h.size
    · exact .inr (.inl ⟨h, rfl, hc, by simp [hc]⟩)
    · exact .inr (.inr ⟨h, rfl, Nat.le_of_not_lt hc, by simp [hc]⟩)

/-- A push leaves all but the rings and ring memory. -/
theorem ringPush_frame (r : Nat) (e : Words) : { ringPush r e s with rings := s.rings, ringMem := s.ringMem } = s := by
  obtain ⟨-, h⟩ | ⟨_, -, -, h⟩ | ⟨_, -, -, h⟩ := ringPush_cases s r e <;> rw [h] <;> rfl

/-- A push leaves the other rings. -/
theorem ringState_ringPush_of_ne {r k : Nat} (e : Words) (h : k ≠ r) : ringState (ringPush r e s) k = ringState s k := by
  obtain ⟨-, j⟩ | ⟨_, -, -, j⟩ | ⟨_, -, -, j⟩ := ringPush_cases s r e <;> rw [j]
  · exact (ringState_updRing s r k _).trans (by simp [h])
  · exact (ringState_updRing s r k _).trans (by simp [h])

/-- A pop moves TAIL of its ring by one. -/
theorem ringState_ringPop (r k : Nat) : ringState (ringPop r s) k =
    if k = r ∧ r < s.rings.length then { ringState s k with tail := (ringState s k).tail + 1 } else ringState s k := ringState_updRing s r k _

/-- A reply is a push into the REPLY ring of its source, or nothing. -/
theorem sendReply_cases (src : Source) (e : Words) :
    (replyRing s src = none ∧ sendReply src e s = s) ∨ ∃ r, replyRing s src = some r ∧ sendReply src e s = ringPush r e s := by
  unfold sendReply replyRing
  cases s.hood with
  | none => exact .inl ⟨rfl, rfl⟩
  | some h =>
    cases hf : h.rings.reply.find? fun x => x.1 == src with
    | none => exact .inl ⟨by simp [hf], by simp [hf]⟩
    | some x => exact .inr ⟨x.2, by simp [hf], by simp [hf]⟩

/-- A reply leaves all but the rings and ring memory. -/
theorem sendReply_frame (src : Source) (e : Words) : { sendReply src e s with rings := s.rings, ringMem := s.ringMem } = s := by
  obtain ⟨-, h⟩ | ⟨r, -, h⟩ := sendReply_cases s src e <;> rw [h]
  exact ringPush_frame s r e

/-! ## Faults -/

/-- A fault is entered in the log and latches interrupt 14, or sets OVF on a full log. -/
theorem logFault_cases (cls unit resp : Nat) :
    (s.flt.log.length < 16 ∧ logFault cls unit resp s =
      raiseInt 14 { s with flt := { s.flt with log := s.flt.log ++ [⟨cls, unit, resp, s.frame.cnt % 2 ^ 32⟩] } }) ∨
    (16 ≤ s.flt.log.length ∧ logFault cls unit resp s = { s with flt := { s.flt with ovf := true } }) := by
  unfold logFault
  by_cases h : s.flt.log.length < 16
  · exact .inl ⟨h, if_pos h⟩
  · exact .inr ⟨Nat.le_of_not_lt h, if_neg h⟩

/-- A fault is answered by a yield of a running lead, the retirement of a shadow, SAFE, or a log entry alone. -/
theorem raiseFault_cases (cls unit : Nat) :
    let t := if (singleClass cls || cls == 2) && inPeriod s then detFault s else s
    raiseFault cls unit s = beginYield (logFault cls unit 2 t) ∨ raiseFault cls unit s = enterSafe (twinRetire (logFault cls unit 3 t)) ∨
    raiseFault cls unit s = enterSafe (logFault cls unit 1 t) ∨ raiseFault cls unit s = logFault cls unit 0 t := by
  unfold raiseFault
  dsimp only
  generalize (if (singleClass cls || cls == 2) && inPeriod s then detFault s else s) = t
  split
  · exact .inl rfl
  · split
    · exact .inr (.inl rfl)
    · split
      · exact .inr (.inr (.inl rfl))
      · exact .inr (.inr (.inr rfl))

/-- Counting an ECC event changes the counters alone. -/
theorem countEcc_frame (k : EccKind) : { countEcc k s with flt := s.flt } = s := by cases k <;> rfl

/-! ## Port accesses -/

/-- A refused write leaves the record in HOST_ERR and empties the write latch of its port. -/
theorem recordErr_host (p : Port) (page base : Nat) (e : Err) : { recordErr p page base e s with host := s.host } = s := by cases p <;> rfl

/-- What a refused write of a port leaves, once the host port's HPAGE names the register's page. -/
theorem recordErr_refusalIn (p : Port) (page base : Nat) (e : Err) (hp : p = .host → s.host.hpage = page) :
    RefusalIn s (recordErr p page base e s) p page base e := by
  cases p
  · simp only [RefusalIn, recordErr, emptyWrite, setPort, portSt, updHost, if_pos, ← hp rfl]; simp
  · simp [RefusalIn, recordErr, emptyWrite, setPort, portSt, updHost]

/-- A commit by a port is refused with the code of its checks, or takes effect. -/
theorem commitReg_cases (p : Port) (strap : Bool) (x : RegAt) (v : Nat) :
    let m := beforeWrite x.reg s
    (writeErr m (.port p) x v ≠ .ok ∧ commitReg (.port p) strap x v s = recordErr p x.page x.base (writeErr m (.port p) x v) s) ∨
    (writeErr m (.port p) x v = .ok ∧ commitReg (.port p) strap x v s =
      writeDo (.port p) strap x.reg v (if x.width = 1 then m else emptyWrite p m)) := by
  by_cases h : writeErr (beforeWrite x.reg s) (.port p) x v = .ok
  · exact .inr ⟨h, by simp only [commitReg]; exact if_pos h⟩
  · exact .inl ⟨h, by simp only [commitReg]; exact if_neg h⟩

/-! ## Acceptance -/

/-- The carder refuses a record with a reply, or enters it in the pending store. -/
theorem accept_cases (src : Source) (r : EvRec) :
    (acceptErr s src r ≠ .ok ∧ accept src r s = sendReply src (refusedRec r (acceptErr s src r)) s) ∨
    (acceptErr s src r = .ok ∧ ∃ late, accept src r s = noteLink src r (effStamp s r).1 late (enterStore src r (effStamp s r).1 late s)) := by
  unfold accept
  by_cases h : acceptErr s src r = .ok
  · exact .inr ⟨h, (effStamp s r).2 || (src == .twin && Words.fld r 0 19 19 == 1), by simp [h]⟩
  · exact .inl ⟨h, by simp [h]⟩

/-- Noting an entry for the link changes the pair's state alone. -/
theorem noteLink_frame (src : Source) (r : EvRec) (eff : Nat) (late : Bool) : { noteLink src r eff late s with twin := s.twin } = s := by
  unfold noteLink
  split
  · rfl
  · split <;> rfl

/-- An entry of the store changes the carder alone. -/
theorem enterStore_frame (src : Source) (r : EvRec) (eff : Nat) (late : Bool) : { enterStore src r eff late s with carder := s.carder } = s := rfl

/-- With nothing offered the carder's rounds do nothing. -/
theorem drainTurns_of_none {limit : Nat} (n : Nat) (h : offering s = []) : drainTurns limit n s = s := by
  have ht : turns s = [] := by simp [turns, h]
  induction n with
  | zero => rfl
  | succ n ih => rw [drainTurns, show drainStep limit s = s by unfold drainStep; rw [ht], ih]

/-- With nothing offered the carder has only looked. -/
theorem drain_of_none (limit : Nat) (h : offering s = []) :
    drain limit s = { s with carder := { s.carder with upTo := max s.carder.upTo limit } } := by
  unfold drain
  rw [drainTurns_of_none s _ h]

/-! ## Frames -/

/-- The close of a window ends the running period, starts a frame, or finds no frames running. -/
theorem closeWindow_cases (t c : Nat) (fresh : Bool) (errs : List FrameErr) :
    (framesRun s = false ∧ closeWindow t c fresh errs s = s) ∨
    (framesRun s = true ∧ leaves s = true ∧ closeWindow t c fresh errs s = leaveAt c s) ∨
    (framesRun s = true ∧ leaves s = false ∧ closeWindow t c fresh errs s = startFrame t c fresh errs s) := by
  unfold closeWindow
  cases framesRun s
  · exact .inl ⟨rfl, rfl⟩
  · cases leaves s
    · exact .inr (.inr ⟨rfl, rfl, rfl⟩)
    · exact .inr (.inl ⟨rfl, rfl, rfl⟩)

/-- A frame whose step 5 is past is not finished again. -/
theorem finishFrame_of_closed (errs : List FrameErr) (h : s.frame.open_ = false) : finishFrame errs s = s := by
  unfold finishFrame
  rw [if_neg (by simp [h])]

/-! ## Steps -/

/-- A step takes the front of the queue, or idles. -/
theorem step_cases : (s.pending = [] ∧ step s = .next s) ∨ ∃ c l, s.pending = c :: l ∧ step s = exec c { s with pending := l } := by
  unfold step
  cases h : s.pending with
  | nil => exact .inl ⟨rfl, rfl⟩
  | cons c l => exact .inr ⟨c, l, rfl, rfl⟩

end Sys2Proof.Laws
end

