-- ==== Sys2Proof/Laws/PerInstr.lean ====
section
/-! SUPPORT. A statement about every command, one lemma per constructor: exactly the instruction commands issue a word,
and the word goes to the engine whose operand well-formedness checks. -/

namespace Sys2Proof.Laws.Issues

open Sys2Proof.Machine

/-- The engine to which a command issues an instruction word is the engine that its operands name (R203). -/
def Statement (i : Instr) : Prop := (engWord i).map (·.1) = engOf i

theorem masterTick (t : Nat) (errs : List FrameErr) : Statement (.masterTick t errs) := rfl
theorem heldTickStart (t : Nat) : Statement (.heldTickStart t) := rfl
theorem preemption (e : BitVec 4) : Statement (.preemption e) := rfl
theorem samplePartitionStart (e : BitVec 4) : Statement (.samplePartitionStart e) := rfl
theorem backgroundResume (e : BitVec 4) : Statement (.backgroundResume e) := rfl
theorem engineOverrun (e : BitVec 4) (early : Bool) : Statement (.engineOverrun e early) := rfl
theorem reservedInstruction (g : EngAt) (w : DWord) : Statement (.reservedInstruction g w) := rfl
theorem nop (g : EngAt) (x : BitVec 23) (y : BitVec 23) : Statement (.nop g x y) := rfl
theorem mpy (g : EngAt) (p : ParArgs) : Statement (.mpy g p) := rfl
theorem mac (g : EngAt) (p : ParArgs) : Statement (.mac g p) := rfl
theorem msu (g : EngAt) (p : ParArgs) : Statement (.msu g p) := rfl
theorem clr (g : EngAt) (p : AccArgs) : Statement (.clr g p) := rfl
theorem adda (g : EngAt) (m : BitVec 2) (p : AccArgs) : Statement (.adda g m p) := rfl
theorem suba (g : EngAt) (m : BitVec 2) (p : AccArgs) : Statement (.suba g m p) := rfl
theorem nega (g : EngAt) (p : AccArgs) : Statement (.nega g p) := rfl
theorem absa (g : EngAt) (p : AccArgs) : Statement (.absa g p) := rfl
theorem shla (g : EngAt) (k : BitVec 4) (p : AccArgs) : Statement (.shla g k p) := rfl
theorem shra (g : EngAt) (k : BitVec 4) (p : AccArgs) : Statement (.shra g k p) := rfl
theorem rnda (g : EngAt) (p : AccArgs) : Statement (.rnda g p) := rfl
theorem addd (g : EngAt) (src : BitVec 4) (p : AccArgs) : Statement (.addd g src p) := rfl
theorem subd (g : EngAt) (src : BitVec 4) (p : AccArgs) : Statement (.subd g src p) := rfl
theorem ldd (g : EngAt) (src : BitVec 4) (p : AccArgs) : Statement (.ldd g src p) := rfl
theorem cmpa (g : EngAt) (m : BitVec 2) (p : AccArgs) : Statement (.cmpa g m p) := rfl
theorem tsta (g : EngAt) (p : AccArgs) : Statement (.tsta g p) := rfl
theorem maxa (g : EngAt) (m : BitVec 2) (p : AccArgs) : Statement (.maxa g m p) := rfl
theorem mina (g : EngAt) (m : BitVec 2) (p : AccArgs) : Statement (.mina g m p) := rfl
theorem sela (g : EngAt) (m : BitVec 2) (c : BitVec 4) (p : AccArgs) : Statement (.sela g m c p) := rfl
theorem ld (g : EngAt) (m : MoveArgs) (reg : BitVec 4) (o : Around) : Statement (.ld g m reg o) := rfl
theorem st (g : EngAt) (m : MoveArgs) (reg : BitVec 4) (o : Around) : Statement (.st g m reg o) := rfl
theorem sta (g : EngAt) (m : MoveArgs) (acc : BitVec 2) (sh : BitVec 3) (o : Around) : Statement (.sta g m acc sh o) := rfl
theorem lda (g : EngAt) (m : MoveArgs) (acc : BitVec 2) (o : Around) : Statement (.lda g m acc o) := rfl
theorem ldp (g : EngAt) (m : MoveArgs) (ptr : BitVec 3) (o : Around) : Statement (.ldp g m ptr o) := rfl
theorem wideStore (g : EngAt) (acc : BitVec 2) (a : WideArgs) : Statement (.wideStore g acc a) := rfl
theorem wideLoad (g : EngAt) (acc : BitVec 2) (a : WideArgs) : Statement (.wideLoad g acc a) := rfl
theorem brd (g : EngAt) (bus : BitVec 9) (reg : BitVec 4) (x : BitVec 23) (y : BitVec 23) : Statement (.brd g bus reg x y) := rfl
theorem bwr (g : EngAt) (bus : BitVec 9) (reg : BitVec 4) (x : BitVec 23) (y : BitVec 23) : Statement (.bwr g bus reg x y) := rfl
theorem bwra (g : EngAt) (bus : BitVec 9) (acc : BitVec 2) (sh : BitVec 2) (x : BitVec 23) (y : BitVec 23) : Statement (.bwra g bus acc sh x y) := rfl
theorem trd (g : EngAt) (tap : BitVec 9) (reg : BitVec 4) (x : BitVec 23) (y : BitVec 23) : Statement (.trd g tap reg x y) := rfl
theorem twr (g : EngAt) (line : BitVec 9) (reg : BitVec 4) (x : BitVec 23) (y : BitVec 23) : Statement (.twr g line reg x y) := rfl
theorem mov (g : EngAt) (dst : BitVec 8) (src : BitVec 8) : Statement (.mov g dst src) := rfl
theorem movi (g : EngAt) (dst : BitVec 8) (imm : Word) : Statement (.movi g dst imm) := rfl
theorem modp (g : EngAt) (p : BitVec 3) (imm : BitVec 16) : Statement (.modp g p imm) := rfl
theorem add (g : EngAt) (d : BitVec 4) (src : BitVec 4) : Statement (.add g d src) := rfl
theorem sub (g : EngAt) (d : BitVec 4) (src : BitVec 4) : Statement (.sub g d src) := rfl
theorem addi (g : EngAt) (d : BitVec 4) (imm : Word) : Statement (.addi g d imm) := rfl
theorem andi (g : EngAt) (d : BitVec 4) (imm : Word) : Statement (.andi g d imm) := rfl
theorem ori (g : EngAt) (d : BitVec 4) (imm : Word) : Statement (.ori g d imm) := rfl
theorem xori (g : EngAt) (d : BitVec 4) (imm : Word) : Statement (.xori g d imm) := rfl
theorem shl (g : EngAt) (d : BitVec 4) (n : BitVec 5) : Statement (.shl g d n) := rfl
theorem shr (g : EngAt) (d : BitVec 4) (n : BitVec 5) : Statement (.shr g d n) := rfl
theorem asr (g : EngAt) (d : BitVec 4) (n : BitVec 5) : Statement (.asr g d n) := rfl
theorem cmpd (g : EngAt) (d : BitVec 4) (src : BitVec 4) : Statement (.cmpd g d src) := rfl
theorem cmpdi (g : EngAt) (d : BitVec 4) (imm : Word) : Statement (.cmpdi g d imm) := rfl
theorem rep (g : EngAt) (n : BitVec 16) : Statement (.rep g n) := rfl
theorem repr (g : EngAt) (d : BitVec 4) : Statement (.repr g d) := rfl
theorem loop (g : EngAt) (addr : BitVec 13) (n : BitVec 16) : Statement (.loop g addr n) := rfl
theorem loopr (g : EngAt) (d : BitVec 4) (addr : BitVec 13) : Statement (.loopr g d addr) := rfl
theorem lsave (g : EngAt) : Statement (.lsave g) := rfl
theorem lrest (g : EngAt) : Statement (.lrest g) := rfl
theorem end_ (g : EngAt) : Statement (.end_ g) := rfl
theorem tend (g : EngAt) : Statement (.tend g) := rfl
theorem br (g : EngAt) (cond : BitVec 4) (addr : BitVec 13) : Statement (.br g cond addr) := rfl
theorem noteStart (src : Source) (a : EvArgs) : Statement (.noteStart src a) := rfl
theorem noteRelease (src : Source) (a : EvArgs) : Statement (.noteRelease src a) := rfl
theorem noteKill (src : Source) (a : EvArgs) : Statement (.noteKill src a) := rfl
theorem voiceSet (src : Source) (a : EvArgs) : Statement (.voiceSet src a) := rfl
theorem groupSet (src : Source) (a : EvArgs) : Statement (.groupSet src a) := rfl
theorem placeSet (src : Source) (a : EvArgs) : Statement (.placeSet src a) := rfl
theorem tempo (src : Source) (a : EvArgs) : Statement (.tempo src a) := rfl
theorem fulSet (src : Source) (a : EvArgs) : Statement (.fulSet src a) := rfl
theorem bankSwap (src : Source) (a : EvArgs) : Statement (.bankSwap src a) := rfl
theorem xfStart (src : Source) (a : EvArgs) : Statement (.xfStart src a) := rfl
theorem xfFinish (src : Source) (a : EvArgs) : Statement (.xfFinish src a) := rfl
theorem delaySet (src : Source) (a : EvArgs) : Statement (.delaySet src a) := rfl
theorem cvSet (src : Source) (a : EvArgs) : Statement (.cvSet src a) := rfl
theorem regionEnable (src : Source) (a : EvArgs) : Statement (.regionEnable src a) := rfl
theorem commit (src : Source) (a : EvArgs) : Statement (.commit src a) := rfl
theorem commitDrop (src : Source) (a : EvArgs) : Statement (.commitDrop src a) := rfl
theorem mark (src : Source) (a : EvArgs) : Statement (.mark src a) := rfl
theorem reservedOpcode (src : Source) (op : BitVec 8) (a : EvArgs) : Statement (.reservedOpcode src op a) := rfl
theorem stealFadeEnd (slot : BitVec 11) : Statement (.stealFadeEnd slot) := rfl
theorem crossfadeEnd (e : BitVec 4) : Statement (.crossfadeEnd e) := rfl
theorem streamLineArrival (o : LineOwner) (l : LineAt) (ecc : EccKind) : Statement (.streamLineArrival o l ecc) := rfl
theorem streamLineLate (o : LineOwner) (l : LineAt) : Statement (.streamLineLate o l) := rfl
theorem cellArrival (slot : BitVec 11) (ecc : EccKind) : Statement (.cellArrival slot ecc) := rfl
theorem cellLate (slot : BitVec 11) : Statement (.cellLate slot) := rfl
theorem delayFetchLate (tap : BitVec 8) : Statement (.delayFetchLate tap) := rfl
theorem meterWindowEnd (m : BitVec 4) : Statement (.meterWindowEnd m) := rfl
theorem watchdogExpiry (t : Nat) : Statement (.watchdogExpiry t) := rfl
theorem holdOutputMute (t : Nat) : Statement (.holdOutputMute t) := rfl
theorem relock (d : BitVec 2) (t : Nat) : Statement (.relock d t) := rfl
theorem portFrame (i : IfaceId) (t : Nat) (rise fall : List (BitVec 3)) : Statement (.portFrame i t rise fall) := rfl
theorem portStop (p : BitVec 3) (t : Nat) : Statement (.portStop p t) := rfl
theorem portRestart (p : BitVec 3) (t : Nat) : Statement (.portRestart p t) := rfl
theorem syncStartTrigger (t : Nat) : Statement (.syncStartTrigger t) := rfl
theorem groupGo (port : Port) (g : BitVec 2) (v : Word) : Statement (.groupGo port g v) := rfl
theorem groupStart (g : BitVec 2) : Statement (.groupStart g) := rfl
theorem asrcLock (d : BitVec 2) : Statement (.asrcLock d) := rfl
theorem asrcUnlock (d : BitVec 2) (t : Nat) : Statement (.asrcUnlock d t) := rfl
theorem aesFrameReceive (r : BitVec 2) (t : Nat) (a : BitVec 28) (b : BitVec 28) (f : AesMarks) : Statement (.aesFrameReceive r t a b f) := rfl
theorem aesLock (r : BitVec 2) : Statement (.aesLock r) := rfl
theorem aesUnlock (r : BitVec 2) : Statement (.aesUnlock r) := rfl
theorem aesBlockComplete (r : BitVec 2) : Statement (.aesBlockComplete r) := rfl
theorem nonaudioRelease (r : BitVec 2) : Statement (.nonaudioRelease r) := rfl
theorem aesTxBlockStart (x : BitVec 2) : Statement (.aesTxBlockStart x) := rfl
theorem aesTxPllLock (x : BitVec 2) : Statement (.aesTxPllLock x) := rfl
theorem pdmOutputSample (k : BitVec 2) (t : Nat) (rise fall : List (BitVec 16)) : Statement (.pdmOutputSample k t rise fall) := rfl
theorem pdmSettled (k : BitVec 2) : Statement (.pdmSettled k) := rfl
theorem srst (port : Port) (k : BitVec 2) (v : Word) : Statement (.srst port k v) := rfl
theorem synchronisingReset (k : BitVec 2) : Statement (.synchronisingReset k) := rfl
theorem pdmStop (k : BitVec 2) (t : Nat) : Statement (.pdmStop k t) := rfl
theorem pdmRestart (k : BitVec 2) (edges : Nat) : Statement (.pdmRestart k edges) := rfl
theorem pdmBankRequest (port : Port) (k : BitVec 2) (v : Word) : Statement (.pdmBankRequest port k v) := rfl
theorem pdmCdataAccess (port : Port) (write : Bool) (v : Word) : Statement (.pdmCdataAccess port write v) := rfl
theorem pair (port : Port) (v : Word) : Statement (.pair port v) := rfl
theorem pairingChecks (p : PartnerId) : Statement (.pairingChecks p) := rfl
theorem linkEntry (r : Words) : Statement (.linkEntry r) := rfl
theorem markReceive (t : Nat) (m : MarkMsg) : Statement (.markReceive t m) := rfl
theorem markLoss (t : Nat) : Statement (.markLoss t) := rfl
theorem takeover (t : Nat) : Statement (.takeover t) := rfl
theorem faultNSeen (t : Nat) : Statement (.faultNSeen t) := rfl
theorem leadYield : Statement (.leadYield) := rfl
theorem leadRetire : Statement (.leadRetire) := rfl
theorem swap (port : Port) (v : Word) : Statement (.swap port v) := rfl
theorem swapRoleExchange : Statement (.swapRoleExchange) := rfl
theorem linkupChange (up : Bool) : Statement (.linkupChange up) := rfl
theorem sineGeneratorUpdate (t : Nat) : Statement (.sineGeneratorUpdate t) := rfl
theorem spanChangeEnd (c : BitVec 4) (t : Nat) : Statement (.spanChangeEnd c t) := rfl
theorem deglitchEnd (c : BitVec 4) (t : Nat) : Statement (.deglitchEnd c t) := rfl
theorem monitorSlot (i : Nat) (reading : BitVec 12) (t : Nat) : Statement (.monitorSlot i reading t) := rfl
theorem cvPol (port : Port) (v : Word) : Statement (.cvPol port v) := rfl
theorem blockingStart (port : Port) (v : Word) : Statement (.blockingStart port v) := rfl
theorem hoodFifo (port : Port) (w : Word) : Statement (.hoodFifo port w) := rfl
theorem hoodFifoStarvation (t : Nat) : Statement (.hoodFifoStarvation t) := rfl
theorem pass1 (body : Hood) (bad : Option (Nat × Err)) : Statement (.pass1 body bad) := rfl
theorem pass2 (dramMb : Nat) (trained : Bool) : Statement (.pass2 dramMb trained) := rfl
theorem restoreComplete : Statement (.restoreComplete) := rfl
theorem runRequest (via : ReqVia) : Statement (.runRequest via) := rfl
theorem runEntry (t : Nat) : Statement (.runEntry t) := rfl
theorem stopRequest (via : ReqVia) : Statement (.stopRequest via) := rfl
theorem leaveRunningMode (t : Nat) : Statement (.leaveRunningMode t) := rfl
theorem sleepRequest (via : ReqVia) : Statement (.sleepRequest via) := rfl
theorem serviceRequest (via : ReqVia) : Statement (.serviceRequest via) := rfl
theorem readyRequest (via : ReqVia) : Statement (.readyRequest via) := rfl
theorem modeStatus (c : BitVec 4) : Statement (.modeStatus c) := rfl
theorem wakeEvent (src : WakeSource) (t : Nat) : Statement (.wakeEvent src t) := rfl
theorem wakeEnd (t : Nat) (hood code : EccKind) : Statement (.wakeEnd t hood code) := rfl
theorem powerOnReset (strap : Bool) : Statement (.powerOnReset strap) := rfl
theorem pinReset (lowNs : Nat) (strap : Bool) : Statement (.pinReset lowNs strap) := rfl
theorem full (port : Port) (v : Word) (strap : Bool) : Statement (.full port v strap) := rfl
theorem core (port : Port) (v : Word) : Statement (.core port v) := rfl
theorem firstWatchdogExpiry : Statement (.firstWatchdogExpiry) := rfl
theorem secondWatchdogExpiry (strap : Bool) : Statement (.secondWatchdogExpiry strap) := rfl
theorem domainPowerFault (d : BitVec 4) : Statement (.domainPowerFault d) := rfl
theorem controlSramUncorrectable (ring : Option (BitVec 6)) : Statement (.controlSramUncorrectable ring) := rfl
theorem domainRestartEngine (port : Port) (v : Word) : Statement (.domainRestartEngine port v) := rfl
theorem domainRestartCluster (port : Port) (v : Word) : Statement (.domainRestartCluster port v) := rfl
theorem domainRestartComplete : Statement (.domainRestartComplete) := rfl
theorem registerWrite (who : Agent) (a : RegAddr) (v : DWord) : Statement (.registerWrite who a v) := rfl
theorem lowerWordWrite (port : Port) (a : RegAddr) (w : HWord) (be : BitVec 2) : Statement (.lowerWordWrite port a w be) := rfl
theorem baseWordRead (port : Port) (a : RegAddr) : Statement (.baseWordRead port a) := rfl
theorem readClear (port : Port) (a : RegAddr) : Statement (.readClear port a) := rfl
theorem fltLogRead (port : Port) : Statement (.fltLogRead port) := rfl
theorem sync (port : Port) (v : Word) : Statement (.sync port v) := rfl
theorem prst (v : Word) : Statement (.prst v) := rfl
theorem srstSpi (v : Word) : Statement (.srstSpi v) := rfl
theorem spiWrite (a : RegAddr) (ws : List HWord) : Statement (.spiWrite a ws) := rfl
theorem spiRead (a : RegAddr) (n : Nat) : Statement (.spiRead a n) := rfl
theorem spiStatus : Statement (.spiStatus) := rfl
theorem spiInvalidCommand (code : Byte) : Statement (.spiInvalidCommand code) := rfl
theorem windowRead (port : Port) (w : BitVec 3) (v : Word) : Statement (.windowRead port w v) := rfl
theorem windowWrite (port : Port) (w : BitVec 3) (v : Word) : Statement (.windowWrite port w v) := rfl
theorem windowTransferComplete (w : BitVec 3) (ecc : EccKind) : Statement (.windowTransferComplete w ecc) := rfl
theorem ringHead (who : Agent) (r : BitVec 6) (v : HWord) : Statement (.ringHead who r v) := rfl
theorem ringTail (who : Agent) (r : BitVec 6) (v : HWord) : Statement (.ringTail who r v) := rfl
theorem taskReady (c : TaskCmd) : Statement (.taskReady c) := rfl
theorem taskCancel (c : TaskCmd) : Statement (.taskCancel c) := rfl
theorem taskDelay (c : TaskCmd) : Statement (.taskDelay c) := rfl
theorem prefetchSlotFill (k : Nat) : Statement (.prefetchSlotFill k) := rfl
theorem taskDispatch (k : Nat) (t : Nat) : Statement (.taskDispatch k t) := rfl
theorem taskEnd (k : Nat) (fault : Bool) (t : Nat) : Statement (.taskEnd k fault t) := rfl
theorem millisecondTick (t : Nat) (fixes : Nat) : Statement (.millisecondTick t fixes) := rfl
theorem loadWindowEnd (t : Nat) : Statement (.loadWindowEnd t) := rfl
theorem bulkToDram (r : BitVec 6) : Statement (.bulkToDram r) := rfl
theorem bulkFromDram (r : BitVec 6) : Statement (.bulkFromDram r) := rfl
theorem bulkComplete (r : BitVec 6) (ecc : EccKind) : Statement (.bulkComplete r ecc) := rfl
theorem mailboxSend (port : Port) (c : BitVec 4) (v : Word) : Statement (.mailboxSend port c v) := rfl
theorem mailboxTake (c : BitVec 4) : Statement (.mailboxTake c) := rfl
theorem outboundSend (c : BitVec 4) (m : Words) (log : Option (BitVec 6)) : Statement (.outboundSend c m log) := rfl
theorem mbxOutRead (port : Port) (c : BitVec 4) : Statement (.mbxOutRead port c) := rfl
theorem flush (port : Port) (c : BitVec 4) (v : Word) : Statement (.flush port c v) := rfl
theorem outboundFlush (c : BitVec 4) : Statement (.outboundFlush c) := rfl
theorem info (c : BitVec 4) : Statement (.info c) := rfl
theorem latencyCount (c : BitVec 4) : Statement (.latencyCount c) := rfl
theorem latencyPath (c : BitVec 4) : Statement (.latencyPath c) := rfl
theorem ownerLock (c : BitVec 4) (digest : List Byte) : Statement (.ownerLock c digest) := rfl
theorem begin_ (c : BitVec 4) : Statement (.begin_ c) := rfl
theorem load (c : BitVec 4) : Statement (.load c) := rfl
theorem verify (c : BitVec 4) : Statement (.verify c) := rfl
theorem activate (c : BitVec 4) : Statement (.activate c) := rfl
theorem confirm (c : BitVec 4) : Statement (.confirm c) := rfl
theorem abort (c : BitVec 4) : Statement (.abort c) := rfl
theorem status (c : BitVec 4) : Statement (.status c) := rfl
theorem handoverStart : Statement (.handoverStart) := rfl
theorem handoverRestart : Statement (.handoverRestart) := rfl
theorem handoverAck : Statement (.handoverAck) := rfl
theorem handoverFallback : Statement (.handoverFallback) := rfl
theorem loaderActivate : Statement (.loaderActivate) := rfl
theorem timerStart (who : Agent) (v : Word) : Statement (.timerStart who v) := rfl
theorem timerStop (who : Agent) (n : BitVec 3) (v : Word) : Statement (.timerStop who n v) := rfl
theorem timerWrap (n : BitVec 3) : Statement (.timerWrap n) := rfl
theorem compareMatch (n : BitVec 3) : Statement (.compareMatch n) := rfl
theorem capture (n : BitVec 3) (rising : Bool) : Statement (.capture n rising) := rfl
theorem tmrCapRead (who : Agent) (n : BitVec 3) : Statement (.tmrCapRead who n) := rfl
theorem receiveCharacter (u : BitVec 2) (samples : List (BitVec 3)) : Statement (.receiveCharacter u samples) := rfl
theorem break_ (u : BitVec 2) : Statement (.break_ u) := rfl
theorem deadLine (u : BitVec 2) : Statement (.deadLine u) := rfl
theorem rxEntryIdleClose (u : BitVec 2) : Statement (.rxEntryIdleClose u) := rfl
theorem dmxBreak (u : BitVec 2) (lowUs : Nat) (highUs : Option Nat) : Statement (.dmxBreak u lowUs highUs) := rfl
theorem dmxPacketTimeout (u : BitVec 2) : Statement (.dmxPacketTimeout u) := rfl
theorem transmitCharacter (u : BitVec 2) : Statement (.transmitCharacter u) := rfl
theorem uartTxd (who : Agent) (u : BitVec 2) (v : HWord) : Statement (.uartTxd who u v) := rfl
theorem uartRxd (who : Agent) (u : BitVec 2) : Statement (.uartRxd who u) := rfl
theorem uartDisable (who : Agent) (u : BitVec 2) (v : Word) : Statement (.uartDisable who u v) := rfl
theorem midiStats (c : BitVec 4) : Statement (.midiStats c) := rfl
theorem midiSend (c : BitVec 4) : Statement (.midiSend c) := rfl
theorem dmxStatus (c : BitVec 4) : Statement (.dmxStatus c) := rfl
theorem domainTick (d : BitVec 2) (t : Nat) : Statement (.domainTick d t) := rfl
theorem timerSourceEdge (n : BitVec 3) : Statement (.timerSourceEdge n) := rfl
theorem uartRxRearm (u : BitVec 2) : Statement (.uartRxRearm u) := rfl
theorem domainPowerRecovery (d : BitVec 4) : Statement (.domainPowerRecovery d) := rfl
theorem pairingTimeout (t : Nat) (partner : Option Nat) : Statement (.pairingTimeout t partner) := rfl
theorem delayFetchArrival (tap : BitVec 8) (ecc : EccKind) (t : Nat) : Statement (.delayFetchArrival tap ecc t) := rfl
theorem confirmEnd (ok : Bool) : Statement (.confirmEnd ok) := rfl
theorem firmwareStart (t : Nat) : Statement (.firmwareStart t) := rfl
theorem tapInstruction (op : TapOp) : Statement (.tapInstruction op) := rfl

end Sys2Proof.Laws.Issues
end

