-- ==== Sys2Proof/Machine/Pins.lean ====
section
/-! DEFINITION. What the output balls carry, computed from the state (R8, R32, R273, R284, R310, R371, R387, R406, R423,
R430 to R432). The levels of a data ball within a transfer are its unit's. -/

namespace Sys2Proof.Machine

/-- What an output ball carries. -/
inductive Level where
  | low | high | highZ
  /-- An input with its pull-up. -/
  | pullUp
  /-- Electrical idle of a twin lane. -/
  | idle
  /-- Data or a clock of the unit that owns the ball. -/
  | active
  /-- What the boundary register holds; the order of its cells is not in the spec (R432). -/
  | scan
  | cv (v : CvLevel)
  | audio (d : OutDrive)
  deriving DecidableEq, Repr

/-- The output balls of *Signal balls* (R423). -/
inductive Ball where
  | ad (k : Nat) | intN (n : Nat) | spiMiso | sintN
  | qspiClk | qspiCsN | qspiIo (k : Nat)
  | tdo | tmrIo (n : Nat) | uartTx (u : Nat) | uartDe (u : Nat)
  | sapDout (p line : Nat) | aesTx (x : Nat) | cvOut (c : Nat)
  | twinTx (lane : Nat) | faultN | take
  | dramCk | dramCke | dramCs | dramData | dramResetN
  deriving DecidableEq, Repr

/-- R423: the last column of *Signal balls*: in RESET and until the unit of the ball is configured. -/
def Ball.inReset (s : State) : Ball → Level
  | .qspiClk => .low | .qspiCsN => .high | .qspiIo _ => .pullUp
  | .uartTx _ => .high | .uartDe _ => .low
  | .cvOut c => .cv (if s.part.cvs ≤ c then .highZ else .volts (zeroVolts (cvBipolar s c)))
  | .twinTx _ => .idle | .take => .low
  | .dramCk => .low | .dramCke => .low | .dramCs => .low | .dramResetN => .low
  | .ad _ => .highZ | .intN _ => .highZ | .spiMiso => .highZ | .sintN => .highZ | .tdo => .highZ | .tmrIo _ => .highZ
  | .sapDout _ _ => .highZ | .aesTx _ => .highZ | .faultN => .highZ | .dramData => .highZ

/-- R5, R8: the ball belongs to a unit that the part has not. -/
def Ball.absent (p : Part) : Ball → Bool
  | .aesTx x => decide (p.aes ≤ x)
  | .cvOut c => decide (p.cvs ≤ c)
  | .twinTx _ => !p.twin | .faultN => !p.twin | .take => !p.twin
  | _ => false

/-- R432: the balls that the boundary register does not cover. -/
def Ball.unscanned : Ball → Bool
  | .tdo => true | .twinTx _ => true | .cvOut _ => true
  | _ => false

/-- R310: an interrupt output, low while asserted. -/
def intLevel (asserted openDrain : Bool) : Level := if asserted then .low else if openDrain then .highZ else .high

/-- R310, R32, R262, R273, R284, R371, R377, R387: a ball outside RESET. `bit`: the bit time of a UART's frame; `m`: the number of
the current frame of an audio interface. -/
def Ball.running (s : State) (bit : Nat) (m : Option Nat) : Ball → Level
  | .intN n => intLevel (intAsserted s n) s.host.intod
  | .sintN => intLevel (sintAsserted s) s.host.sintod
  | .tmrIo n => if (timerAt s n).out = 0 then .highZ else if (timerAt s n).pin then .high else .low
  | .uartTx u => if (uartAt s u).txLevel bit then .high else .low
  | .uartDe u => if (uartAt s u).de then .high else .low
  | .sapDout _ _ => .audio (audioDrive s m)
  | .aesTx x => if audioDrive s m ≠ .highZ ∧ !((s.audio.tx.getD x AesTx.empty).pll) then .low else .audio (audioDrive s m)
  | .cvOut c => .cv (cvLevel s c)
  | .twinTx _ => if laneIdle s then .idle else .active
  | .faultN => if s.twin.pull then .low else .highZ
  | .take => if takes s then .high else .low
  | .dramCk => dramLevel .low | .dramCke => dramLevel .low | .dramCs => dramLevel .low
  | .dramData => dramLevel .highZ | .dramResetN => dramLevel .low
  | .ad _ => .active | .spiMiso => .active | .qspiClk => .active | .qspiCsN => .active | .qspiIo _ => .active | .tdo => .active
where
  /-- R423: until DRAM is configured, a ball has the state of RESET. -/
  dramLevel (x : Level) : Level := if dramOn s then .active else x

/-- R406, R407, R423, R431: a ball in SLEEP: AON holds TAKE, the clamps and, with DRAM in self-refresh, CKE and DRAM_RESET_N; what
belongs to an unpowered domain is as in RESET, but for the CV outputs, which are at high impedance (log entry 82). -/
def Ball.asleep (s : State) : Ball → Level
  | .cvOut _ => .cv .highZ
  | .dramCke => .low
  | .dramResetN => if dramOn s then .high else .low
  | .take => if takes s then .high else .low
  | b => b.inReset s

/-- R8, R423, R432: what an output ball carries. -/
def Ball.level (s : State) (bit : Nat) (m : Option Nat) (b : Ball) : Level :=
  if b.absent s.part then .highZ
  else if tapActs s = .highz ∧ !b.unscanned then .highZ
  else if (tapActs s = .extest ∨ tapActs s = .clamp) ∧ !b.unscanned then .scan
  else
    match s.mode.mode with
    | .reset => b.inReset s
    | .sleep => b.asleep s
    | _ => b.running s bit m

end Sys2Proof.Machine
end

