-- ==== Sys2Proof/Tests/Slice0.lean ====
section
/-! SUPPORT. Small tests: worked examples of the spec, ill-formed commands, steps, and for each statement states and operands that
meet its premises. -/

namespace Sys2Proof.Tests

open Sys2Proof Sys2Proof.Machine

/-! ## States -/

/-- A small hood: every unit, a few ports, rings of each type, one template with one group. -/
def wHood : Hood := { Hood.empty with
  hdr := ⟨0x01020304, 1, 15, false, true, true, 0, 8⟩
  units := ⟨255, 65535, 255, 15, 15, 15, true⟩
  clocks := ⟨.r96, 0, some 1, [true, true, false, false], [.r96, .r96, .r96, .r96], [0, 0, 0, 0], [0, 1, 2, 3]⟩
  dram := ⟨[(7, some ⟨0x10000, 0x1000, true⟩)], 16, [(0, some ⟨0, 64, 32⟩)], [(255, some ⟨0, 0, 63⟩)]⟩
  rings := ⟨[(0, some ⟨1, .host, .carder, 0, 3, 0⟩), (1, some ⟨2, .carder, .host, 0, 3, 8⟩), (2, some ⟨3, .carder, .spi, 0, 3, 16⟩),
    (3, some ⟨4, .host, .scheduler, 0, 3, 24⟩), (4, some ⟨5, .uart, .host, 0, 3, 32⟩), (5, some ⟨6, .spi, .uart, 1, 3, 40⟩),
    (6, some ⟨7, .host, .dram, 0, 3, 48⟩), (7, some ⟨1, .cores, .carder, 0, 3, 56⟩), (8, some ⟨2, .carder, .cores, 0, 3, 64⟩)], [(.ring 0, 1)]⟩
  ports := ⟨[(0, some ⟨0, 0, 32, 32, 0, false, none, 1, [⟨0, 0, 0⟩], [⟨0, 0, 1⟩]⟩), (7, some ⟨1, 0, 32, 32, 0, false, some 1, 1, [], []⟩)],
    [(3, some ⟨0, some 2, some 3, false, List.replicate 6 0⟩)], [(3, some ⟨0, some 4, none, true, List.replicate 6 0⟩)],
    [(3, some ⟨0, 0, 0, 0, 1, [(0, 5), (1, 6)], List.replicate 12 0, List.replicate 12 0⟩)], [0, 1, 2, 0], 0⟩
  templates := [default], groups := [{ (default : HGroup) with limit := 1, limitMax := 9, mask := 255, maskMax := 255, fade := 2, keys := 0xE4 }]
  evmap := ⟨1, [], [(2, some (.midi [])), (3, some (.dmx []))], []⟩
  engines := [(0, some { tasks := [], bgen := true, imem := [], slen := 100, x := [(0, 5)], xb := 32768, ya := [], yb := [] })]
  cv := [(0, some ⟨0, false, false, 0, 0, 0, 0, 0, 255, 15⟩), (15, some ⟨0, true, true, 1, 0, 0, 0, 0, 1, 1⟩)]
  paths := [⟨0, 1, 4, 5⟩] }

/-- An engine that runs its sample partition, just after its start. -/
def wEngine : Engine := { Engine.empty with on := true, bgen := true, slen := 100, xb := 32768, phase := .sample }

def inMode (m : Mode) (s : State) : State := { s with mode := { s.mode with mode := m } }
def fwOn (s : State) : State := { s with fw := { s.fw with bootAt := none } }

def wReady : State := { fwOn State.reset with
  mode := { ModeSt.reset with mode := .ready }, hood := some wHood, dramMb := 16, groups := wHood.groups.map groupInit
  engines := State.reset.engines.map fun g => { g with on := true, bgen := true, slen := 100, xb := 32768 }
  dly := { Delay.empty with lines := [(0, some ⟨0, 64, 32, 32⟩)], taps := [(255, some ⟨0, 0, 63, 63⟩)] } }
def wRun : State := { inMode .run wReady with frame := ⟨5, 1, 1, true, false, 0⟩ }
def wHold : State := { inMode .hold wRun with mode := { wRun.mode with mode := .hold, holdFrom := .run } }
def wLead : State := { inMode .runLead wRun with twin := { Twin.reset true with paired := true, lead := true, holder := true, instep := true, partner := true, linkup := true, pair := true } }
def wShadow : State := { inMode .runShadow wRun with twin := { Twin.reset false with paired := true, instep := true, partner := true, linkup := true, pair := true } }
def wIssue : State := setEng 0 wEngine wRun
def wTask : State := setEng 0 { wEngine with phase := .background, task := some 64 } wRun

/-- A structure that asks for memory, and a chip in LOAD: the stage, the bytes already checked and the words of the image. -/
def wBody : Hood := { wHood with hdr := { wHood.hdr with dramMin := 2048 } }
def wLoad (stage : Nat) (head : List Byte) (got : Words) : State := { inMode .load wReady with
  block := { Block.empty with src := 1, from_ := .ready, stage := stage, got := got, head := head, body := some wBody } }

/-- What a decision procedure says yes to holds. -/
theorem yes {p : Prop} (d : Decidable p) (h : @decide p d = true) : p := of_decide_eq_true h

/-- Whether the engine can issue the command's instruction is decided by computing. -/
def canIssueDec (c : Instr) (s : State) : Decidable (canIssue c s) := by
  dsimp only [canIssue, issuable]
  split <;> infer_instance

/-- Whether a register is none of the receivers' status blocks. -/
def notBlockDec (r : Reg) : Decidable (∀ c i : Nat, r ≠ .aesRxcs c i ∧ r ≠ .aesRxub c i) := by
  cases r
  case aesRxcs c i => exact isFalse fun h => (h c i).1 rfl
  case aesRxub c i => exact isFalse fun h => (h c i).2 rfl
  all_goals exact isTrue fun _ _ => ⟨nofun, nofun⟩

/-! ## Worked examples of the spec -/

/-- spec/00_scope.md, narrowing examples. -/
theorem test_narrowing : slotOut 16 0x8000 = (0x00010000, false) ∧ slotOut 16 (-0x8000) = (0, false) ∧
    slotOut 16 (-0x8001) = (0xFFFF0000, false) ∧ slotOut 16 0x7FFF8000 = (0x7FFF0000, true) := by decide +kernel
/-- spec/05_oscillators_streaming.md, middle C at 96 kHz. -/
theorem test_middle_c : pitchInc Rate.r96.base 3932160 = 11704930 := by decide +kernel
/-- spec/05_oscillators_streaming.md, saw just after the wrap, and at the jump. -/
theorem test_saw : sawf 0x00400000 0x01000000 = -0x37C00000 ∧ sawf 0 0x01000000 = 0 := by decide +kernel
/-- spec/05_oscillators_streaming.md, a clamped pitch bend: the note, and two semitones more. -/
theorem test_pitch_clamp : let z : Words := [0, 0, 0, 0, 0, 0, 3932160, 0x20000000]
    smpAdvance z 32 4718592 = 2 ^ 29 ∧ smpAdvance z 32 (4718592 + 131072) = 2 ^ 29 := by decide +kernel
/-- spec/06_filters_envelopes_shaping.md, a step into a critically damped low-pass: its second frame. -/
theorem test_svf : let f := (svfStep 0 (2 ^ 28) 0 0x40000000 filtInit).1
    let u := (svfStep 0 (2 ^ 28) 0 0x40000000 f).1
    (f.out, f.ic1, f.ic2) = (0x10000000, 0x20000000, 0x20000000) ∧ (u.out, u.ic1, u.ic2) = (0x30000000, 0, 0x40000000) := by decide +kernel
/-- spec/06_filters_envelopes_shaping.md, the first frame of a resonant ladder. -/
theorem test_ladder : let f := (ladderStep 3 (2 ^ 28) 0x40000000 (2 ^ 23) filtInit).1
    f.out = 466030 ∧ f.s = [7456480, 3728240, 1864120, 932060] := by decide +kernel
/-- spec/06_filters_envelopes_shaping.md, an attack at the rate of middle C: its first frame. -/
theorem test_attack : let c : VCtx := { (default : VCtx) with base := Rate.r96.base }
    (envStep c [0, 0] [0x7FFFFFFF, 3932160, 0, 0, 0] 0 true false false envInit).e = 0x00594D00 := by decide +kernel
/-- spec/07_modulation_placement_buses.md, velocity to cutoff: the square curve. -/
theorem test_route_curve : routeCurve 1 0x60000000 = 0x48000000 ∧ rnd (1572864 * 0x48000000) 31 = 884736 := by decide +kernel
/-- spec/07_modulation_placement_buses.md, a sound object at 45 degrees: the first frame of its ramp. -/
theorem test_send_ramp : let e := entryStep false false 0x20000000 16 { SendEntry.none with cellGain := 0x5A82 }
    e.target = 0x16A08000 ∧ e.n = 1 ∧ e.gain = 0x016A0800 := by decide +kernel
/-- spec/07_modulation_placement_buses.md, order does not matter: the bus saturates once, at the end of the frame. -/
theorem test_bus_sum : (saturate { State.reset with bus := { State.reset.bus with acc := [(40, 0x60000000 + 0x60000000 - 0x70000000)] } }).bus.val =
    [(40, 0x50000000)] := by decide +kernel
/-- spec/08_fuller_execution.md, shortening a circular buffer under a running pointer. -/
theorem test_circular : postMod 0x04B6 0x0100 1000 1 = 0x04B7 ∧ postMod 0x04B7 0x0100 600 1 = 0x0260 ∧ postMod 0x0260 0x0100 600 1 = 0x0261 ∧
    postMod 0x0100 0x0100 600 (-1) = 0x0357 := by decide +kernel
/-- spec/08_fuller_execution.md, a sum that overflows its guard bits: the 511th MAC, and the store. -/
theorem test_guard_bits : sat72 (2 ^ 71 - 2 ^ 62 + 2 ^ 62) = (2 ^ 71 - 1, true) ∧ narrow (2 ^ 71 - 1) 0 = (0x7FFFFFFF, true) := by decide +kernel
/-- spec/10_coefficients_parameters_delays.md, retuning a crossover live: k = 0, 31 and 63. -/
theorem test_crossfade : xfValue 0x10000000 0x14000000 0 6 = 0x10100000 ∧ xfValue 0x10000000 0x14000000 31 6 = 0x12000000 ∧
    xfValue 0x10000000 0x14000000 63 6 = 0x14000000 := by decide +kernel
/-- spec/18_control_voltage_outputs.md, a 3 kHz pilot tone: updates 0, 8, 16 and 48. -/
theorem test_pilot_tone : (([0, 2 ^ 29, 2 ^ 30, 3 * 2 ^ 30] : List Nat).map fun p =>
    cvSineCode { (default : Cv) with amp := 0x0800, center := 0x8000, ph := p }) = [0x8000, 0x85A8, 0x8800, 0x7800] := by decide +kernel
/-- The check value of CRC-32 (R68). -/
theorem test_crc : crc32 [49, 50, 51, 52, 53, 54, 55, 56, 57] = 0xCBF43926 := by decide +kernel
/-- The example of FIPS 180-4 for three letters. -/
theorem test_sha : sha256 [97, 98, 99] =
    [186, 120, 22, 191, 143, 1, 207, 234, 65, 65, 64, 222, 93, 174, 34, 35, 176, 3, 97, 163, 150, 23, 122, 156, 180, 16, 255, 97, 242, 0, 21, 173] := by
  decide +kernel

/-! ## Ill-formed commands, one for each check -/

theorem test_wf_source : (Instr.mark (.ring 64) default).wf = false ∧ (Instr.mark (.ring 63) default).wf = true ∧
    (Instr.mark (.core 4) default).wf = false ∧ (Instr.mark (.timer 8) default).wf = false := by decide
theorem test_wf_engine : (Instr.end_ ⟨0, 16⟩).wf = false ∧ (Instr.end_ ⟨0, 15⟩).wf = true := by decide
theorem test_wf_frame_error : (Instr.masterTick 0 [.engine 0 0 16]).wf = false ∧ (Instr.masterTick 0 [.engine 0 0 15]).wf = true := by decide
theorem test_wf_opcode : (Instr.reservedOpcode .spi 0x11 default).wf = false ∧ (Instr.reservedOpcode .spi 0x12 default).wf = true := by decide
theorem test_wf_slot : (Instr.monitorSlot 20 0 0).wf = false ∧ (Instr.prefetchSlotFill 20).wf = false ∧ (Instr.taskDispatch 20 0).wf = false ∧
    (Instr.taskEnd 20 false 0).wf = false ∧ (Instr.taskEnd 19 false 0).wf = true := by decide
theorem test_wf_record : (Instr.linkEntry []).wf = false ∧ (Instr.linkEntry (List.replicate 8 0)).wf = true ∧
    (Instr.taskReady ⟨[], .firmware⟩).wf = false := by decide
theorem test_wf_digest : (Instr.ownerLock 0 []).wf = false ∧ (Instr.ownerLock 0 (List.replicate 32 0)).wf = true := by decide

/-! ## Steps -/

/-- An empty queue idles; otherwise the front command runs with the rest of the queue. -/
theorem test_step : step State.reset = .next State.reset ∧
    step { State.reset with pending := [.spiStatus, .monitorSlot 20 0 0] } = exec .spiStatus { State.reset with pending := [.monitorSlot 20 0 0] } :=
  ⟨rfl, rfl⟩

/-- The invariant holds in a state of each kind, and a step from it answers. -/
theorem witness_StepKeepsInv : Machine.Inv { wRun with pending := [.monitorSlot 19 0 0] } ∧
    ∃ u, step { wRun with pending := [.monitorSlot 19 0 0] } = .next u := by
  refine ⟨?_, _, rfl⟩
  dsimp only [Machine.Inv, State.memWf, State.bounded, Memory.wf]
  decide +kernel
theorem witness_ExecKeeps : ∃ u, exec (.monitorSlot 19 0 0) wRun = .next u := ⟨_, rfl⟩
theorem witness_OnlyUnitsStop : (Instr.monitorSlot 19 0 0).wf = true ∧ 20 ≤ 20 := by decide

/-- The inner premises of EngineFrame: registers an ADD does not write, and one that leaves N and Z. -/
theorem witness_EngineFrame : insOf (wordReg 3 15 15 0) = .reg 3 15 15 0 ∧ 14 ∉ insWrites (.reg 3 15 15 0) ∧ 16 + 3 ∉ insWrites (.reg 3 15 15 0) ∧
    32 + 7 ∉ insWrites (.reg 3 15 15 0) ∧ 7 ∉ insPtrs (.reg 3 15 15 0) ∧ (15 : Nat) < 0x20 ∧ writesNZ (.reg 3 15 15 0) = false := by decide +kernel

/-! ## Witnesses -/

set_option linter.unusedVariables false

theorem witness_EngineWords : engFields (.br ⟨15, 0⟩ 15 8191) = some (.ctl 8 0 15 8191 0) := rfl

theorem witness_EngineSequence :
    wIssue.shape = unitCounts ∧ engWord (.add ⟨0, 0⟩ 15 15) = some (⟨0, 0⟩, wordReg 3 15 15 0) ∧
    (∀ cop reg cond addr imm, insOf (wordReg 3 15 15 0) ≠ .ctl cop reg cond addr imm) ∧ canIssue (.add ⟨0, 0⟩ 15 15) wIssue :=
  ⟨by decide +kernel, rfl, fun _ _ _ _ _ => by rw [show insOf (wordReg 3 15 15 0) = .reg 3 15 15 0 by decide +kernel]; nofun,
   yes (canIssueDec _ _) (by decide +kernel)⟩

/-- The premises of VoiceFrames' first clause, apart from what it asks of every slot. -/
def voiceFramesHyp0 (s : State) (t : Nat) (h : Hood) : Prop :=
  s.shape = unitCounts ∧ s.twin.paired = false ∧ s.frame.open_ = false ∧ s.frame.ran = true ∧ leaves s = false ∧ s.mode.mode = .run ∧
  s.clocks.heldAt = none ∧ goodTick t s ∧ s.hood = some h ∧ s.flt.restart = .none ∧ s.carder.store = [] ∧ offering s = [] ∧
  (∀ n, n < 8 → (timerAt s n).src ≠ 2) ∧ s.bus.acc = [] ∧ Store.wf Slot.free s.slots = true
def voiceFramesDec0 (s : State) (t : Nat) (h : Hood) : Decidable (voiceFramesHyp0 s t h) := by
  dsimp only [voiceFramesHyp0, goodTick]
  infer_instance
theorem witness_VoiceFrames0 : voiceFramesHyp0 wRun 0 wHood ∧
    ∀ k, (slotAt wRun k).fade = none ∧ (slotAt wRun k).killed = false ∧ (slotAt wRun k).pend = none ∧
      ((slotAt wRun k).cur.all fun a => clusterServes wRun (k / 256) && !a.ended && decide (a.first < wRun.frame.cnt + 1)) = true :=
  ⟨yes (voiceFramesDec0 _ _ _) (by decide +kernel), fun _ => ⟨rfl, rfl, rfl, rfl⟩⟩

/-- A chip at the end of a wake whose hood copy of no bytes is intact. -/
def wWake : State := { inMode .sleep wRun with
  mode := { wRun.mode with mode := .sleep, wakeAt := some 0, hoodCopy := true, codeCopy := some [], codeDigest := sha256 (codeBytes []) }
  block := { wRun.block with copyDigest := sha256 [] } }
theorem witness_Resets14 : wWake.mode.mode = .sleep ∧ wWake.mode.wakeAt = some 0 ∧ 0 + 1179648 ≤ 2000240 ∧ wWake.hood = some wHood ∧
    wWake.mode.hoodCopy = true ∧ wWake.mode.codeCopy = some [] ∧ hoodIntact wWake = true ∧ wWake.mode.codeDigest = sha256 (codeBytes []) :=
  ⟨rfl, rfl, by omega, rfl, rfl, rfl, (beq_self_eq_true (sha256 []) : hoodIntact wWake = true), by dsimp only [wWake]⟩

theorem witness_Passes8 : (wLoad 4 [0] [1]).mode.mode = .load ∧ (wLoad 4 [0] [1]).block.body = some wBody ∧ (wLoad 4 [0] [1]).block.stage = 4 ∧
    installVerdict (wLoad 4 [0] [1]) = .fail .check 0xFF (freeOff (wLoad 4 [0] [1])) := ⟨rfl, rfl, rfl, rfl⟩

/-- The premises of FrameEnds, and of its inner clauses for a meter, a port with outputs and inputs, and a transmitter. -/
def frameEndsHyp (s : State) (t k p r : Nat) (x : Meter) (h : HPort) (a : HAes) : Prop :=
  s.shape = unitCounts ∧ s.twin.paired = false ∧ s.frame.open_ = true ∧ s.frame.ran = true ∧ leaves s = false ∧ s.mode.mode = .run ∧
  s.clocks.heldAt = none ∧ goodTick t s ∧ s.frame.tickAt + (max (94 + 60 * (rateOf s).voices) (266 + (rateOf s).limit) + 16) ≤ t ∧
  (∀ d, d < 4 → (domAt s d).run < 1024) ∧ (∀ d, d < 4 → syncDomain s d = true ∨ (domAt s d).lock = false) ∧
  (∀ n, n < 8 → (timerAt s n).src ≠ 2) ∧
  let m : State := (List.range 16).foldl (fun u e => finishEngine [] e u) s
  m.frame.open_ = true ∧ m.mode = s.mode ∧ m.bus.meters[k]? = some x ∧ x.en = true ∧ x.next = none ∧
  hportOf s p = some h ∧ p < 8 ∧ grpStarted s h = true ∧ h.outs ≠ [] ∧ h.ins ≠ [] ∧ syncDomain s h.domain = true ∧ htxOf s r = some a ∧ r < 4
def frameEndsDec (s : State) (t k p r : Nat) (x : Meter) (h : HPort) (a : HAes) : Decidable (frameEndsHyp s t k p r x h a) := by
  dsimp only [frameEndsHyp, goodTick]
  infer_instance
theorem witness_FrameEnds : frameEndsHyp { wRun with
    frame := ⟨5, 1, 1, true, true, 0⟩, bus := { wRun.bus with meters := wRun.bus.meters.set 15 { (default : Meter) with en := true } }
    audio := { wRun.audio with grps := wRun.audio.grps.set 0 ⟨true, false, none, 0⟩ } }
    13192 15 0 3 { (default : Meter) with en := true } ⟨0, 0, 32, 32, 0, false, none, 1, [⟨0, 0, 0⟩], [⟨0, 0, 1⟩]⟩
    ⟨0, some 4, none, true, List.replicate 6 0⟩ :=
  yes (frameEndsDec _ _ _ _ _ _ _ _) (by decide +kernel)

/-- The premises of EngineAccumulators (EngineProducts), by clause. -/
def engineProductsHyp (clause : Nat) (s : State) (g : EngAt) (p : ParArgs) : Prop :=
  (s.shape = unitCounts) ∧
  match clause with
  | 0 => (canIssue (.mpy g p) s)
  | 1 => (canIssue (.mac g p) s)
  | 2 => (canIssue (.msu g p) s)
  | _ => False

def engineProductsDec (clause : Nat) (s : State) (g : EngAt) (p : ParArgs) : Decidable (engineProductsHyp clause s g p) := by
  have := canIssueDec
  dsimp only [engineProductsHyp]
  split <;> infer_instance

/-- States and operands that meet the premises of each clause of EngineAccumulators. -/
theorem witness_EngineProducts :
    engineProductsHyp 0 wIssue ⟨0, 0⟩ ⟨0, 0, 0, 0, 0⟩ ∧
    engineProductsHyp 1 wIssue ⟨0, 0⟩ ⟨0, 0, 0, 0, 0⟩ ∧
    engineProductsHyp 2 wIssue ⟨0, 0⟩ ⟨0, 0, 0, 0, 0⟩ :=
  ⟨yes (engineProductsDec _ _ _ _) (by decide +kernel),
   yes (engineProductsDec _ _ _ _) (by decide +kernel),
   yes (engineProductsDec _ _ _ _) (by decide +kernel)⟩

/-- The premises of EngineAccumulators (EngineSums), by clause. -/
def engineSumsHyp (s : State) (g : EngAt) (p : AccArgs) (m : BitVec 2) (k : BitVec 4) (d : BitVec 4) : Prop :=
  (s.shape = unitCounts) ∧ (canIssue (.adda g m p) s) ∧ (canIssue (.suba g m p) s) ∧ (canIssue (.nega g p) s) ∧ (canIssue (.absa g p) s) ∧
      (canIssue (.shla g k p) s) ∧ (canIssue (.rnda g p) s) ∧ (canIssue (.addd g d p) s) ∧ (canIssue (.subd g d p) s)

def engineSumsDec (s : State) (g : EngAt) (p : AccArgs) (m : BitVec 2) (k : BitVec 4) (d : BitVec 4) : Decidable (engineSumsHyp s g p m k d) := by
  have := canIssueDec
  dsimp only [engineSumsHyp]
  infer_instance

/-- States and operands that meet the premises of each clause of EngineAccumulators. -/
theorem witness_EngineSums :
    engineSumsHyp wIssue ⟨0, 0⟩ ⟨0, 0, 0⟩ 0 1 0 :=
  yes (engineSumsDec _ _ _ _ _ _) (by decide +kernel)

/-- The premises of EngineAccumulators (EnginePlaces), by clause. -/
def enginePlacesHyp (s : State) (g : EngAt) (p : AccArgs) (m : BitVec 2) (k : BitVec 4) (d : BitVec 4) (c : BitVec 4) : Prop :=
  (s.shape = unitCounts) ∧ (canIssue (.clr g p) s) ∧ (canIssue (.ldd g d p) s) ∧ (canIssue (.maxa g m p) s) ∧ (canIssue (.mina g m p) s) ∧
      (canIssue (.sela g m c p) s) ∧ (canIssue (.shra g k p) s)

def enginePlacesDec (s : State) (g : EngAt) (p : AccArgs) (m : BitVec 2) (k : BitVec 4) (d : BitVec 4)
    (c : BitVec 4) : Decidable (enginePlacesHyp s g p m k d c) := by
  have := canIssueDec
  dsimp only [enginePlacesHyp]
  infer_instance

/-- States and operands that meet the premises of each clause of EngineAccumulators. -/
theorem witness_EnginePlaces :
    enginePlacesHyp wIssue ⟨0, 0⟩ ⟨0, 0, 0⟩ 0 1 0 0 :=
  yes (enginePlacesDec _ _ _ _ _ _ _) (by decide +kernel)

/-- The premises of EngineAccumulators (EngineCompares), by clause. -/
def engineComparesHyp (s : State) (g : EngAt) (p : AccArgs) (m : BitVec 2) (d : BitVec 4) (r : BitVec 4) (imm : Word) : Prop :=
  (s.shape = unitCounts) ∧ (canIssue (.cmpa g m p) s) ∧ (canIssue (.tsta g p) s) ∧ (canIssue (.cmpd g d r) s) ∧ (canIssue (.cmpdi g d imm) s)

def engineComparesDec (s : State) (g : EngAt) (p : AccArgs) (m : BitVec 2) (d : BitVec 4) (r : BitVec 4)
    (imm : Word) : Decidable (engineComparesHyp s g p m d r imm) := by
  have := canIssueDec
  dsimp only [engineComparesHyp]
  infer_instance

/-- States and operands that meet the premises of each clause of EngineAccumulators. -/
theorem witness_EngineCompares :
    engineComparesHyp wIssue ⟨0, 0⟩ ⟨0, 0, 0⟩ 0 0 0 0 :=
  yes (engineComparesDec _ _ _ _ _ _ _) (by decide +kernel)

/-- The premises of EngineAccumulators (EnginePins), by clause. -/
def enginePinsHyp (s : State) (g : EngAt) (m : MoveArgs) (a : BitVec 2) (o : Around) (w : WideArgs) (src : BitVec 8) (imm : Word) : Prop :=
  (s.shape = unitCounts) ∧ (canIssue (.lda g m a o) s) ∧ (canIssue (.wideLoad g a w) s) ∧ (canIssue (.mov g (BitVec.ofNat 8 (0x10 + a.toNat)) src) s)
      ∧ (canIssue (.movi g (BitVec.ofNat 8 (0x10 + a.toNat)) imm) s)

def enginePinsDec (s : State) (g : EngAt) (m : MoveArgs) (a : BitVec 2) (o : Around) (w : WideArgs) (src : BitVec 8)
    (imm : Word) : Decidable (enginePinsHyp s g m a o w src imm) := by
  have := canIssueDec
  dsimp only [enginePinsHyp]
  infer_instance

/-- States and operands that meet the premises of each clause of EngineAccumulators. -/
theorem witness_EnginePins :
    enginePinsHyp wIssue ⟨0, 0⟩ ⟨false, 0, 3, 0⟩ 0 ⟨0, 0, 0, 0, 0⟩ ⟨0, 3, 0, 0, 3, 0, 0, 0, 0, 0⟩ 0 0 :=
  yes (enginePinsDec _ _ _ _ _ _ _ _) (by decide +kernel)

/-- The premises of EngineTransfers (EngineLoads), by clause. -/
def engineLoadsHyp (clause : Nat) (s : State) (g : EngAt) (m : MoveArgs) (reg : BitVec 4) (a : BitVec 2) (q : BitVec 3) (o : Around) : Prop :=
  (s.shape = unitCounts) ∧
  match clause with
  | 0 => (canIssue (.ld g m reg o) s)
  | 1 => (canIssue (.lda g m a o) s)
  | 2 => (canIssue (.ldp g m q o) s)
  | _ => False

def engineLoadsDec (clause : Nat) (s : State) (g : EngAt) (m : MoveArgs) (reg : BitVec 4) (a : BitVec 2) (q : BitVec 3)
    (o : Around) : Decidable (engineLoadsHyp clause s g m reg a q o) := by
  have := canIssueDec
  dsimp only [engineLoadsHyp]
  split <;> infer_instance

/-- States and operands that meet the premises of each clause of EngineTransfers. -/
theorem witness_EngineLoads :
    engineLoadsHyp 0 wIssue ⟨0, 0⟩ ⟨false, 0, 3, 0⟩ 0 0 0 ⟨0, 0, 0, 0, 0⟩ ∧
    engineLoadsHyp 1 wIssue ⟨0, 0⟩ ⟨false, 0, 3, 0⟩ 0 0 0 ⟨0, 0, 0, 0, 0⟩ ∧
    engineLoadsHyp 2 wIssue ⟨0, 0⟩ ⟨false, 0, 3, 0⟩ 0 0 0 ⟨0, 0, 0, 0, 0⟩ :=
  ⟨yes (engineLoadsDec _ _ _ _ _ _ _ _) (by decide +kernel),
   yes (engineLoadsDec _ _ _ _ _ _ _ _) (by decide +kernel),
   yes (engineLoadsDec _ _ _ _ _ _ _ _) (by decide +kernel)⟩

/-- The premises of EngineTransfers (EngineStores), by clause. -/
def engineStoresHyp (clause : Nat) (s : State) (g : EngAt) (m : MoveArgs) (reg : BitVec 4) (a : BitVec 2) (sh : BitVec 3) (o : Around) : Prop :=
  (s.shape = unitCounts) ∧
  match clause with
  | 0 => (canIssue (.st g m reg o) s)
  | 1 => (canIssue (.sta g m a sh o) s)
  | _ => False

def engineStoresDec (clause : Nat) (s : State) (g : EngAt) (m : MoveArgs) (reg : BitVec 4) (a : BitVec 2) (sh : BitVec 3)
    (o : Around) : Decidable (engineStoresHyp clause s g m reg a sh o) := by
  have := canIssueDec
  dsimp only [engineStoresHyp]
  split <;> infer_instance

/-- States and operands that meet the premises of each clause of EngineTransfers. -/
theorem witness_EngineStores :
    engineStoresHyp 0 wIssue ⟨0, 0⟩ ⟨false, 0, 3, 0⟩ 0 0 0 ⟨0, 0, 0, 0, 0⟩ ∧
    engineStoresHyp 1 wIssue ⟨0, 0⟩ ⟨false, 0, 3, 0⟩ 0 0 0 ⟨0, 0, 0, 0, 0⟩ :=
  ⟨yes (engineStoresDec _ _ _ _ _ _ _ _) (by decide +kernel),
   yes (engineStoresDec _ _ _ _ _ _ _ _) (by decide +kernel)⟩

/-- The premises of EngineTransfers (EngineWide), by clause. -/
def engineWideHyp (clause : Nat) (s : State) (g : EngAt) (n : BitVec 2) (a : WideArgs) : Prop :=
  (s.shape = unitCounts) ∧
  match clause with
  | 0 => (canIssue (.wideLoad g n a) s)
  | 1 => (canIssue (.wideStore g n a) s)
  | _ => False

def engineWideDec (clause : Nat) (s : State) (g : EngAt) (n : BitVec 2) (a : WideArgs) : Decidable (engineWideHyp clause s g n a) := by
  have := canIssueDec
  dsimp only [engineWideHyp]
  split <;> infer_instance

/-- States and operands that meet the premises of each clause of EngineTransfers. -/
theorem witness_EngineWide :
    engineWideHyp 0 wIssue ⟨0, 0⟩ 0 ⟨0, 3, 0, 0, 3, 0, 0, 0, 0, 0⟩ ∧
    engineWideHyp 1 wIssue ⟨0, 0⟩ 0 ⟨0, 3, 0, 0, 3, 0, 0, 0, 0, 0⟩ :=
  ⟨yes (engineWideDec _ _ _ _ _) (by decide +kernel),
   yes (engineWideDec _ _ _ _ _) (by decide +kernel)⟩

/-- The premises of EngineTransfers (PointerSteps), by clause. -/
def pointerStepsHyp (clause : Nat) (s : State) (g : EngAt) (m : MoveArgs) (reg : BitVec 4) (a : BitVec 2) (sh : BitVec 3) (o : Around) (q : BitVec 3)
    (imm : BitVec 16) (w : WideArgs) : Prop :=
  let pn := if m.isY then m.ptr.toNat + 4 else m.ptr.toNat
  let moved := (moveDests (moveOf o.other.toNat)).contains (32 + pn)
  (s.shape = unitCounts) ∧
  match clause with
  | 0 => (canIssue (.ld g m reg o) s) ∧ (moved = false)
  | 1 => (canIssue (.st g m reg o) s) ∧ (moved = false)
  | 2 => (canIssue (.modp g q imm) s)
  | 3 => (canIssue (.sta g m a sh o) s) ∧ (moved = false)
  | 4 => (canIssue (.lda g m a o) s) ∧ (moved = false)
  | 5 => (canIssue (.ldp g m q o) s) ∧ (moved = false) ∧ (q.toNat ≠ pn)
  | 6 => (canIssue (.wideLoad g a w) s)
  | 7 => (canIssue (.wideStore g a w) s)
  | _ => False

def pointerStepsDec (clause : Nat) (s : State) (g : EngAt) (m : MoveArgs) (reg : BitVec 4) (a : BitVec 2) (sh : BitVec 3) (o : Around) (q : BitVec 3)
    (imm : BitVec 16) (w : WideArgs) : Decidable (pointerStepsHyp clause s g m reg a sh o q imm w) := by
  have := canIssueDec
  dsimp only [pointerStepsHyp]
  split <;> infer_instance

/-- States and operands that meet the premises of each clause of EngineTransfers. -/
theorem witness_PointerSteps :
    pointerStepsHyp 0 wIssue ⟨0, 0⟩ ⟨false, 0, 3, 0⟩ 0 0 0 ⟨0, 0, 0, 0, 0⟩ 0 0 ⟨0, 3, 0, 0, 3, 0, 0, 0, 0, 0⟩ ∧
    pointerStepsHyp 1 wIssue ⟨0, 0⟩ ⟨false, 0, 3, 0⟩ 0 0 0 ⟨0, 0, 0, 0, 0⟩ 0 0 ⟨0, 3, 0, 0, 3, 0, 0, 0, 0, 0⟩ ∧
    pointerStepsHyp 2 wIssue ⟨0, 0⟩ ⟨false, 0, 3, 0⟩ 0 0 0 ⟨0, 0, 0, 0, 0⟩ 0 0 ⟨0, 3, 0, 0, 3, 0, 0, 0, 0, 0⟩ ∧
    pointerStepsHyp 3 wIssue ⟨0, 0⟩ ⟨false, 0, 3, 0⟩ 0 0 0 ⟨0, 0, 0, 0, 0⟩ 0 0 ⟨0, 3, 0, 0, 3, 0, 0, 0, 0, 0⟩ ∧
    pointerStepsHyp 4 wIssue ⟨0, 0⟩ ⟨false, 0, 3, 0⟩ 0 0 0 ⟨0, 0, 0, 0, 0⟩ 0 0 ⟨0, 3, 0, 0, 3, 0, 0, 0, 0, 0⟩ ∧
    pointerStepsHyp 5 wIssue ⟨0, 0⟩ ⟨false, 1, 3, 0⟩ 0 0 0 ⟨0, 0, 0, 0, 0⟩ 0 0 ⟨0, 3, 0, 0, 3, 0, 0, 0, 0, 0⟩ ∧
    pointerStepsHyp 6 wIssue ⟨0, 0⟩ ⟨false, 0, 3, 0⟩ 0 0 0 ⟨0, 0, 0, 0, 0⟩ 0 0 ⟨0, 3, 0, 0, 3, 0, 0, 0, 0, 0⟩ ∧
    pointerStepsHyp 7 wIssue ⟨0, 0⟩ ⟨false, 0, 3, 0⟩ 0 0 0 ⟨0, 0, 0, 0, 0⟩ 0 0 ⟨0, 3, 0, 0, 3, 0, 0, 0, 0, 0⟩ :=
  ⟨yes (pointerStepsDec _ _ _ _ _ _ _ _ _ _ _) (by decide +kernel),
   yes (pointerStepsDec _ _ _ _ _ _ _ _ _ _ _) (by decide +kernel),
   yes (pointerStepsDec _ _ _ _ _ _ _ _ _ _ _) (by decide +kernel),
   yes (pointerStepsDec _ _ _ _ _ _ _ _ _ _ _) (by decide +kernel),
   yes (pointerStepsDec _ _ _ _ _ _ _ _ _ _ _) (by decide +kernel),
   yes (pointerStepsDec _ _ _ _ _ _ _ _ _ _ _) (by decide +kernel),
   yes (pointerStepsDec _ _ _ _ _ _ _ _ _ _ _) (by decide +kernel),
   yes (pointerStepsDec _ _ _ _ _ _ _ _ _ _ _) (by decide +kernel)⟩

/-- The premises of BackgroundWrites, by clause. -/
def backgroundWritesHyp (clause : Nat) (s : State) (g : EngAt) (m : MoveArgs) (reg : BitVec 4) (o : Around) : Prop :=
  let x := engAt s g.e.toNat
  let q := (x.bank.pN (if m.isY then m.ptr.toNat + 4 else m.ptr.toNat)).toNat
  (s.shape = unitCounts) ∧ (canIssue (.st g m reg o) s) ∧ (x.phase = .background) ∧
  match clause with
  | 0 => ((m.isY = true ∨ q < x.xb)) ∧ (moveStores (moveOf o.other.toNat) = false)
  | 1 => True
  | 2 => True
  | 3 => (detValid s = true)
  | 4 => True
  | 5 => True
  | 6 => True
  | 7 => True
  | _ => False

def backgroundWritesDec (clause : Nat) (s : State) (g : EngAt) (m : MoveArgs) (reg : BitVec 4)
    (o : Around) : Decidable (backgroundWritesHyp clause s g m reg o) := by
  have := canIssueDec
  dsimp only [backgroundWritesHyp]
  split <;> infer_instance

/-- States and operands that meet the premises of each clause of BackgroundWrites. -/
theorem witness_BackgroundWrites :
    backgroundWritesHyp 0 { wRun with engines := (wRun.engines.set 0 { (wRun.engines.getD 0 default) with phase := EngPhase.background }) } ⟨0,
        0⟩ ⟨false, 0, 3, 0⟩ 0 ⟨0, 0, 0, 0, 0⟩ ∧
    backgroundWritesHyp 1 { wRun with engines := (wRun.engines.set 0 { (wRun.engines.getD 0 default) with phase := EngPhase.background }) } ⟨0,
        0⟩ ⟨false, 0, 3, 0⟩ 0 ⟨0, 0, 0, 0, 0⟩ ∧
    backgroundWritesHyp 2 { wRun with engines := (wRun.engines.set 0 { (wRun.engines.getD 0 default) with phase := EngPhase.background }) } ⟨0,
        0⟩ ⟨false, 0, 3, 0⟩ 0 ⟨0, 0, 0, 0, 0⟩ ∧
    backgroundWritesHyp 3 { wRun with engines := (wRun.engines.set 0 { (wRun.engines.getD 0 default) with phase := EngPhase.background }) } ⟨0,
        0⟩ ⟨false, 0, 3, 0⟩ 0 ⟨0, 0, 0, 0, 0⟩ ∧
    backgroundWritesHyp 4 { wRun with engines := (wRun.engines.set 0 { (wRun.engines.getD 0 default) with phase := EngPhase.background }) } ⟨0,
        0⟩ ⟨false, 0, 3, 0⟩ 0 ⟨0, 0, 0, 0, 0⟩ ∧
    backgroundWritesHyp 5 { wRun with engines := (wRun.engines.set 0 { (wRun.engines.getD 0 default) with phase := EngPhase.background }) } ⟨0,
        0⟩ ⟨false, 0, 3, 0⟩ 0 ⟨0, 0, 0, 0, 0⟩ ∧
    backgroundWritesHyp 6 { wRun with engines := (wRun.engines.set 0 { (wRun.engines.getD 0 default) with phase := EngPhase.background }) } ⟨0,
        0⟩ ⟨false, 0, 3, 0⟩ 0 ⟨0, 0, 0, 0, 0⟩ ∧
    backgroundWritesHyp 7 { wRun with engines := (wRun.engines.set 0 { (wRun.engines.getD 0 default) with phase := EngPhase.background }) } ⟨0,
        0⟩ ⟨false, 0, 3, 0⟩ 0 ⟨0, 0, 0, 0, 0⟩ :=
  ⟨yes (backgroundWritesDec _ _ _ _ _ _) (by decide +kernel),
   yes (backgroundWritesDec _ _ _ _ _ _) (by decide +kernel),
   yes (backgroundWritesDec _ _ _ _ _ _) (by decide +kernel),
   yes (backgroundWritesDec _ _ _ _ _ _) (by decide +kernel),
   yes (backgroundWritesDec _ _ _ _ _ _) (by decide +kernel),
   yes (backgroundWritesDec _ _ _ _ _ _) (by decide +kernel),
   yes (backgroundWritesDec _ _ _ _ _ _) (by decide +kernel),
   yes (backgroundWritesDec _ _ _ _ _ _) (by decide +kernel)⟩

/-- The premises of EngineBuses, by clause. -/
def engineBusesHyp (clause : Nat) (s : State) (g : EngAt) (num : BitVec 9) (reg : BitVec 4) (a : BitVec 2) (sh : BitVec 2) (xf : BitVec 23)
    (yf : BitVec 23) : Prop :=
  (s.shape = unitCounts) ∧
  match clause with
  | 0 => (canIssue (.brd g num reg xf yf) s)
  | 1 => (canIssue (.bwr g num reg xf yf) s)
  | 2 => (canIssue (.bwra g num a sh xf yf) s)
  | _ => False

def engineBusesDec (clause : Nat) (s : State) (g : EngAt) (num : BitVec 9) (reg : BitVec 4) (a : BitVec 2) (sh : BitVec 2) (xf : BitVec 23)
    (yf : BitVec 23) : Decidable (engineBusesHyp clause s g num reg a sh xf yf) := by
  have := canIssueDec
  dsimp only [engineBusesHyp]
  split <;> infer_instance

/-- States and operands that meet the premises of each clause of EngineBuses. -/
theorem witness_EngineBuses :
    engineBusesHyp 0 wIssue ⟨0, 0⟩ 0 0 0 0 0 0 ∧
    engineBusesHyp 1 wIssue ⟨0, 0⟩ 0 0 0 0 0 0 ∧
    engineBusesHyp 2 wIssue ⟨0, 0⟩ 0 0 0 0 0 0 :=
  ⟨yes (engineBusesDec _ _ _ _ _ _ _ _ _) (by decide +kernel),
   yes (engineBusesDec _ _ _ _ _ _ _ _ _) (by decide +kernel),
   yes (engineBusesDec _ _ _ _ _ _ _ _ _) (by decide +kernel)⟩

/-- The premises of EngineBuses (DelayAccess), by clause. -/
def delayAccessHyp (clause : Nat) (s : State) (g : EngAt) (num : BitVec 9) (reg : BitVec 4) (xf : BitVec 23) (yf : BitVec 23) (tap : DlyTap)
    (ln : DlyLine) : Prop :=
  (s.shape = unitCounts) ∧
  match clause with
  | 0 => (canIssue (.trd g num reg xf yf) s) ∧ (Store.get none s.dly.taps num.toNat = some tap) ∧ (Store.get none s.dly.lines tap.line = some ln)
  | 1 => (canIssue (.twr g num reg xf yf) s) ∧ (Store.get none s.dly.lines num.toNat = some ln)
  | _ => False

def delayAccessDec (clause : Nat) (s : State) (g : EngAt) (num : BitVec 9) (reg : BitVec 4) (xf : BitVec 23) (yf : BitVec 23) (tap : DlyTap)
    (ln : DlyLine) : Decidable (delayAccessHyp clause s g num reg xf yf tap ln) := by
  have := canIssueDec
  dsimp only [delayAccessHyp]
  split <;> infer_instance

/-- States and operands that meet the premises of each clause of EngineBuses. -/
theorem witness_DelayAccess :
    delayAccessHyp 0 wIssue ⟨0, 0⟩ 255 0 0 0 ⟨0, 0, 63, 63⟩ ⟨0, 64, 32, 32⟩ ∧
    delayAccessHyp 1 wIssue ⟨0, 0⟩ 0 0 0 0 ⟨0, 0, 63, 63⟩ ⟨0, 64, 32, 32⟩ :=
  ⟨yes (delayAccessDec _ _ _ _ _ _ _ _ _) (by decide +kernel),
   yes (delayAccessDec _ _ _ _ _ _ _ _ _) (by decide +kernel)⟩

/-- The premises of EngineIntegers, by clause. -/
def engineIntegersHyp (s : State) (g : EngAt) (d : BitVec 4) (r : BitVec 4) (imm : Word) (n : BitVec 5) : Prop :=
  (s.shape = unitCounts) ∧ (canIssue (.add g d r) s) ∧ (canIssue (.sub g d r) s) ∧ (canIssue (.addi g d imm) s) ∧ (canIssue (.andi g d imm) s) ∧
      (canIssue (.ori g d imm) s) ∧ (canIssue (.xori g d imm) s) ∧ (canIssue (.shl g d n) s) ∧ (canIssue (.shr g d n) s) ∧ (canIssue (.asr g d n) s)

def engineIntegersDec (s : State) (g : EngAt) (d : BitVec 4) (r : BitVec 4) (imm : Word)
    (n : BitVec 5) : Decidable (engineIntegersHyp s g d r imm n) := by
  have := canIssueDec
  dsimp only [engineIntegersHyp]
  infer_instance

/-- States and operands that meet the premises of each clause of EngineIntegers. -/
theorem witness_EngineIntegers :
    engineIntegersHyp wIssue ⟨0, 0⟩ 0 0 0 0 :=
  yes (engineIntegersDec _ _ _ _ _ _) (by decide +kernel)

/-- The premises of EngineIntegers (EngineMoves), by clause. -/
def engineMovesHyp (clause : Nat) (s : State) (g : EngAt) (dst : BitVec 8) (src : BitVec 8) (imm : Word) : Prop :=
  (s.shape = unitCounts) ∧
  match clause with
  | 0 => (canIssue (.mov g dst src) s)
  | 1 => (canIssue (.movi g dst imm) s)
  | _ => False

def engineMovesDec (clause : Nat) (s : State) (g : EngAt) (dst : BitVec 8) (src : BitVec 8)
    (imm : Word) : Decidable (engineMovesHyp clause s g dst src imm) := by
  have := canIssueDec
  dsimp only [engineMovesHyp]
  split <;> infer_instance

/-- States and operands that meet the premises of each clause of EngineIntegers. -/
theorem witness_EngineMoves :
    engineMovesHyp 0 wIssue ⟨0, 0⟩ 0 0 0 ∧
    engineMovesHyp 1 wIssue ⟨0, 0⟩ 0 0 0 :=
  ⟨yes (engineMovesDec _ _ _ _ _ _) (by decide +kernel),
   yes (engineMovesDec _ _ _ _ _ _) (by decide +kernel)⟩

/-- The premises of EngineControl (EngineRepeats), by clause. -/
def engineRepeatsHyp (clause : Nat) (s : State) (g : EngAt) (n : BitVec 16) (d : BitVec 4) (addr : BitVec 13) (c : BitVec 4) : Prop :=
  (s.shape = unitCounts) ∧
  match clause with
  | 0 => (canIssue (.rep g n) s)
  | 1 => (canIssue (.repr g d) s)
  | 2 => (canIssue (.loop g addr n) s)
  | 3 => (canIssue (.loopr g d addr) s)
  | 4 => (canIssue (.br g c addr) s)
  | _ => False

def engineRepeatsDec (clause : Nat) (s : State) (g : EngAt) (n : BitVec 16) (d : BitVec 4) (addr : BitVec 13)
    (c : BitVec 4) : Decidable (engineRepeatsHyp clause s g n d addr c) := by
  have := canIssueDec
  dsimp only [engineRepeatsHyp]
  split <;> infer_instance

/-- States and operands that meet the premises of each clause of EngineControl. -/
theorem witness_EngineRepeats :
    engineRepeatsHyp 0 wIssue ⟨0, 0⟩ 1 0 0 0 ∧
    engineRepeatsHyp 1 { wRun with engines := (wRun.engines.set 0 { (wRun.engines.getD 0 default) with phase := EngPhase.background }) } ⟨0,
        0⟩ 0 0 0 0 ∧
    engineRepeatsHyp 2 wIssue ⟨0, 0⟩ 1 0 1 0 ∧
    engineRepeatsHyp 3 { wRun with engines := (wRun.engines.set 0 { (wRun.engines.getD 0 default) with phase := EngPhase.background }) } ⟨0,
        0⟩ 0 0 1 0 ∧
    engineRepeatsHyp 4 { wRun with engines := (wRun.engines.set 0 { (wRun.engines.getD 0 default) with phase := EngPhase.background }) } ⟨0,
        0⟩ 0 0 0 0 :=
  ⟨yes (engineRepeatsDec _ _ _ _ _ _ _) (by decide +kernel),
   yes (engineRepeatsDec _ _ _ _ _ _ _) (by decide +kernel),
   yes (engineRepeatsDec _ _ _ _ _ _ _) (by decide +kernel),
   yes (engineRepeatsDec _ _ _ _ _ _ _) (by decide +kernel),
   yes (engineRepeatsDec _ _ _ _ _ _ _) (by decide +kernel)⟩

/-- The premises of EngineControl (EngineLoopSave), by clause. -/
def engineLoopSaveHyp (clause : Nat) (s : State) (g : EngAt) : Prop :=
  (s.shape = unitCounts) ∧
  match clause with
  | 0 => (canIssue (.lsave g) s)
  | 1 => (canIssue (.lrest g) s)
  | _ => False

def engineLoopSaveDec (clause : Nat) (s : State) (g : EngAt) : Decidable (engineLoopSaveHyp clause s g) := by
  have := canIssueDec
  dsimp only [engineLoopSaveHyp]
  split <;> infer_instance

/-- States and operands that meet the premises of each clause of EngineControl. -/
theorem witness_EngineLoopSave :
    engineLoopSaveHyp 0 wIssue ⟨0, 0⟩ ∧
    engineLoopSaveHyp 1 wIssue ⟨0, 0⟩ :=
  ⟨yes (engineLoopSaveDec _ _ _) (by decide +kernel),
   yes (engineLoopSaveDec _ _ _) (by decide +kernel)⟩

/-- The premises of EngineControl (EngineEnds), by clause. -/
def engineEndsHyp (clause : Nat) (s : State) (g : EngAt) : Prop :=
  let x := engAt s g.e.toNat
  (s.shape = unitCounts) ∧
  match clause with
  | 0 => (engRuns s x = true) ∧ (x.phase = .sample) ∧ (g.perr % 16 = 0) ∧ (contextReserved x (.ctl 6 0 0 0 0) = false) ∧ (x.cyc + 5 = x.slen)
  | 1 => (canIssue (.tend g) s)
  | _ => False

def engineEndsDec (clause : Nat) (s : State) (g : EngAt) : Decidable (engineEndsHyp clause s g) := by
  have := canIssueDec
  dsimp only [engineEndsHyp]
  split <;> infer_instance

/-- States and operands that meet the premises of each clause of EngineControl. -/
theorem witness_EngineEnds :
    engineEndsHyp 0 { wIssue with engines := (wIssue.engines.set 0 { (wIssue.engines.getD 0 default) with cyc := 95 }) } ⟨0, 0⟩ ∧
    engineEndsHyp 1 { wRun with engines := (wRun.engines.set 0 { (wRun.engines.getD 0 default) with phase := EngPhase.background }) } ⟨0, 0⟩ :=
  ⟨yes (engineEndsDec _ _ _) (by decide +kernel),
   yes (engineEndsDec _ _ _) (by decide +kernel)⟩

/-- The premises of EngineControl (EngineConditions), by clause. -/
def engineConditionsHyp (clause : Nat) (c : BitVec 4) (k : Nat) : Prop :=
  match clause with
  | 0 => (k < 9)
  | 1 => (9 ≤ c.toNat)
  | _ => False

def engineConditionsDec (clause : Nat) (c : BitVec 4) (k : Nat) : Decidable (engineConditionsHyp clause c k) := by
  dsimp only [engineConditionsHyp]
  split <;> infer_instance

/-- States and operands that meet the premises of each clause of EngineControl. -/
theorem witness_EngineConditions :
    engineConditionsHyp 0 0 0 ∧
    engineConditionsHyp 1 14 0 :=
  ⟨yes (engineConditionsDec _ _ _) (by decide +kernel),
   yes (engineConditionsDec _ _ _) (by decide +kernel)⟩

/-- The premises of EngineFaults (EngineReserved), by clause. -/
def engineReservedHyp (clause : Nat) (s : State) (g : EngAt) (w : DWord) : Prop :=
  let x := engAt s g.e.toNat
  (s.shape = unitCounts) ∧ (engRuns s x = true) ∧ (g.perr % 16 = 0) ∧
  match clause with
  | 0 => (x.phase = .sample) ∧ (x.cyc + 5 < x.slen) ∧
      ((reservedWord w.toNat = true ∨ contextReserved x (insOf w.toNat) = true ∨ backgroundOnly (insOf w.toNat) = true))
  | 1 => (x.phase = .background) ∧ ((reservedWord w.toNat = true ∨ contextReserved x (insOf w.toNat) = true ∨ sampleOnly (insOf w.toNat) = true))
  | _ => False

def engineReservedDec (clause : Nat) (s : State) (g : EngAt) (w : DWord) : Decidable (engineReservedHyp clause s g w) := by
  dsimp only [engineReservedHyp]
  split <;> infer_instance

/-- States and operands that meet the premises of each clause of EngineFaults. -/
theorem witness_EngineReserved :
    engineReservedHyp 0 wIssue ⟨0, 0⟩ 1 ∧
    engineReservedHyp 1 { wRun with engines := (wRun.engines.set 0 { (wRun.engines.getD 0 default) with phase := EngPhase.background }) } ⟨0, 0⟩ 1 :=
  ⟨yes (engineReservedDec _ _ _ _) (by decide +kernel),
   yes (engineReservedDec _ _ _ _) (by decide +kernel)⟩

/-- The premises of EngineFaults (EngineOverruns), by clause. -/
def engineOverrunsHyp (clause : Nat) (s : State) (e : BitVec 4) (c : Instr) (g : EngAt) (w : Nat) : Prop :=
  (s.shape = unitCounts) ∧
  match clause with
  | 0 => ((engAt s e.toNat).phase = .sample)
  | 1 => (engWord c = some (g, w)) ∧ (g.perr % 16 = 0) ∧ (engRuns s (engAt s g.e.toNat) = true) ∧ ((engAt s g.e.toNat).phase = .sample) ∧
      (insOf w ≠ .ctl 6 0 0 0 0) ∧ ((engAt s g.e.toNat).slen ≤ (engAt s g.e.toNat).cyc + 5)
  | 2 => (canIssue (.end_ g) s)
  | _ => False

def engineOverrunsDec (clause : Nat) (s : State) (e : BitVec 4) (c : Instr) (g : EngAt)
    (w : Nat) : Decidable (engineOverrunsHyp clause s e c g w) := by
  have := canIssueDec
  dsimp only [engineOverrunsHyp]
  split <;> infer_instance

/-- States and operands that meet the premises of each clause of EngineFaults. -/
theorem witness_EngineOverruns :
    engineOverrunsHyp 0 wIssue 0 (Instr.add { e := 0x0#4, perr := 0 } 0xf#4 0xf#4) ⟨0, 0⟩ 0 ∧
    engineOverrunsHyp 1 { wIssue with engines := (wIssue.engines.set 0 { (wIssue.engines.getD 0 default) with cyc := 95 }) } 0 (Instr.add { e := 0x0#4, perr := 0 } 0xf#4 0xf#4)
        ⟨0, 0⟩ 4832097417866248192 ∧
    engineOverrunsHyp 2 wIssue 0 (Instr.add { e := 0x0#4, perr := 0 } 0xf#4 0xf#4) ⟨0, 0⟩ 0 :=
  ⟨yes (engineOverrunsDec _ _ _ _ _ _) (by decide +kernel),
   yes (engineOverrunsDec _ _ _ _ _ _) (by decide +kernel),
   yes (engineOverrunsDec _ _ _ _ _ _) (by decide +kernel)⟩

/-- The premises of EngineFaults (EngineParity), by clause. -/
def engineParityHyp (clause : Nat) (s : State) (c : Instr) (g : EngAt) (w : Nat) : Prop :=
  (s.shape = unitCounts) ∧ (engWord c = some (g, w)) ∧ (g.perr % 16 ≠ 0) ∧ (engRuns s (engAt s g.e.toNat) = true) ∧
  match clause with
  | 0 => ((engAt s g.e.toNat).phase = .sample) ∧ ((engAt s g.e.toNat).cyc + 5 < (engAt s g.e.toNat).slen)
  | 1 => ((engAt s g.e.toNat).phase = .background)
  | _ => False

def engineParityDec (clause : Nat) (s : State) (c : Instr) (g : EngAt) (w : Nat) : Decidable (engineParityHyp clause s c g w) := by
  dsimp only [engineParityHyp]
  split <;> infer_instance

/-- States and operands that meet the premises of each clause of EngineFaults. -/
theorem witness_EngineParity :
    engineParityHyp 0 wIssue (Instr.add { e := 0x0#4, perr := 15 } 0xf#4 0xf#4) ⟨0, 15⟩ 4832097417866248192 ∧
    engineParityHyp 1 { wRun with engines := (wRun.engines.set 0 { (wRun.engines.getD 0 default) with phase := EngPhase.background }) } (Instr.add { e := 0x0#4, perr := 15 } 0xf#4 0xf#4)
        ⟨0, 15⟩ 4832097417866248192 :=
  ⟨yes (engineParityDec _ _ _ _ _) (by decide +kernel),
   yes (engineParityDec _ _ _ _ _) (by decide +kernel)⟩

/-- The premises of EngineFaults (EnginePartitions), by clause. -/
def enginePartitionsHyp (clause : Nat) (s : State) (e : BitVec 4) : Prop :=
  let x := engAt s e.toNat
  (s.shape = unitCounts) ∧
  match clause with
  | 0 => (x.preReq = true) ∧ (x.phase = .background) ∧ (x.rc = 0)
  | 1 => (x.preReq = true) ∧ (x.phase ≠ .stopped)
  | 2 => (x.preReq = true) ∧ (x.phase ≠ .background)
  | 3 => (x.preReq = false) ∧ (x.due = true) ∧ (x.phase = .ready)
  | 4 => (x.phase = .ended)
  | _ => False

def enginePartitionsDec (clause : Nat) (s : State) (e : BitVec 4) : Decidable (enginePartitionsHyp clause s e) := by
  dsimp only [enginePartitionsHyp]
  split <;> infer_instance

/-- States and operands that meet the premises of each clause of EngineFaults. -/
theorem witness_EnginePartitions :
    enginePartitionsHyp 0 { wRun with engines := (wRun.engines.set 0 { (wRun.engines.getD 0 default) with phase := EngPhase.background, preReq := true }) } 0 ∧
    enginePartitionsHyp 1 { wRun with engines := (wRun.engines.set 0 { (wRun.engines.getD 0 default) with preReq := true }) } 0 ∧
    enginePartitionsHyp 2 { wRun with engines := (wRun.engines.set 0 { (wRun.engines.getD 0 default) with preReq := true }) } 0 ∧
    enginePartitionsHyp 3 { wRun with engines := (wRun.engines.set 0 { (wRun.engines.getD 0 default) with phase := EngPhase.ready, due := true }) } 0 ∧
    enginePartitionsHyp 4 { wRun with engines := (wRun.engines.set 0 { (wRun.engines.getD 0 default) with phase := EngPhase.ended }) } 0 :=
  ⟨yes (enginePartitionsDec _ _ _) (by decide +kernel),
   yes (enginePartitionsDec _ _ _) (by decide +kernel),
   yes (enginePartitionsDec _ _ _) (by decide +kernel),
   yes (enginePartitionsDec _ _ _) (by decide +kernel),
   yes (enginePartitionsDec _ _ _) (by decide +kernel)⟩

/-- The premises of FrameStarts, by clause. -/
def frameStartsHyp (clause : Nat) (s : State) (t : Nat) (d : BitVec 2) (h : Nat) (p : Nat) : Prop :=
  (s.shape = unitCounts) ∧ (s.twin.paired = false) ∧ (s.frame.open_ = false) ∧ (leaves s = false) ∧
  match clause with
  | 0 => (s.mode.mode = .run) ∧ (s.clocks.heldAt = none) ∧ (goodTick t s)
  | 1 => (s.clocks.heldAt = some h) ∧ (s.mode.mode = .run) ∧ (2 ≤ t)
  | 2 => (s.mode.pend = some p) ∧ (s.mode.mode = .ready) ∧ (p < t + 2) ∧ (windowWriting s = false) ∧ (goodTick t s)
  | 3 => (s.mode.mode = .hold) ∧ (s.mode.holdFrom = .run) ∧ (s.hood.isSome = true) ∧ (candidate s d.toNat = true) ∧ ((∀ l,
      (domAt s d.toNat).last = some l → l + glitchTime (rateOf s).cycles ≤ t)) ∧ (256 ≤ (Domain.tick (domCycles s d.toNat)
      t (domAt s d.toNat)).relock) ∧ (tickReal s d.toNat t = true) ∧ (s.clocks.relockAt ≠ some t)
  | _ => False

def frameStartsDec (clause : Nat) (s : State) (t : Nat) (d : BitVec 2) (h : Nat) (p : Nat) : Decidable (frameStartsHyp clause s t d h p) := by
  dsimp only [frameStartsHyp, goodTick]
  split <;> infer_instance

/-- States and operands that meet the premises of each clause of FrameStarts. -/
theorem witness_FrameStarts :
    frameStartsHyp 0 wRun 0 0 0 0 ∧
    frameStartsHyp 1 { wRun with clocks := { wRun.clocks with heldAt := some 0 } } 2 0 0 0 ∧
    frameStartsHyp 2 { wReady with mode := { wReady.mode with pend := some 0 }, hood := some { wHood with clocks := { wHood.clocks with rate := Rate.r48 } } } 0 0 0 0 ∧
    frameStartsHyp 3 { wRun with mode := { wRun.mode with mode := Mode.hold }, hood := some { wHood with clocks := { wHood.clocks with master := 2, domRate := (wHood.clocks.domRate.set 2 Rate.r176) } }, clocks := { wRun.clocks with dom := (wRun.clocks.dom.set 2 ⟨none, 0, 0, 256, false, 0⟩) } } 0 2 0 0 :=
  ⟨yes (frameStartsDec _ _ _ _ _ _) (by decide +kernel),
   yes (frameStartsDec _ _ _ _ _ _) (by decide +kernel),
   yes (frameStartsDec _ _ _ _ _ _) (by decide +kernel),
   yes (frameStartsDec _ _ _ _ _ _) (by decide +kernel)⟩

/-- The premises of PeriodEnds, by clause. -/
def periodEndsHyp (clause : Nat) (s : State) (t : Nat) (a : Nat) : Prop :=
  (s.shape = unitCounts) ∧ (s.twin.paired = false) ∧ (s.frame.open_ = false) ∧ (s.clocks.heldAt = none) ∧ (s.hood.isSome = true) ∧
  match clause with
  | 0 => (s.mode.mode = .run) ∧ (s.mode.stop = true) ∧ (goodTick t s)
  | 1 => (s.mode.mode = .run) ∧ (s.mode.stop = false) ∧ (s.clocks.acc = some a) ∧ (a + expiryTime (rateOf s).cycles ≤ t)
  | 2 => (s.mode.mode = .hold) ∧ (s.clocks.muted = false) ∧ (s.clocks.holdAt + 8 * (rateOf s).cycles ≤ t)
  | _ => False

def periodEndsDec (clause : Nat) (s : State) (t : Nat) (a : Nat) : Decidable (periodEndsHyp clause s t a) := by
  dsimp only [periodEndsHyp, goodTick]
  split <;> infer_instance

/-- States and operands that meet the premises of each clause of PeriodEnds. -/
theorem witness_PeriodEnds :
    periodEndsHyp 0 { wRun with mode := { wRun.mode with stop := true }, hood := some { wHood with clocks := { wHood.clocks with rate := Rate.r88 } } } 0 0 ∧
    periodEndsHyp 1 { wRun with clocks := { wRun.clocks with acc := some 0 } } 12290 0 ∧
    periodEndsHyp 2 { wRun with mode := { wRun.mode with mode := Mode.hold } } 143593 0 :=
  ⟨yes (periodEndsDec _ _ _ _) (by decide +kernel),
   yes (periodEndsDec _ _ _ _) (by decide +kernel),
   yes (periodEndsDec _ _ _ _) (by decide +kernel)⟩

/-- The premises of FrameUnits, by clause. -/
def frameUnitsHyp (clause : Nat) (s : State) (t : Nat) (d : BitVec 2) (slot : BitVec 11) (x : Fade) : Prop :=
  (s.shape = unitCounts) ∧
  match clause with
  | 0 => ((slotAt s slot.toNat).fade = some x) ∧ (framesRun s = true) ∧ (x.from_ + x.n ≤ s.frame.cnt + 1)
  | 4 => (framesRun s = true) ∧ (s.twin.paired = false) ∧ (s.hood.isSome = true) ∧ (d.toNat ≠ s.clocks.src) ∧ (tickReal s d.toNat t = true) ∧
      (s.clocks.relockAt ≠ some t) ∧ ((∀ n, n < 8 → (timerAt s n).src ≠ 2)) ∧ ((∀ a, s.clocks.acc = some a →
      t + 2 < a + expiryTime (rateOf s).cycles)) ∧ ((∀ k, k < 4 → (domAt s k).lock = true ∨ 1024 ≤ (domAt s k).run → ∃ l, (domAt s k).last = some l ∧
      t < l + expiryTime (domCycles s k)))
  | _ => False

def frameUnitsDec (clause : Nat) (s : State) (t : Nat) (d : BitVec 2) (slot : BitVec 11)
    (x : Fade) : Decidable (frameUnitsHyp clause s t d slot x) := by
  dsimp only [frameUnitsHyp]
  split <;> infer_instance

/-- States and operands that meet the premises of each clause of FrameUnits. -/
theorem witness_FrameUnits :
    frameUnitsHyp 0 { wRun with frame := ⟨46, 1, 1, true, false, 0⟩, slots := [(2, ⟨0, none, some ⟨0, 0, false⟩, none, false⟩), (0, (default : Slot))] } 0 0 2 ⟨0,
        0, false⟩ ∧
    frameUnitsHyp 4 wRun 0 1 0 ⟨0, 0, false⟩ :=
  ⟨yes (frameUnitsDec _ _ _ _ _ _) (by decide +kernel),
   yes (frameUnitsDec _ _ _ _ _ _) (by decide +kernel)⟩

def frameUnitsHyp1 (s : State) (e : BitVec 4) (x : Xf) : Prop :=
  (s.shape = unitCounts) ∧ ((engAt s e.toNat).xf = some x) ∧ (x.k + 1 = 2 ^ x.logn) ∧ (s.frame.open_ = false)

def frameUnitsDec1 (s : State) (e : BitVec 4) (x : Xf) : Decidable (frameUnitsHyp1 s e x) := by
  dsimp only [frameUnitsHyp1]
  infer_instance

theorem witness_FrameUnits1 :
    frameUnitsHyp1 { wRun with engines := (wRun.engines.set 7 { (wRun.engines.getD 7 default) with xf := some ⟨0, 0, 0, 0⟩ }) } 7 ⟨0, 0, 0, 0⟩ :=
  yes (frameUnitsDec1 _ _ _) (by decide +kernel)

def frameUnitsHyp2 (s : State) (m : BitVec 4) (x : Meter) : Prop :=
  (s.shape = unitCounts) ∧ (s.bus.meters[m.toNat]? = some x) ∧ (x.full = true)

def frameUnitsDec2 (s : State) (m : BitVec 4) (x : Meter) : Decidable (frameUnitsHyp2 s m x) := by
  dsimp only [frameUnitsHyp2]
  infer_instance

theorem witness_FrameUnits2 :
    frameUnitsHyp2 { wRun with bus := { wRun.bus with meters := (wRun.bus.meters.set 15 { (default : Meter) with full := true }) } } 15 { (default : Meter) with full := true } :=
  yes (frameUnitsDec2 _ _ _) (by decide +kernel)

def frameUnitsHyp3 (s : State) (g : BitVec 2) (x : AudGrp) (v : Nat) (f : Nat) (u : Nat) : Prop :=
  (s.shape = unitCounts) ∧ (s.audio.grps[g.toNat]? = some x) ∧ (x.trig = some v) ∧ (s.clocks.tick = some (f, u)) ∧ (framesRun s = true) ∧
      (grpModeOf s g.toNat ≠ 0) ∧ (x.started = false) ∧ (v < u + 2)

def frameUnitsDec3 (s : State) (g : BitVec 2) (x : AudGrp) (v : Nat) (f : Nat) (u : Nat) : Decidable (frameUnitsHyp3 s g x v f u) := by
  dsimp only [frameUnitsHyp3]
  infer_instance

theorem witness_FrameUnits3 :
    frameUnitsHyp3 { wRun with audio := { wRun.audio with grps := wRun.audio.grps.set 1 ⟨false, false, some 7, 0⟩ }, clocks := { wRun.clocks with tick := some (6, 7) } } 1 ⟨false,
        false, some 7, 0⟩ 7 6 7 :=
  yes (frameUnitsDec3 _ _ _ _ _ _) (by decide +kernel)

/-- The premises of Fetches, by clause. -/
def fetchesHyp (clause : Nat) (s : State) (slot : BitVec 11) (o : LineOwner) (l : LineAt) (tap : BitVec 8) (ecc : EccKind) (b : Line) (f : CellFetch)
    (x : DlyTap) (ln : DlyLine) : Prop :=
  let i := slot.toNat
  let waits := ownedLine s o l = some b
  let fetch := fun (u : State) => (slotAt u i).cur.bind fun v => v.fetch
  (s.shape = unitCounts) ∧
  match clause with
  | 0 => (waits) ∧ (b.stat = .inflight ∨ b.stat = .late) ∧ (ecc ≠ .uncorrectable)
  | 1 => (waits) ∧ (b.stat = .inflight ∨ b.stat = .late) ∧ (s.flt.eccsafe = false) ∧ (s.twin.paired = false)
  | 2 => (waits) ∧ (b.stat = .inflight)
  | 3 => (fetch s = some f) ∧ (ecc ≠ .uncorrectable)
  | 4 => (fetch s = some f) ∧ (s.flt.eccsafe = false) ∧ (s.twin.paired = false)
  | 5 => (fetch s = some f) ∧ (f.late = false)
  | 6 => (tapOf s tap.toNat = some (x, ln)) ∧ (framesRun s = true)
  | _ => False

def fetchesDec (clause : Nat) (s : State) (slot : BitVec 11) (o : LineOwner) (l : LineAt) (tap : BitVec 8) (ecc : EccKind) (b : Line) (f : CellFetch)
    (x : DlyTap) (ln : DlyLine) : Decidable (fetchesHyp clause s slot o l tap ecc b f x ln) := by
  dsimp only [fetchesHyp]
  split <;> infer_instance

/-- States and operands that meet the premises of each clause of Fetches. -/
theorem witness_Fetches :
    fetchesHyp 0 { wRun with slots := [(300, ⟨0, none, none, some { (default : Voice) with osc := [(default : OscSt), { (default : OscSt) with planes := [[], [(default : Line), ⟨31, LineStat.late, []⟩]] }, (default : OscSt)] }, false⟩)] } 0 (LineOwner.pend 0x12c#11)
        ⟨1, 1, 1⟩ 0 EccKind.clean ⟨31, LineStat.late, []⟩ (default : CellFetch) ⟨0, 0, 63, 63⟩ ⟨0, 64, 32, 32⟩ ∧
    fetchesHyp 1 { wRun with slots := [(300, ⟨0, none, none, some { (default : Voice) with osc := [(default : OscSt), { (default : OscSt) with planes := [[], [(default : Line), ⟨31, LineStat.late, []⟩]] }, (default : OscSt)] }, false⟩)] } 0 (LineOwner.pend 0x12c#11)
        ⟨1, 1, 1⟩ 0 EccKind.clean ⟨31, LineStat.late, []⟩ (default : CellFetch) ⟨0, 0, 63, 63⟩ ⟨0, 64, 32, 32⟩ ∧
    fetchesHyp 2 { wRun with slots := [(300, ⟨0, some { (default : Voice) with osc := [{ (default : OscSt) with planes := [[(default : Line), ⟨85, LineStat.inflight, []⟩]] }, (default : OscSt)] }, none, none, false⟩)] } 0 (LineOwner.cur 0x12c#11)
        ⟨0, 0, 1⟩ 0 EccKind.clean ⟨85, LineStat.inflight, []⟩ (default : CellFetch) ⟨0, 0, 63, 63⟩ ⟨0, 64, 32, 32⟩ ∧
    fetchesHyp 3 { wRun with slots := [(0, ⟨0, some { (default : Voice) with fetch := some (default : CellFetch) }, none, none, false⟩), (0, (default : Slot)), (0, (default : Slot))] } 0 (LineOwner.cur 0)
        ⟨1, 1, 1⟩ 0 EccKind.clean ⟨31, LineStat.late, []⟩ (default : CellFetch) ⟨0, 0, 63, 63⟩ ⟨0, 64, 32, 32⟩ ∧
    fetchesHyp 4 { wRun with slots := [(2047, ⟨0, some { (default : Voice) with fetch := some (default : CellFetch) }, none, none, false⟩)] } 2047 (LineOwner.cur 0)
        ⟨1, 1, 1⟩ 0 EccKind.clean ⟨31, LineStat.late, []⟩ (default : CellFetch) ⟨0, 0, 63, 63⟩ ⟨0, 64, 32, 32⟩ ∧
    fetchesHyp 5 { wRun with slots := [(0, ⟨0, some { (default : Voice) with fetch := some (default : CellFetch) }, none, none, false⟩), (0, (default : Slot)), (0, (default : Slot))] } 0 (LineOwner.cur 0)
        ⟨1, 1, 1⟩ 0 EccKind.clean ⟨31, LineStat.late, []⟩ (default : CellFetch) ⟨0, 0, 63, 63⟩ ⟨0, 64, 32, 32⟩ ∧
    fetchesHyp 6 wRun 0 (LineOwner.cur 0) ⟨0, 0, 1⟩ 255 EccKind.clean ⟨31, LineStat.late, []⟩ (default : CellFetch) ⟨0, 0, 63, 63⟩ ⟨0, 64, 32, 32⟩ :=
  ⟨yes (fetchesDec _ _ _ _ _ _ _ _ _ _ _) (by decide +kernel),
   yes (fetchesDec _ _ _ _ _ _ _ _ _ _ _) (by decide +kernel),
   yes (fetchesDec _ _ _ _ _ _ _ _ _ _ _) (by decide +kernel),
   yes (fetchesDec _ _ _ _ _ _ _ _ _ _ _) (by decide +kernel),
   yes (fetchesDec _ _ _ _ _ _ _ _ _ _ _) (by decide +kernel),
   yes (fetchesDec _ _ _ _ _ _ _ _ _ _ _) (by decide +kernel),
   yes (fetchesDec _ _ _ _ _ _ _ _ _ _ _) (by decide +kernel)⟩

/-- The premises of EventRecords, by clause. -/
def eventRecordsHyp (op : Nat) : Prop :=
  (op < 2 ^ 8)

def eventRecordsDec (op : Nat) : Decidable (eventRecordsHyp op) := by
  dsimp only [eventRecordsHyp]
  infer_instance

/-- States and operands that meet the premises of each clause of EventRecords. -/
theorem witness_EventRecords :
    eventRecordsHyp 0 :=
  yes (eventRecordsDec _) (by decide +kernel)

/-- The premises of EventsTaken (EventsAccepted), by clause. -/
def eventsAcceptedHyp (s : State) (c : Instr) (src : Source) (op : Nat) (a : EvArgs) : Prop :=
  let m := atOffer s src
  (evCmd c = some (src, op, a)) ∧ (acceptErr m src (a.toRec op) = .ok) ∧ (takesNow m src)

def eventsAcceptedDec (s : State) (c : Instr) (src : Source) (op : Nat) (a : EvArgs) : Decidable (eventsAcceptedHyp s c src op a) := by
  dsimp only [eventsAcceptedHyp, takesNow]
  infer_instance

/-- States and operands that meet the premises of each clause of EventsTaken. -/
theorem witness_EventsAccepted :
    eventsAcceptedHyp wRun (Instr.noteStart   (Source.core 0)
        { flags := 0x02#8,     target := 0x0000#16,     w1 := 0x00000000#32,     w2 := 0x00000043#32,     w3 := 0x00000000#32,     w4 := 0x00000000#32,     w5 := 0x00000000#32,     w6 := 0x00000000#32,     w7 := 0x00000000#32 })
        (Source.core 0) 1 ⟨2, 0, 0, 67, 0, 0, 0, 0, 0⟩ :=
  yes (eventsAcceptedDec _ _ _ _ _) (by decide +kernel)

/-- The premises of EventsTaken (EventsRefused), by clause. -/
def eventsRefusedHyp (clause : Nat) (s : State) (c : Instr) (src : Source) (op : Nat) (a : EvArgs) : Prop :=
  let r := a.toRec op
  let m := atOffer s src
  let e := acceptErr m src r
  (evCmd c = some (src, op, a)) ∧ (takesNow (atOffer s src) src) ∧
  match clause with
  | 0 => (e ≠ .ok)
  | 1 => (op = 0 ∨ 17 < op)
  | 2 => (acceptMode (effMode m) = false)
  | 3 => (e = .ok)
  | _ => False

def eventsRefusedDec (clause : Nat) (s : State) (c : Instr) (src : Source) (op : Nat)
    (a : EvArgs) : Decidable (eventsRefusedHyp clause s c src op a) := by
  dsimp only [eventsRefusedHyp, takesNow]
  split <;> infer_instance

/-- States and operands that meet the premises of each clause of EventsTaken. -/
theorem witness_EventsRefused :
    eventsRefusedHyp 0 wRun (Instr.commit   (Source.spi)
        { flags := 0x04#8,     target := 0x0002#16,     w1 := 0x00000000#32,     w2 := 0x0000000c#32,     w3 := 0x00000001#32,     w4 := 0x00000007#32,     w5 := 0x00000000#32,     w6 := 0x00000003#32,     w7 := 0x00000000#32 })
        Source.spi 15 ⟨4, 2, 0, 12, 1, 7, 0, 3, 0⟩ ∧
    eventsRefusedHyp 1 wRun (Instr.reservedOpcode   (Source.core 1)
        0x21#8   { flags := 0x10#8,     target := 0x0001#16,     w1 := 0x0000000b#32,     w2 := 0x00000063#32,     w3 := 0x00000000#32,     w4 := 0x00000000#32,     w5 := 0x00000001#32,     w6 := 0x00000003#32,     w7 := 0x00000000#32 })
        (Source.core 1) 33 ⟨16, 1, 11, 99, 0, 0, 1, 3, 0⟩ ∧
    eventsRefusedHyp 2 State.reset (Instr.noteRelease   (Source.twin)
        { flags := 0x10#8,     target := 0x0002#16,     w1 := 0x00000000#32,     w2 := 0x00000017#32,     w3 := 0x00000000#32,     w4 := 0x00000000#32,     w5 := 0x00000000#32,     w6 := 0x00000000#32,     w7 := 0x00000005#32 })
        Source.twin 2 ⟨16, 2, 0, 23, 0, 0, 0, 0, 5⟩ ∧
    eventsRefusedHyp 3 wRun (Instr.noteStart   (Source.core 0)
        { flags := 0x02#8,     target := 0x0000#16,     w1 := 0x00000000#32,     w2 := 0x00000043#32,     w3 := 0x00000000#32,     w4 := 0x00000000#32,     w5 := 0x00000000#32,     w6 := 0x00000000#32,     w7 := 0x00000000#32 })
        (Source.core 0) 1 ⟨2, 0, 0, 67, 0, 0, 0, 0, 0⟩ :=
  ⟨yes (eventsRefusedDec _ _ _ _ _ _) (by decide +kernel),
   yes (eventsRefusedDec _ _ _ _ _ _) (by decide +kernel),
   yes (eventsRefusedDec _ _ _ _ _ _) (by decide +kernel),
   yes (eventsRefusedDec _ _ _ _ _ _) (by decide +kernel)⟩

/-- The premises of EngineEvents, by clause. -/
def engineEventsHyp (clause : Nat) (s : State) (a : EvArgs) (op : Nat) : Prop :=
  (s.shape = unitCounts) ∧ (a.target.toNat < 16) ∧
  match clause with
  | 0 => True
  | 1 => True
  | 2 => True
  | 3 => True
  | 4 => (op = 0x08 ∨ op = 0x09 ∨ op = 0x0A ∨ op = 0x0B)
  | _ => False

def engineEventsDec (clause : Nat) (s : State) (a : EvArgs) (op : Nat) : Decidable (engineEventsHyp clause s a op) := by
  dsimp only [engineEventsHyp]
  split <;> infer_instance

/-- States and operands that meet the premises of each clause of EngineEvents. -/
theorem witness_EngineEvents :
    engineEventsHyp 0 wRun (default : EvArgs) 0 ∧
    engineEventsHyp 1 wRun (default : EvArgs) 0 ∧
    engineEventsHyp 2 wRun (default : EvArgs) 0 ∧
    engineEventsHyp 3 wRun (default : EvArgs) 0 ∧
    engineEventsHyp 4 wRun (default : EvArgs) 8 :=
  ⟨yes (engineEventsDec _ _ _ _) (by decide +kernel),
   yes (engineEventsDec _ _ _ _) (by decide +kernel),
   yes (engineEventsDec _ _ _ _) (by decide +kernel),
   yes (engineEventsDec _ _ _ _) (by decide +kernel),
   yes (engineEventsDec _ _ _ _) (by decide +kernel)⟩

/-- The premises of SettingEvents, by clause. -/
def settingEventsHyp (clause : Nat) (s : State) (a : EvArgs) (tap : DlyTap) (ln : DlyLine) (gr : Group) (h : Hood) (rg : HRegion) : Prop :=
  let ix := a.w4.toNat % 2 ^ 28
  match clause with
  | 0 => (s.groups[a.target.toNat]? = some gr)
  | 1 => (s.groups[a.target.toNat]? = some gr) ∧ (a.w4.toNat / 2 ^ 28 = 0) ∧ (ix < 6)
  | 2 => (a.w4.toNat / 2 ^ 28 = 0) ∧ (Store.get none s.dly.taps ix = some tap)
  | 3 => (a.w4.toNat / 2 ^ 28 = 1) ∧ (Store.get none s.dly.lines ix = some ln)
  | 4 => (s.hood = some h) ∧ (Store.get none h.dram.regions a.target.toNat = some rg)
  | _ => False

def settingEventsDec (clause : Nat) (s : State) (a : EvArgs) (tap : DlyTap) (ln : DlyLine) (gr : Group) (h : Hood)
    (rg : HRegion) : Decidable (settingEventsHyp clause s a tap ln gr h rg) := by
  dsimp only [settingEventsHyp]
  split <;> infer_instance

/-- States and operands that meet the premises of each clause of SettingEvents. -/
theorem witness_SettingEvents :
    settingEventsHyp 0 { wRun with groups := [(default : Group), (default : Group)] } (default : EvArgs) ⟨0, 0, 0, 0⟩ ⟨0, 0, 0, 0⟩ (default : Group)
        { wHood with dram := { wHood.dram with regions := [(1, some ⟨0, 0, false⟩)] } } ⟨0, 0, false⟩ ∧
    settingEventsHyp 1 { wRun with groups := [(default : Group), (default : Group)] } (default : EvArgs) ⟨0, 0, 0, 0⟩ ⟨0, 0, 0, 0⟩ (default : Group)
        { wHood with dram := { wHood.dram with regions := [(1, some ⟨0, 0, false⟩)] } } ⟨0, 0, false⟩ ∧
    settingEventsHyp 2 { wRun with dly := { wRun.dly with taps := [(0, some ⟨0, 0, 0, 0⟩), (0, none), (0, none), (0, none)] } } (default : EvArgs) ⟨0,
        0, 0, 0⟩ ⟨0, 0, 0, 0⟩ (default : Group) { wHood with dram := { wHood.dram with regions := [(1, some ⟨0, 0, false⟩)] } } ⟨0, 0, false⟩ ∧
    settingEventsHyp 3 { wRun with dly := { wRun.dly with lines := [(1, some ⟨0, 0, 0, 0⟩), (0, none)] } } ⟨0, 0, 0, 0, 0, 268435457, 0, 0, 0⟩ ⟨0, 0,
        0, 0⟩ ⟨0, 0, 0, 0⟩ (default : Group) { wHood with dram := { wHood.dram with regions := [(1, some ⟨0, 0, false⟩)] } } ⟨0, 0, false⟩ ∧
    settingEventsHyp 4 { wRun with hood := some { wHood with dram := { wHood.dram with regions := [(1, some ⟨0, 0, false⟩)] } } } ⟨0, 1, 0, 0, 0, 0,
        0, 0, 0⟩ ⟨0, 0, 0, 0⟩ ⟨0, 0, 0, 0⟩ (default : Group) { wHood with dram := { wHood.dram with regions := [(1, some ⟨0, 0, false⟩)] } } ⟨0, 0,
        false⟩ :=
  ⟨yes (settingEventsDec _ _ _ _ _ _ _ _) (by decide +kernel),
   yes (settingEventsDec _ _ _ _ _ _ _ _) (by decide +kernel),
   yes (settingEventsDec _ _ _ _ _ _ _ _) (by decide +kernel),
   yes (settingEventsDec _ _ _ _ _ _ _ _) (by decide +kernel),
   yes (settingEventsDec _ _ _ _ _ _ _ _) (by decide +kernel)⟩

/-- The premises of CommitSets, by clause. -/
def commitSetsHyp (clause : Nat) (s : State) (e : PendEv) : Prop :=
  (s.carder.sets.length = 15) ∧
  match clause with
  | 0 => (evCommit e.rec_ ≠ 0)
  | 1 => (evCommit e.rec_ = 0) ∧ (evOp e.rec_ = 0x0F)
  | 2 => (evCommit e.rec_ = 0) ∧ (evOp e.rec_ = 0x10)
  | 3 => (evCommit e.rec_ = 0) ∧ (evOp e.rec_ ≠ 0x0F) ∧ (evOp e.rec_ ≠ 0x10)
  | _ => False

def commitSetsDec (clause : Nat) (s : State) (e : PendEv) : Decidable (commitSetsHyp clause s e) := by
  dsimp only [commitSetsHyp]
  split <;> infer_instance

/-- States and operands that meet the premises of each clause of CommitSets. -/
theorem witness_CommitSets :
    commitSetsHyp 0 wRun { (default : PendEv) with rec_ := [99614729, 0, 0, 0] } ∧
    commitSetsHyp 1 wRun { (default : PendEv) with rec_ := [251658251, 0, 0, 0] } ∧
    commitSetsHyp 2 wRun { (default : PendEv) with rec_ := [268435462, 0, 0, 0] } ∧
    commitSetsHyp 3 wRun (default : PendEv) :=
  ⟨yes (commitSetsDec _ _ _) (by decide +kernel),
   yes (commitSetsDec _ _ _) (by decide +kernel),
   yes (commitSetsDec _ _ _) (by decide +kernel),
   yes (commitSetsDec _ _ _) (by decide +kernel)⟩

/-- The premises of VoiceEvents, by clause. -/
def voiceEventsHyp (clause : Nat) (s : State) (f : Nat) (a : EvArgs) (v : Voice) (gr : Group) (c : Cv) (b : Option StartBuf) : Prop :=
  let i := a.w1.toNat % 2 ^ 11
  let g := a.target.toNat
  let x := slotAt s i
  let mine := a.flags.getLsbD 0 = true ∧ x.gen = a.w1.toNat / 2 ^ 24 ∧ x.pend = none ∧ x.fade = none
  let ix := a.w4.toNat % 2 ^ 28
  let start := applyEvent f b (a.toRec 0x01) s
  let j := start.handle % 2 ^ 24
  let old := slotAt s j
  match clause with
  | 0 => (mine) ∧ (x.cur = some v) ∧ (v.group = g)
  | 1 => (mine) ∧ (x.cur = some v) ∧ (v.group = g) ∧ (s.groups[g]? = some gr)
  | 2 => (mine) ∧ (x.cur = some v) ∧ (v.group = g) ∧ (a.w4.toNat / 2 ^ 28 = 0)
  | 3 => (mine) ∧ (x.cur = some v) ∧ (v.group = g) ∧ (ix = 11)
  | 4 => (a.flags.getLsbD 0 = true) ∧ (x.gen ≠ a.w1.toNat / 2 ^ 24) ∧ (s.groups[g]? = some gr)
  | 5 => (mine) ∧ (x.cur = none)
  | 6 => (s.cv.chans[g]? = some c)
  | 7 => (start.err = .ok) ∧ (s.groups[g]? = some gr) ∧ (old.gen < 256)
  | 8 => (start.err = .noVoice) ∧ (s.groups[g]? = some gr)
  | 9 => (start.err = .stale) ∧ (s.groups[g]? = some gr)
  | 10 => (start.err = .notFound)
  | _ => False

def voiceEventsDec (clause : Nat) (s : State) (f : Nat) (a : EvArgs) (v : Voice) (gr : Group) (c : Cv)
    (b : Option StartBuf) : Decidable (voiceEventsHyp clause s f a v gr c b) := by
  dsimp only [voiceEventsHyp]
  split <;> infer_instance

/-- States and operands that meet the premises of each clause of VoiceEvents. -/
theorem witness_VoiceEvents :
    voiceEventsHyp 0 { wRun with slots := [(1, ⟨52, some (default : Voice), none, none, false⟩), (0, (default : Slot))] } 0 ⟨1, 0, 872415233, 0, 0, 0,
        0, 0, 0⟩ (default : Voice) (default : Group) (default : Cv) none ∧
    voiceEventsHyp 1 { wRun with slots := [(1, ⟨52, some (default : Voice), none, none, false⟩), (0, (default : Slot))] } 0 ⟨1, 0, 872415233, 0, 0, 0,
        0, 0, 0⟩ (default : Voice) { (default : Group) with limit := 1, mask := 255, fade := 2, keys := 228, gs := 1 } (default : Cv) none ∧
    voiceEventsHyp 2 { wRun with slots := [(1, ⟨52, some (default : Voice), none, none, false⟩), (0, (default : Slot))] } 0 ⟨1, 0, 872415233, 0, 0, 0,
        0, 0, 0⟩ (default : Voice) (default : Group) (default : Cv) none ∧
    voiceEventsHyp 3 { wRun with slots := [(2, ⟨179, some { (default : Voice) with group := 1 }, none, none, false⟩), (0, (default : Slot))] } 0 ⟨1,
        1, 3003121666, 0, 0, 11, 0, 0, 0⟩ { (default : Voice) with group := 1 } (default : Group) (default : Cv) none ∧
    voiceEventsHyp 4 wRun 0 ⟨1, 0, 117440812, 0, 0, 0, 0, 0, 0⟩ (default : Voice)
        { (default : Group) with limit := 1, mask := 255, fade := 2, keys := 228, gs := 1 } (default : Cv) none ∧
    voiceEventsHyp 5 wRun 0 ⟨1, 0, 0, 0, 0, 0, 0, 0, 0⟩ (default : Voice) (default : Group) (default : Cv) none ∧
    voiceEventsHyp 6 wRun 0 (default : EvArgs) (default : Voice) (default : Group) (default : Cv) none ∧
    voiceEventsHyp 7 wRun 0 (default : EvArgs) (default : Voice)
        { (default : Group) with limit := 1, mask := 255, fade := 2, keys := 228, gs := 1 } (default : Cv) none ∧
    voiceEventsHyp 8 { wRun with groups := [(default : Group)] } 0 (default : EvArgs) (default : Voice) (default : Group) (default : Cv) none ∧
    voiceEventsHyp 9 { wRun with slots := [(0, ⟨0, some { (default : Voice) with mapped := true }, none, none, false⟩)] } 6 (default : EvArgs)
        (default : Voice) { (default : Group) with limit := 1, mask := 255, fade := 2, keys := 228, gs := 1 } (default : Cv) none ∧
    voiceEventsHyp 10 { wRun with hood := some { wHood with dram := { wHood.dram with regions := [(7, some ⟨65536, 4096, true⟩)] }, templates := [{ (default : Template) with osc := [[1073741824, 0, 0, 117440512]] }] } } 6 (default : EvArgs)
        (default : Voice) (default : Group) (default : Cv) none :=
  ⟨yes (voiceEventsDec _ _ _ _ _ _ _ _) (by decide +kernel),
   yes (voiceEventsDec _ _ _ _ _ _ _ _) (by decide +kernel),
   yes (voiceEventsDec _ _ _ _ _ _ _ _) (by decide +kernel),
   yes (voiceEventsDec _ _ _ _ _ _ _ _) (by decide +kernel),
   yes (voiceEventsDec _ _ _ _ _ _ _ _) (by decide +kernel),
   yes (voiceEventsDec _ _ _ _ _ _ _ _) (by decide +kernel),
   yes (voiceEventsDec _ _ _ _ _ _ _ _) (by decide +kernel),
   yes (voiceEventsDec _ _ _ _ _ _ _ _) (by decide +kernel),
   yes (voiceEventsDec _ _ _ _ _ _ _ _) (by decide +kernel),
   yes (voiceEventsDec _ _ _ _ _ _ _ _) (by decide +kernel),
   yes (voiceEventsDec _ _ _ _ _ _ _ _) (by decide +kernel)⟩

/-- The premises of SampleFormats, by clause. -/
def sampleFormatsHyp (x : Int) (n : Nat) : Prop :=
  (n = 16 ∨ n = 24 ∨ n = 32) ∧ (-2 ^ 31 ≤ x) ∧ (x < 2 ^ 31)

def sampleFormatsDec (x : Int) (n : Nat) : Decidable (sampleFormatsHyp x n) := by
  dsimp only [sampleFormatsHyp]
  infer_instance

/-- States and operands that meet the premises of each clause of SampleFormats. -/
theorem witness_SampleFormats :
    sampleFormatsHyp 0 32 :=
  yes (sampleFormatsDec _ _) (by decide +kernel)

/-- The premises of AudioPorts (PortFrames), by clause. -/
def portFramesHyp (clause : Nat) (s : State) (p : BitVec 3) (x : BitVec 2) (t : Nat) (bclk : Nat) (rise : List (BitVec 3)) (fall : List (BitVec 3))
    (h : HPort) (hx : HAes) : Prop :=
  let i := (sapAt s p.toNat).iface
  let late := i.s0.getD s.audio.since + expiryTime (domCycles s h.domain) ≤ t
  let cyc := pinCycles rise fall
  (s.shape = unitCounts) ∧ (s.mode.mode ≠ .reset) ∧ (s.mode.mode ≠ .sleep) ∧
  match clause with
  | 0 => (hportOf s p.toNat = some h) ∧ (frameCycles h cyc = none)
  | 1 => (hportOf s p.toNat = some h) ∧ (frameCycles h cyc = some bclk) ∧ (i.stopped = false) ∧ (¬ late)
  | 2 => (hportOf s p.toNat = some h) ∧ (frameCycles h cyc = some bclk) ∧ (i.stopped = true) ∧ (i.good < 16)
  | 3 => (hportOf s p.toNat = some h) ∧ (i.stopped = false) ∧ (late)
  | 4 => (hportOf s p.toNat = some h) ∧ (i.stopped = true) ∧ (16 ≤ i.good)
  | 5 => (htxOf s x.toNat = some hx)
  | 6 => True
  | _ => False

def portFramesDec (clause : Nat) (s : State) (p : BitVec 3) (x : BitVec 2) (t : Nat) (bclk : Nat) (rise : List (BitVec 3)) (fall : List (BitVec 3))
    (h : HPort) (hx : HAes) : Decidable (portFramesHyp clause s p x t bclk rise fall h hx) := by
  dsimp only [portFramesHyp]
  split <;> infer_instance

/-- States and operands that meet the premises of each clause of AudioPorts. -/
theorem witness_PortFrames :
    portFramesHyp 0 { wRun with hood := some { wHood with ports := { wHood.ports with saps := [(6, some (default : HPort))] } } } 6 0 0 0 [] [] (default : HPort)
        (default : HAes) ∧
    portFramesHyp 1 { wRun with hood := some { wHood with clocks := { wHood.clocks with domRate := (wHood.clocks.domRate.set 3 Rate.r44) }, ports := { wHood.ports with saps := [(4, some ⟨3, 1, 0, 0, 0, false, none, 0, [], []⟩), (0, none)] } } } 4 0 0 1 [0,
        1] [0, 0] ⟨3, 1, 0, 0, 0, false, none, 0, [], []⟩ (default : HAes) ∧
    portFramesHyp 2 { wRun with audio := { wRun.audio with saps := (wRun.audio.saps.set 7 ⟨{ (default : Iface) with stopped := true }, false, 0, [], []⟩) } } 7 0 0 1 [1,
        0] [0, 0] ⟨1, 0, 32, 32, 0, false, some 1, 1, [], []⟩ (default : HAes) ∧
    portFramesHyp 3 { wRun with hood := some { wHood with ports := { wHood.ports with saps := [(3, some (default : HPort)), (0, none), (0, none)] } } } 3 0 40000 0 [] [] (default : HPort)
        (default : HAes) ∧
    portFramesHyp 4 { wRun with hood := some { wHood with ports := { wHood.ports with saps := [(6, some (default : HPort))] } }, audio := { wRun.audio with saps := (wRun.audio.saps.set 6 ⟨{ (default : Iface) with stopped := true, good := 16 }, false, 0, [], []⟩) } } 6 0 0 0 [] [] (default : HPort)
        (default : HAes) ∧
    portFramesHyp 5 { wRun with hood := some { wHood with ports := { wHood.ports with tx := [(2, some (default : HAes))] } } } 0 2 0 0 [] [] (default : HPort)
        (default : HAes) ∧
    portFramesHyp 6 wRun 0 0 0 0 [] [] (default : HPort) (default : HAes) :=
  ⟨yes (portFramesDec _ _ _ _ _ _ _ _ _ _) (by decide +kernel),
   yes (portFramesDec _ _ _ _ _ _ _ _ _ _) (by decide +kernel),
   yes (portFramesDec _ _ _ _ _ _ _ _ _ _) (by decide +kernel),
   yes (portFramesDec _ _ _ _ _ _ _ _ _ _) (by decide +kernel),
   yes (portFramesDec _ _ _ _ _ _ _ _ _ _) (by decide +kernel),
   yes (portFramesDec _ _ _ _ _ _ _ _ _ _) (by decide +kernel),
   yes (portFramesDec _ _ _ _ _ _ _ _ _ _) (by decide +kernel)⟩

/-- The premises of AudioPorts (AsrcLocks), by clause. -/
def asrcLocksHyp (clause : Nat) (s : State) (d : BitVec 2) (t : Nat) : Prop :=
  (s.shape = unitCounts) ∧ (s.hood.isSome = true) ∧
  match clause with
  | 0 => (syncDomain s d.toNat = false) ∧ ((domAt s d.toNat).lock = false) ∧ (1024 ≤ (domAt s d.toNat).run)
  | 1 => ((domAt s d.toNat).lock = true) ∧ ((domAt s d.toNat).last.getD 0 + expiryTime (domCycles s d.toNat) ≤ t)
  | _ => False

def asrcLocksDec (clause : Nat) (s : State) (d : BitVec 2) (t : Nat) : Decidable (asrcLocksHyp clause s d t) := by
  dsimp only [asrcLocksHyp]
  split <;> infer_instance

/-- States and operands that meet the premises of each clause of AudioPorts. -/
theorem witness_AsrcLocks :
    asrcLocksHyp 0 { wRun with clocks := { wRun.clocks with dom := (wRun.clocks.dom.set 3 ⟨none, 0, 1710, 0, false, 0⟩) } } 3 0 ∧
    asrcLocksHyp 1 { wRun with clocks := { wRun.clocks with dom := (wRun.clocks.dom.set 2 ⟨none, 0, 0, 0, true, 0⟩) } } 2 31620 :=
  ⟨yes (asrcLocksDec _ _ _ _) (by decide +kernel),
   yes (asrcLocksDec _ _ _ _) (by decide +kernel)⟩

/-- The premises of AesPorts (AesReceivers), by clause. -/
def aesReceiversHyp (clause : Nat) (s : State) (r : BitVec 2) (f : AesMarks) (h : HAes) (ca : List Bool) (cb : List Bool) (ua : List Bool)
    (ub : List Bool) : Prop :=
  let x := rxAt s r.toNat
  (s.shape = unitCounts) ∧ (s.mode.mode ≠ .reset) ∧ (s.mode.mode ≠ .sleep) ∧ (hrxOf s r.toNat = some h) ∧
  match clause with
  | 0 => (x.lock = true) ∧ (x.bad < 2) ∧ (x.done = false) ∧ (x.nonaud = false) ∧ (f.violation = false) ∧ (f.missing = false)
  | 1 => (x.lock = true) ∧ (x.bad < 2) ∧ (x.done = false) ∧ (x.nonaud = false) ∧ ((f.violation || f.missing) = true)
  | 2 => (x.lock = false) ∧ (8 ≤ x.good)
  | 3 => (x.lock = true) ∧ (2 ≤ x.bad)
  | 4 => (x.done = true) ∧ (x.blk = some (ca, cb, ua, ub))
  | 5 => (x.nonaud = true) ∧ (4096 ≤ x.quiet) ∧ (x.naA = false) ∧ (x.naB = false)
  | _ => False

def aesReceiversDec (clause : Nat) (s : State) (r : BitVec 2) (f : AesMarks) (h : HAes) (ca : List Bool) (cb : List Bool) (ua : List Bool)
    (ub : List Bool) : Decidable (aesReceiversHyp clause s r f h ca cb ua ub) := by
  dsimp only [aesReceiversHyp]
  split <;> infer_instance

/-- States and operands that meet the premises of each clause of AesPorts. -/
theorem witness_AesReceivers :
    aesReceiversHyp 0 { wRun with hood := some { wHood with ports := { wHood.ports with rx := [(0, some (default : HAes)), (0, none)] } }, audio := { wRun.audio with rx := (wRun.audio.rx.set 0 { (wRun.audio.rx.getD 0 default) with lock := true }) } } 0 ⟨false,
        false, false⟩ (default : HAes) (List.replicate 192 false) (List.replicate 192 true) (List.replicate 192 false) (List.replicate 192 true) ∧
    aesReceiversHyp 1 { wRun with hood := some { wHood with ports := { wHood.ports with rx := [(2, some (default : HAes))] } }, audio := { wRun.audio with rx := (wRun.audio.rx.set 2 { (wRun.audio.rx.getD 2 default) with lock := true }) } } 2 ⟨false,
        true, false⟩ (default : HAes) (List.replicate 192 false) (List.replicate 192 true) (List.replicate 192 false) (List.replicate 192 true) ∧
    aesReceiversHyp 2 { wRun with hood := some { wHood with ports := { wHood.ports with rx := [(2, some (default : HAes))] } }, audio := { wRun.audio with rx := (wRun.audio.rx.set 2 { (wRun.audio.rx.getD 2 default) with good := 9 }) } } 2 ⟨false,
        true, false⟩ (default : HAes) (List.replicate 192 false) (List.replicate 192 true) (List.replicate 192 false) (List.replicate 192 true) ∧
    aesReceiversHyp 3 { wRun with hood := some { wHood with ports := { wHood.ports with rx := [(1, some (default : HAes))] } }, audio := { wRun.audio with rx := (wRun.audio.rx.set 1 { (wRun.audio.rx.getD 1 default) with lock := true, bad := 2 }) } } 1 ⟨false,
        true, false⟩ (default : HAes) (List.replicate 192 false) (List.replicate 192 true) (List.replicate 192 false) (List.replicate 192 true) ∧
    aesReceiversHyp 4 { wRun with audio := { wRun.audio with rx := wRun.audio.rx.set 3 { (wRun.audio.rx.getD 3 default) with done := true, blk := some (List.replicate 192 false, List.replicate 192 true, List.replicate 192 false, List.replicate 192 true) } } } 3 ⟨false,
        true, false⟩ ⟨0, some 2, some 3, false, List.replicate 6 0⟩ (List.replicate 192 false) (List.replicate 192 true) (List.replicate 192 false)
        (List.replicate 192 true) ∧
    aesReceiversHyp 5 { wRun with audio := { wRun.audio with rx := (wRun.audio.rx.set 3 { (wRun.audio.rx.getD 3 default) with nonaud := true, quiet := 4096 }) } } 3 ⟨false,
        true, false⟩ ⟨0, some 2, some 3, false, List.replicate 6 0⟩ (List.replicate 192 false) (List.replicate 192 true) (List.replicate 192 false)
        (List.replicate 192 true) :=
  ⟨yes (aesReceiversDec _ _ _ _ _ _ _ _ _) (by decide +kernel),
   yes (aesReceiversDec _ _ _ _ _ _ _ _ _) (by decide +kernel),
   yes (aesReceiversDec _ _ _ _ _ _ _ _ _) (by decide +kernel),
   yes (aesReceiversDec _ _ _ _ _ _ _ _ _) (by decide +kernel),
   yes (aesReceiversDec _ _ _ _ _ _ _ _ _) (by decide +kernel),
   yes (aesReceiversDec _ _ _ _ _ _ _ _ _) (by decide +kernel)⟩

/-- The premises of AesPorts (AesTransmitters), by clause. -/
def aesTransmittersHyp (clause : Nat) (s : State) (x : BitVec 2) (h : HAes) : Prop :=
  let a := txAt s x.toNat
  (s.shape = unitCounts) ∧ (s.mode.mode ≠ .reset) ∧ (s.mode.mode ≠ .sleep) ∧ (htxOf s x.toNat = some h) ∧
  match clause with
  | 0 => (a.due = true) ∧ (a.cs.length = 6)
  | 1 => (a.pll = false)
  | _ => False

def aesTransmittersDec (clause : Nat) (s : State) (x : BitVec 2) (h : HAes) : Decidable (aesTransmittersHyp clause s x h) := by
  dsimp only [aesTransmittersHyp]
  split <;> infer_instance

/-- States and operands that meet the premises of each clause of AesPorts. -/
theorem witness_AesTransmitters :
    aesTransmittersHyp 0 { wRun with hood := some { wHood with ports := { wHood.ports with tx := [(2, some ⟨0, some 4, none, true, List.replicate 6 0⟩)] } }, audio := { wRun.audio with tx := (wRun.audio.tx.set 2 { (wRun.audio.tx.getD 2 default) with due := true }) } } 2 ⟨0,
        some 4, none, true, List.replicate 6 0⟩ ∧
    aesTransmittersHyp 1 { wRun with hood := some { wHood with ports := { wHood.ports with tx := [(0, some (default : HAes)), (0, none)] } } } 0 (default : HAes) :=
  ⟨yes (aesTransmittersDec _ _ _ _) (by decide +kernel),
   yes (aesTransmittersDec _ _ _ _) (by decide +kernel)⟩

/-- The premises of PdmGroups, by clause. -/
def pdmGroupsHyp (clause : Nat) (s : State) (k : BitVec 2) (t : Nat) (edges : Nat) (h : HPdm) : Prop :=
  let g := pdmAt s k.toNat
  let late := g.iface.s0.getD s.audio.since + expiryTime (domCycles s h.domain) ≤ t
  let settled := presetSettle h.preset ≤ g.settle
  (s.shape = unitCounts) ∧ (s.mode.mode ≠ .reset) ∧ (s.mode.mode ≠ .sleep) ∧ (hpdmOf s k.toNat = some h) ∧
  match clause with
  | 0 => (g.stopped = false) ∧ (¬ late)
  | 1 => (g.stopped = false) ∧ (g.valid = false) ∧ (settled)
  | 2 => (g.stopped = false) ∧ (late)
  | 3 => (g.stopped = true) ∧ (16 * (32 * 2 ^ h.ratio) ≤ edges)
  | 4 => (g.srst = true)
  | _ => False

def pdmGroupsDec (clause : Nat) (s : State) (k : BitVec 2) (t : Nat) (edges : Nat) (h : HPdm) : Decidable (pdmGroupsHyp clause s k t edges h) := by
  dsimp only [pdmGroupsHyp]
  split <;> infer_instance

/-- States and operands that meet the premises of each clause of PdmGroups. -/
theorem witness_PdmGroups :
    pdmGroupsHyp 0 wRun 3 0 0 ⟨0, 0, 0, 0, 1, [(0, 5), (1, 6)], List.replicate 12 0, List.replicate 12 0⟩ ∧
    pdmGroupsHyp 1 { wRun with hood := some { wHood with ports := { wHood.ports with pdm := [(0, some (default : HPdm))] } }, audio := { wRun.audio with pdm := (wRun.audio.pdm.set 0 { (default : Pdm) with settle := 45 }) } } 0 0 0 (default : HPdm)
        ∧
    pdmGroupsHyp 2 wRun 3 47986 0 ⟨0, 0, 0, 0, 1, [(0, 5), (1, 6)], List.replicate 12 0, List.replicate 12 0⟩ ∧
    pdmGroupsHyp 3 { wRun with audio := { wRun.audio with pdm := (wRun.audio.pdm.set 3 { (default : Pdm) with stopped := true }) } } 3 0 2299 ⟨0, 0,
        0, 0, 1, [(0, 5), (1, 6)], List.replicate 12 0, List.replicate 12 0⟩ ∧
    pdmGroupsHyp 4 { wRun with hood := some { wHood with ports := { wHood.ports with pdm := [(0, some (default : HPdm)), (0, none)] } }, audio := { wRun.audio with pdm := (wRun.audio.pdm.set 0 { (default : Pdm) with srst := true }) } } 0 0 0 (default : HPdm) :=
  ⟨yes (pdmGroupsDec _ _ _ _ _ _) (by decide +kernel),
   yes (pdmGroupsDec _ _ _ _ _ _) (by decide +kernel),
   yes (pdmGroupsDec _ _ _ _ _ _) (by decide +kernel),
   yes (pdmGroupsDec _ _ _ _ _ _) (by decide +kernel),
   yes (pdmGroupsDec _ _ _ _ _ _) (by decide +kernel)⟩

/-- The premises of TwinSteps (TwinPairing), by clause. -/
def twinPairingHyp (clause : Nat) (s : State) (p : PartnerId) (r : Words) (t : Nat) (a : Nat) (partner : Option Nat) (up : Bool) : Prop :=
  let role := if s.twin.roleOvr then s.twin.role else s.twin.strap
  let twinHood := s.hood.any fun h => h.hdr.twin
  let fails2 := p.faultHigh = false ∨ s.twin.hasRun = true ∨ p.hasRun = true ∨ twinHood = false
  let fails3 := p.lead = role ∨ p.start.toNat ≠ s.frame.start
  let fails4 := p.part.toNat ≠ s.part.number ∨ p.level.toNat ≠ behavLevel
  let fails5 := p.digest ≠ s.block.digest
  let ready := s.mode.mode = .ready ∧ s.twin.pair = true ∧ s.twin.linkup = true ∧ s.twin.pairAt.isSome = true
  (s.shape = unitCounts) ∧ (s.part.twin = true) ∧
  match clause with
  | 0 => (ready) ∧ (¬ fails2) ∧ (¬ fails3) ∧ (¬ fails4) ∧ (¬ fails5)
  | 1 => (ready) ∧ (fails2)
  | 2 => (ready) ∧ (¬ fails2) ∧ (fails3)
  | 3 => (ready) ∧ (¬ fails2) ∧ (¬ fails3) ∧ (fails4)
  | 4 => (ready) ∧ (¬ fails2) ∧ (¬ fails3) ∧ (¬ fails4) ∧ (fails5)
  | 5 => (s.twin.pairAt = some a) ∧ (max a (partner.getD a) + 7864320 ≤ t)
  | 6 => (s.twin.pairAt = some a) ∧ (t < max a (partner.getD a) + 7864320)
  | 7 => (s.twin.linkup ≠ up) ∧ ((up = true → laneIdle s = false))
  | 8 => (s.twin.retired = false) ∧ (s.twin.paired = true) ∧ (s.twin.lead = false) ∧ (s.mode.mode = .runShadow) ∧ (acceptErr s .twin r = .ok)
  | 9 => (s.twin.retired = false) ∧ (s.twin.paired = false) ∧ (s.twin.tookOver = true)
  | 10 => (s.twin.retired = true)
  | _ => False

def twinPairingDec (clause : Nat) (s : State) (p : PartnerId) (r : Words) (t : Nat) (a : Nat) (partner : Option Nat)
    (up : Bool) : Decidable (twinPairingHyp clause s p r t a partner up) := by
  dsimp only [twinPairingHyp]
  split <;> infer_instance

/-- States and operands that meet the premises of each clause of TwinSteps. -/
theorem witness_TwinPairing :
    twinPairingHyp 0 { wReady with frame := ⟨0, 20, 0, false, false, 0⟩, twin := { wReady.twin with pair := true, roleOvr := true, role := true, linkup := true, pairAt := some 0 } } ⟨2176,
        1, false, false, 20, [], true⟩ [268435459, 0, 0, 0, 0] 0 0 none false ∧
    twinPairingHyp 1 { wReady with twin := { wReady.twin with pair := true, linkup := true, pairAt := some 0 } } ⟨0, 0, false, false, 0, [],
        false⟩ [268435459, 0, 0, 0, 0] 0 0 none false ∧
    twinPairingHyp 2 { wReady with twin := { wReady.twin with pair := true, linkup := true, pairAt := some 0 } } ⟨0, 0, false, false, 0, [],
        true⟩ [268435459, 0, 0, 0, 0] 0 0 none false ∧
    twinPairingHyp 3 { wReady with frame := ⟨0, 28, 0, false, false, 0⟩, twin := { wReady.twin with pair := true, linkup := true, pairAt := some 0 } } ⟨0,
        0, true, false, 28, [], true⟩ [268435459, 0, 0, 0, 0] 0 0 none false ∧
    twinPairingHyp 4 { wReady with part := Part.wvd840, frame := ⟨0, 22, 0, false, false, 0⟩, twin := { wReady.twin with pair := true, linkup := true, pairAt := some 0 } } ⟨2112,
        1, true, false, 22, [0], true⟩ [268435459, 0, 0, 0, 0] 0 0 none false ∧
    twinPairingHyp 5 { wRun with twin := { wRun.twin with pairAt := some 0 } } ⟨0, 0, false, false, 0, [], true⟩ [268435459, 0, 0, 0,
        0] 9003027 0 none false ∧
    twinPairingHyp 6 { wRun with twin := { wRun.twin with pairAt := some 0 } } ⟨0, 0, false, false, 0, [], true⟩ [268435459, 0, 0, 0,
        0] 0 0 none false ∧
    twinPairingHyp 7 wLead ⟨0, 0, false, false, 0, [], true⟩ [268435459, 0, 0, 0, 0] 0 0 none false ∧
    twinPairingHyp 8 wShadow ⟨0, 0, false, false, 0, [], true⟩ [268435459, 0, 0, 0, 0] 0 0 none false ∧
    twinPairingHyp 9 { wRun with twin := { wRun.twin with tookOver := true } } ⟨0, 0, false, false, 0, [], true⟩ [268435459, 0, 0, 0,
        0] 0 0 none false ∧
    twinPairingHyp 10 { wRun with twin := { wRun.twin with retired := true } } ⟨0, 0, false, false, 0, [], true⟩ [268435459, 0, 0, 0,
        0] 0 0 none false :=
  ⟨yes (twinPairingDec _ _ _ _ _ _ _ _) (by decide +kernel),
   yes (twinPairingDec _ _ _ _ _ _ _ _) (by decide +kernel),
   yes (twinPairingDec _ _ _ _ _ _ _ _) (by decide +kernel),
   yes (twinPairingDec _ _ _ _ _ _ _ _) (by decide +kernel),
   yes (twinPairingDec _ _ _ _ _ _ _ _) (by decide +kernel),
   yes (twinPairingDec _ _ _ _ _ _ _ _) (by decide +kernel),
   yes (twinPairingDec _ _ _ _ _ _ _ _) (by decide +kernel),
   yes (twinPairingDec _ _ _ _ _ _ _ _) (by decide +kernel),
   yes (twinPairingDec _ _ _ _ _ _ _ _) (by decide +kernel),
   yes (twinPairingDec _ _ _ _ _ _ _ _) (by decide +kernel),
   yes (twinPairingDec _ _ _ _ _ _ _ _) (by decide +kernel)⟩

/-- The premises of TwinSteps (TwinMarks), by clause. -/
def twinMarksHyp (clause : Nat) (s : State) (m : MarkMsg) (t : Nat) (a : Nat) : Prop :=
  let shadow := s.twin.lead = false
  (s.shape = unitCounts) ∧ (s.part.twin = true) ∧ (s.twin.paired = true) ∧ (s.twin.retired = false) ∧
  match clause with
  | 0 => (m.violation = true)
  | 1 => (m.violation = false) ∧ (inPeriod s = false)
  | 2 => (m.violation = false) ∧ (inPeriod s = true)
  | 3 => (s.twin.markAt = some a) ∧ (a + expiryTime (rateOf s).cycles ≤ t) ∧ (effMode s = .runShadow) ∧ (s.twin.takeNext = none) ∧
      (s.twin.takeYield = none)
  | 4 => (s.twin.markAt = some a) ∧ (a + expiryTime (rateOf s).cycles ≤ t) ∧ (effMode s = .runLead) ∧ (s.twin.partner = true)
  | 5 => (effMode s = .runShadow) ∧ (shadow) ∧ (s.twin.takeNext = none) ∧ (s.twin.takeYield = none)
  | _ => False

def twinMarksDec (clause : Nat) (s : State) (m : MarkMsg) (t : Nat) (a : Nat) : Decidable (twinMarksHyp clause s m t a) := by
  dsimp only [twinMarksHyp]
  split <;> infer_instance

/-- States and operands that meet the premises of each clause of TwinSteps. -/
theorem witness_TwinMarks :
    twinMarksHyp 0 wLead ⟨0, 0, 0, 0, 0, true⟩ 0 0 ∧
    twinMarksHyp 1 { wLead with mode := (default : ModeSt) } ⟨0, 0, 0, 0, 0, false⟩ 0 0 ∧
    twinMarksHyp 2 wLead ⟨0, 0, 0, 0, 0, false⟩ 0 0 ∧
    twinMarksHyp 3 { wShadow with twin := { wShadow.twin with markAt := some 0 } } ⟨0, 0, 0, 0, 0, true⟩ 28152 0 ∧
    twinMarksHyp 4 { wLead with twin := { wLead.twin with markAt := some 0 } } ⟨0, 0, 0, 0, 0, true⟩ 40662 0 ∧
    twinMarksHyp 5 wShadow ⟨0, 0, 0, 0, 0, true⟩ 0 0 :=
  ⟨yes (twinMarksDec _ _ _ _ _) (by decide +kernel),
   yes (twinMarksDec _ _ _ _ _) (by decide +kernel),
   yes (twinMarksDec _ _ _ _ _) (by decide +kernel),
   yes (twinMarksDec _ _ _ _ _) (by decide +kernel),
   yes (twinMarksDec _ _ _ _ _) (by decide +kernel),
   yes (twinMarksDec _ _ _ _ _) (by decide +kernel)⟩

/-- The premises of TwinRoles, by clause. -/
def twinRolesHyp (clause : Nat) (s : State) (t : Nat) (x : Nat) (a : Nat) : Prop :=
  (s.shape = unitCounts) ∧ (s.part.twin = true) ∧ (s.twin.paired = true) ∧ (s.twin.retired = false) ∧
  match clause with
  | 0 => (s.mode.mode = .runLead) ∧ (s.twin.yieldAt = none)
  | 1 => (s.twin.lead = true) ∧ (s.twin.faultN = true) ∧ (s.twin.pull = false)
  | 2 => (s.twin.swapAt = some x) ∧ (s.frame.cnt = x + 2) ∧ (s.twin.handOver = none) ∧ (s.mode.mode = .runLead ∨ s.mode.mode = .runShadow)
  | 3 => (s.mode.mode = .runShadow) ∧ (s.twin.takeNext = some a) ∧ (a ≤ t) ∧ (s.twin.takeYield = none) ∧ (s.twin.yieldAt = none) ∧
      (s.twin.lead = false) ∧ (s.twin.faultN = false) ∧ (s.twin.swapAt = none) ∧ (s.frame.open_ = false) ∧ (s.clocks.heldAt = none) ∧
      (leaves s = false) ∧ (goodTick t s)
  | _ => False

def twinRolesDec (clause : Nat) (s : State) (t : Nat) (x : Nat) (a : Nat) : Decidable (twinRolesHyp clause s t x a) := by
  dsimp only [twinRolesHyp, goodTick]
  split <;> infer_instance

/-- States and operands that meet the premises of each clause of TwinRoles. -/
theorem witness_TwinRoles :
    twinRolesHyp 0 wLead 0 0 0 ∧
    twinRolesHyp 1 { wLead with twin := { wLead.twin with faultN := true } } 0 0 0 ∧
    twinRolesHyp 2 { wLead with frame := ⟨46, 1, 1, true, false, 0⟩, twin := { wLead.twin with swapAt := some 44 } } 0 44 0 ∧
    twinRolesHyp 3 { wShadow with twin := { wShadow.twin with takeNext := some 0 } } 0 0 0 :=
  ⟨yes (twinRolesDec _ _ _ _ _) (by decide +kernel),
   yes (twinRolesDec _ _ _ _ _) (by decide +kernel),
   yes (twinRolesDec _ _ _ _ _) (by decide +kernel),
   yes (twinRolesDec _ _ _ _ _) (by decide +kernel)⟩

/-- The premises of AudioTwinRegisters (AudioRegisters), by clause. -/
def audioRegistersHyp (clause : Nat) (s : State) (g : BitVec 2) (k : BitVec 2) (v : Word) (y : AudGrp) (h : HPdm) : Prop :=
  let running := framesRun s = true ∨ effMode s = .ready
  let held := running ∨ effMode s = .hold
  let go := v.getLsbD 29 = true → grpModeOf s g.toNat = 2 ∧ y.arm = true ∧ y.started = false
  let z := pdmAt s s.audio.selGroup
  let spare := v &&& 0x3FFFFFFF#32 = 0
  (s.shape = unitCounts) ∧ (s.accessible) ∧
  match clause with
  | 0 => (s.audio.grps[g.toNat]? = some y) ∧ (grpDefined s g.toNat = true) ∧ (running) ∧ (go) ∧ (v &&& 0x1CFFFF00#32 = 0)
  | 1 => (grpDefined s g.toNat = false)
  | 2 => (s.audio.grps[g.toNat]? = some y) ∧ (grpDefined s g.toNat = true) ∧ (¬ (running ∧ go))
  | 3 => (hpdmOf s k.toNat = some h) ∧ (held) ∧ (spare)
  | 4 => (hpdmOf s k.toNat = some h) ∧ (¬ held)
  | 5 => (hpdmOf s k.toNat = some h) ∧ (held) ∧ (¬ spare)
  | 6 => (hpdmOf s s.audio.selGroup = some h) ∧ (held) ∧ (s.audio.selWord < presetTaps h.preset / 2) ∧ (z.swPend = false) ∧
      (s.audio.selBank ≠ z.actBank) ∧ (s.audio.selBank < 2) ∧ (s.audio.selGroup < 4)
  | 7 => (hpdmOf s s.audio.selGroup = some h) ∧ (held) ∧ (presetTaps h.preset / 2 ≤ s.audio.selWord)
  | 8 => (hpdmOf s s.audio.selGroup = some h) ∧ (held) ∧ (s.audio.selWord < presetTaps h.preset / 2) ∧ (z.swPend = true ∨ s.audio.selBank = z.actBank)
  | 9 => True
  | _ => False

def audioRegistersDec (clause : Nat) (s : State) (g : BitVec 2) (k : BitVec 2) (v : Word) (y : AudGrp)
    (h : HPdm) : Decidable (audioRegistersHyp clause s g k v y h) := by
  dsimp only [audioRegistersHyp, State.accessible]
  split <;> infer_instance

/-- States and operands that meet the premises of each clause of AudioTwinRegisters. -/
theorem witness_AudioRegisters :
    audioRegistersHyp 0 { wRun with hood := some { wHood with ports := { wHood.ports with saps := [(0, some ⟨0, 0, 0, 0, 0, false, some 3, 0, [], []⟩)] } } } 3 0 0 (default : AudGrp)
        (default : HPdm) ∧
    audioRegistersHyp 1 State.reset 0 0 0 (default : AudGrp) (default : HPdm) ∧
    audioRegistersHyp 2 { wRun with mode := { wRun.mode with mode := Mode.hold }, hood := some { wHood with ports := { wHood.ports with saps := [(0, some ⟨0, 0, 0, 0, 0, false, some 3, 0, [], []⟩)] } } } 3 0 0 (default : AudGrp)
        (default : HPdm) ∧
    audioRegistersHyp 3 wRun 0 3 0 (default : AudGrp) ⟨0, 0, 0, 0, 1, [(0, 5), (1, 6)], List.replicate 12 0, List.replicate 12 0⟩ ∧
    audioRegistersHyp 4 { wRun with mode := { wRun.mode with mode := Mode.safe }, hood := some { wHood with ports := { wHood.ports with pdm := [(1, some (default : HPdm))] } } } 0 1 0 (default : AudGrp)
        (default : HPdm) ∧
    audioRegistersHyp 5 wRun 0 3 1 (default : AudGrp) ⟨0, 0, 0, 0, 1, [(0, 5), (1, 6)], List.replicate 12 0, List.replicate 12 0⟩ ∧
    audioRegistersHyp 6 { wRun with hood := some { wHood with ports := { wHood.ports with pdm := [(1, some ⟨0, 0, 1, 0, 0, [], [], []⟩), (0, none)] } }, audio := { wRun.audio with selGroup := 1, selBank := 1 } } 0 0 0 (default : AudGrp)
        ⟨0, 0, 1, 0, 0, [], [], []⟩ ∧
    audioRegistersHyp 7 { wRun with hood := some { wHood with ports := { wHood.ports with pdm := [(2, some (default : HPdm))] } }, audio := { wRun.audio with selGroup := 2, selWord := 63 } } 0 0 0 (default : AudGrp)
        (default : HPdm) ∧
    audioRegistersHyp 8 { wRun with hood := some { wHood with ports := { wHood.ports with pdm := [(0, some (default : HPdm))] } } } 0 0 0 (default : AudGrp)
        (default : HPdm) ∧
    audioRegistersHyp 9 wRun 0 0 0 (default : AudGrp) (default : HPdm) :=
  ⟨yes (audioRegistersDec _ _ _ _ _ _ _) (by decide +kernel),
   yes (audioRegistersDec _ _ _ _ _ _ _) (by decide +kernel),
   yes (audioRegistersDec _ _ _ _ _ _ _) (by decide +kernel),
   yes (audioRegistersDec _ _ _ _ _ _ _) (by decide +kernel),
   yes (audioRegistersDec _ _ _ _ _ _ _) (by decide +kernel),
   yes (audioRegistersDec _ _ _ _ _ _ _) (by decide +kernel),
   yes (audioRegistersDec _ _ _ _ _ _ _) (by decide +kernel),
   yes (audioRegistersDec _ _ _ _ _ _ _) (by decide +kernel),
   yes (audioRegistersDec _ _ _ _ _ _ _) (by decide +kernel),
   yes (audioRegistersDec _ _ _ _ _ _ _) (by decide +kernel)⟩

/-- The premises of AudioTwinRegisters (TwinControl), by clause. -/
def twinControlHyp (clause : Nat) (s : State) (v : Word) : Prop :=
  let w := s.twin
  let keeps := v.getLsbD 29 = w.roleOvr ∧ v.getLsbD 28 = w.role
  let ready := s.mode.mode = .ready
  let may := (ready ∨ v.getLsbD 31 = w.pair) ∧ (keeps ∨ ready ∧ w.pair = false)
  let swaps := s.mode.mode = .runLead ∧ w.instep = true ∧ w.partner = true
  let spare := v &&& 0x0FFFFFF8#32 = 0
  (s.shape = unitCounts) ∧ (s.part.twin = true) ∧ (s.accessible) ∧
  match clause with
  | 0 => (may) ∧ (ready) ∧ (v.getLsbD 31 = true) ∧ (v.getLsbD 30 = false) ∧ (spare)
  | 1 => (may) ∧ (ready) ∧ (v.getLsbD 31 = false) ∧ (v.getLsbD 30 = false) ∧ (spare)
  | 2 => (¬ may) ∧ (s.mode.mode ≠ .handover)
  | 3 => (may) ∧ ((v.getLsbD 30 = true → swaps)) ∧ (¬ spare)
  | 4 => (may) ∧ (swaps) ∧ (v.getLsbD 30 = true) ∧ (v.getLsbD 31 = true) ∧ (w.paired = true) ∧ (spare) ∧ (w.swapAt = none)
  | 5 => (may) ∧ (swaps) ∧ (v.getLsbD 30 = true) ∧ (spare) ∧ (w.swapAt ≠ none)
  | 6 => (may) ∧ (v.getLsbD 30 = true) ∧ (s.mode.mode ≠ .handover) ∧ (¬ swaps)
  | _ => False

def twinControlDec (clause : Nat) (s : State) (v : Word) : Decidable (twinControlHyp clause s v) := by
  dsimp only [twinControlHyp, State.accessible]
  split <;> infer_instance

/-- States and operands that meet the premises of each clause of AudioTwinRegisters. -/
theorem witness_TwinControl :
    twinControlHyp 0 wReady 2147483653 ∧
    twinControlHyp 1 wReady 0 ∧
    twinControlHyp 2 wRun 2432696320 ∧
    twinControlHyp 3 wRun 8 ∧
    twinControlHyp 4 wLead 3221225472 ∧
    twinControlHyp 5 { wLead with twin := { wLead.twin with swapAt := some 0 } } 3221225472 ∧
    twinControlHyp 6 wReady 3221225472 :=
  ⟨yes (twinControlDec _ _ _) (by decide +kernel),
   yes (twinControlDec _ _ _) (by decide +kernel),
   yes (twinControlDec _ _ _) (by decide +kernel),
   yes (twinControlDec _ _ _) (by decide +kernel),
   yes (twinControlDec _ _ _) (by decide +kernel),
   yes (twinControlDec _ _ _) (by decide +kernel),
   yes (twinControlDec _ _ _) (by decide +kernel)⟩

/-- The premises of RegisterWrites, by clause. -/
def registerWritesHyp (clause : Nat) (s : State) (p : Port) (a : RegAddr) (v : DWord) (c : Word) (x : RegAt) (i : BitVec 1) : Prop :=
  let page := a.page.toNat
  let off := a.off.toNat
  let w := v.toNat % 2 ^ 32
  let fits := regFind page off = some x ∧ reaches p page off = true ∧ inRingMem page off = false ∧ off ≠ 0xFFFF
  (s.shape = unitCounts) ∧ (s.accessible) ∧
  match clause with
  | 0 => (off ≠ 0xFFFF) ∧ (3 < page)
  | 1 => (off ≠ 0xFFFF) ∧ (page ≤ 3) ∧ (reaches p page off = false)
  | 2 => (off ≠ 0xFFFF) ∧ (page ≤ 3) ∧ (reaches p page off = true) ∧ (inRingMem page off = false) ∧ (regFind page off = none)
  | 3 => (fits) ∧ (regAbsent s x.reg = true)
  | 4 => (fits) ∧ (regAbsent s x.reg = false) ∧ (x.writable = false)
  | 5 => (p = .host) ∧ (off = 0xFFFF) ∧ (v.toNat % 2 ^ 16 < 256)
  | 6 => (p = .spi) ∧ (off = 0xFFFF)
  | 7 => (page = 0) ∧ (off = 0x18 + 2 * i.toNat) ∧ (w < 2 ^ 17)
  | 8 => (page = 0) ∧ (off = 0x18 + 2 * i.toNat) ∧ (2 ^ 17 ≤ w)
  | 9 => (page = 0) ∧ (off = 0x1C) ∧ (w < 2 ^ 17)
  | 10 => (page = 0) ∧ (off = 0x16) ∧ (w < 2 ^ 17)
  | 11 => (page = 0) ∧ (off = 0x170C) ∧ (w < 8)
  | 12 => (page = 0) ∧ (off = 0x44) ∧ (s.mode.mode = .ready) ∧ (v.toNat < 2 ^ 63)
  | 13 => (page = 0) ∧ (off = 0x44) ∧ (s.mode.mode ≠ .ready)
  | 14 => (page = 0) ∧ (off = 0x44) ∧ (s.mode.mode = .ready) ∧ (2 ^ 63 ≤ v.toNat)
  | 15 => (c &&& 0x3FFFFFF8#32 = 0) ∧ (c.getLsbD 31 = false)
  | 16 => (c &&& 0x3FFFFFF8#32 = 0) ∧ (c.getLsbD 30 = false)
  | 17 => (c.getLsbD 31 = true)
  | 18 => (c.getLsbD 30 = true)
  | _ => False

def registerWritesDec (clause : Nat) (s : State) (p : Port) (a : RegAddr) (v : DWord) (c : Word) (x : RegAt)
    (i : BitVec 1) : Decidable (registerWritesHyp clause s p a v c x i) := by
  dsimp only [registerWritesHyp, State.accessible]
  split <;> infer_instance

/-- States and operands that meet the premises of each clause of RegisterWrites. -/
theorem witness_RegisterWrites :
    registerWritesHyp 0 wRun Port.spi ⟨4, 0⟩ 0 0 ⟨Reg.fltLog, 0, 5904, 4, false, 0⟩ 0 ∧
    registerWritesHyp 1 wRun Port.spi ⟨0, 489⟩ 0 0 ⟨Reg.fltLog, 0, 5904, 4, false, 0⟩ 0 ∧
    registerWritesHyp 2 wRun Port.spi ⟨0, 62554⟩ 0 0 ⟨Reg.fltLog, 0, 5904, 4, false, 0⟩ 0 ∧
    registerWritesHyp 3 State.reset Port.host ⟨0, 2068⟩ 0 0 ⟨Reg.plcStat 2, 0, 2068, 2, false, 0⟩ 0 ∧
    registerWritesHyp 4 wRun Port.spi ⟨0, 5904⟩ 0 0 ⟨Reg.fltLog, 0, 5904, 4, false, 0⟩ 0 ∧
    registerWritesHyp 5 wRun Port.host ⟨0, 65535⟩ 0 0 ⟨Reg.fltLog, 0, 5904, 4, false, 0⟩ 0 ∧
    registerWritesHyp 6 wRun Port.spi ⟨0, 65535⟩ 0 0 ⟨Reg.fltLog, 0, 5904, 4, false, 0⟩ 0 ∧
    registerWritesHyp 7 wRun Port.spi ⟨0, 26⟩ 0 0 ⟨Reg.fltLog, 0, 5904, 4, false, 0⟩ 1 ∧
    registerWritesHyp 8 wRun Port.spi ⟨0, 26⟩ 131072 0 ⟨Reg.fltLog, 0, 5904, 4, false, 0⟩ 1 ∧
    registerWritesHyp 9 wRun Port.spi ⟨0, 28⟩ 0 0 ⟨Reg.fltLog, 0, 5904, 4, false, 0⟩ 0 ∧
    registerWritesHyp 10 wRun Port.spi ⟨0, 22⟩ 0 0 ⟨Reg.fltLog, 0, 5904, 4, false, 0⟩ 0 ∧
    registerWritesHyp 11 wRun Port.spi ⟨0, 5900⟩ 0 0 ⟨Reg.fltLog, 0, 5904, 4, false, 0⟩ 0 ∧
    registerWritesHyp 12 wReady Port.spi ⟨0, 68⟩ 0 0 ⟨Reg.fltLog, 0, 5904, 4, false, 0⟩ 0 ∧
    registerWritesHyp 13 wRun Port.spi ⟨0, 68⟩ 0 0 ⟨Reg.fltLog, 0, 5904, 4, false, 0⟩ 0 ∧
    registerWritesHyp 14 wReady Port.spi ⟨0, 68⟩ 9223372036854775808 0 ⟨Reg.fltLog, 0, 5904, 4, false, 0⟩ 0 ∧
    registerWritesHyp 15 wRun Port.spi ⟨4, 0⟩ 0 0 ⟨Reg.fltLog, 0, 5904, 4, false, 0⟩ 0 ∧
    registerWritesHyp 16 wRun Port.spi ⟨4, 0⟩ 0 0 ⟨Reg.fltLog, 0, 5904, 4, false, 0⟩ 0 ∧
    registerWritesHyp 17 wRun Port.spi ⟨4, 0⟩ 0 3221225472 ⟨Reg.fltLog, 0, 5904, 4, false, 0⟩ 0 ∧
    registerWritesHyp 18 wRun Port.spi ⟨4, 0⟩ 0 3221225472 ⟨Reg.fltLog, 0, 5904, 4, false, 0⟩ 0 :=
  ⟨yes (registerWritesDec _ _ _ _ _ _ _ _) (by decide +kernel),
   yes (registerWritesDec _ _ _ _ _ _ _ _) (by decide +kernel),
   yes (registerWritesDec _ _ _ _ _ _ _ _) (by decide +kernel),
   yes (registerWritesDec _ _ _ _ _ _ _ _) (by decide +kernel),
   yes (registerWritesDec _ _ _ _ _ _ _ _) (by decide +kernel),
   yes (registerWritesDec _ _ _ _ _ _ _ _) (by decide +kernel),
   yes (registerWritesDec _ _ _ _ _ _ _ _) (by decide +kernel),
   yes (registerWritesDec _ _ _ _ _ _ _ _) (by decide +kernel),
   yes (registerWritesDec _ _ _ _ _ _ _ _) (by decide +kernel),
   yes (registerWritesDec _ _ _ _ _ _ _ _) (by decide +kernel),
   yes (registerWritesDec _ _ _ _ _ _ _ _) (by decide +kernel),
   yes (registerWritesDec _ _ _ _ _ _ _ _) (by decide +kernel),
   yes (registerWritesDec _ _ _ _ _ _ _ _) (by decide +kernel),
   yes (registerWritesDec _ _ _ _ _ _ _ _) (by decide +kernel),
   yes (registerWritesDec _ _ _ _ _ _ _ _) (by decide +kernel),
   yes (registerWritesDec _ _ _ _ _ _ _ _) (by decide +kernel),
   yes (registerWritesDec _ _ _ _ _ _ _ _) (by decide +kernel),
   yes (registerWritesDec _ _ _ _ _ _ _ _) (by decide +kernel),
   yes (registerWritesDec _ _ _ _ _ _ _ _) (by decide +kernel)⟩

/-- The premises of RegisterWrites (WordWrites), by clause. -/
def wordWritesHyp (clause : Nat) (s : State) (p : Port) (a : RegAddr) (be : BitVec 2) (x : RegAt) (l : WriteLatch) (w0 : HWord) (w1 : HWord)
    (w2 : HWord) : Prop :=
  let page := a.page.toNat
  let off := a.off.toNat
  let here := (p = .host → s.host.hpage = page ∧ be = 3) ∧ page ≤ 3 ∧ reaches p page off = true ∧ inRingMem page off = false ∧ off ≠ 0xFFFF ∧
      regFind page off = some x
  let held := (portSt s p).wr = some l ∧ l.page = page ∧ l.base = x.base
  let base : RegAddr := ⟨a.page, BitVec.ofNat 16 x.base⟩
  (s.shape = unitCounts) ∧ (s.accessible) ∧
  match clause with
  | 0 => (here) ∧ (off + 1 < x.base + x.width)
  | 1 => (here) ∧ (x.width = 2) ∧ (off = x.base + 1) ∧ (held) ∧ (Store.get none l.words 0 = some w0)
  | 2 => (here) ∧ (x.width = 4) ∧ (off = x.base + 3) ∧ (held) ∧ (Store.get none l.words 0 = some w0) ∧ (Store.get none l.words 1 = some w1) ∧
      (Store.get none l.words 2 = some w2)
  | 3 => (here) ∧ (x.width = 1)
  | 4 => (here) ∧ (1 < x.width) ∧ (off + 1 = x.base + x.width) ∧ ((portSt s p).wr = none)
  | 5 => (p = .host) ∧ (s.host.hpage = 0) ∧ (be ≠ 3) ∧ (off ≠ 0xFFFF) ∧ (regFind 0 off = some x)
  | 6 => ((p = .host → s.host.hpage = page)) ∧ (1 ≤ page) ∧ (page ≤ 3) ∧ (off < 0x8000)
  | _ => False

def wordWritesDec (clause : Nat) (s : State) (p : Port) (a : RegAddr) (be : BitVec 2) (x : RegAt) (l : WriteLatch) (w0 : HWord) (w1 : HWord)
    (w2 : HWord) : Decidable (wordWritesHyp clause s p a be x l w0 w1 w2) := by
  dsimp only [wordWritesHyp, State.accessible]
  split <;> infer_instance

/-- States and operands that meet the premises of each clause of RegisterWrites. -/
theorem witness_WordWrites :
    wordWritesHyp 0 wRun Port.spi ⟨0, 4260⟩ 0 ⟨Reg.pdmCdata, 0, 4260, 2, true, 0⟩ ⟨0, 5902, [(0, some 0), (1, some 0), (2, some 65535)]⟩ 0 5 54529 ∧
    wordWritesHyp 1 { wRun with host := { wRun.host with hostPort := ⟨none, some ⟨0, 5902, [(0, some 0), (1, some 0), (2, some 65535)]⟩⟩ } } Port.host ⟨0,
        5903⟩ 3 ⟨Reg.fltStat, 0, 5902, 2, true, 2147086336⟩ ⟨0, 5902, [(0, some 0), (1, some 0), (2, some 65535)]⟩ 0 5 54529 ∧
    wordWritesHyp 2 { wRun with host := { wRun.host with spiPort := ⟨none, some ⟨0, 5904, [(0, some 0), (1, some 5), (2, some 54529)]⟩⟩ } } Port.spi ⟨0,
        5907⟩ 0 ⟨Reg.fltLog, 0, 5904, 4, false, 0⟩ ⟨0, 5904, [(0, some 0), (1, some 5), (2, some 54529)]⟩ 0 5 54529 ∧
    wordWritesHyp 3 wRun Port.spi ⟨3, 33203⟩ 0 ⟨Reg.ringTail 54, 3, 33203, 1, true, 0⟩ ⟨0, 5902, [(0, some 0), (1, some 0), (2,
        some 65535)]⟩ 0 5 54529 ∧
    wordWritesHyp 4 wRun Port.host ⟨0, 2049⟩ 3 ⟨Reg.busSat, 0, 2048, 2, true, 2147483136⟩ ⟨0, 5902, [(0, some 0), (1, some 0), (2,
        some 65535)]⟩ 0 5 54529 ∧
    wordWritesHyp 5 wRun Port.host ⟨0, 0⟩ 0 ⟨Reg.chipId, 0, 0, 2, false, 0⟩ ⟨0, 5902, [(0, some 0), (1, some 0), (2, some 65535)]⟩ 0 5 54529 ∧
    wordWritesHyp 6 wRun Port.spi ⟨1, 0⟩ 0 ⟨Reg.chipId, 0, 0, 2, false, 0⟩ ⟨0, 5902, [(0, some 0), (1, some 0), (2, some 65535)]⟩ 0 5 54529 :=
  ⟨yes (wordWritesDec _ _ _ _ _ _ _ _ _ _) (by decide +kernel),
   yes (wordWritesDec _ _ _ _ _ _ _ _ _ _) (by decide +kernel),
   yes (wordWritesDec _ _ _ _ _ _ _ _ _ _) (by decide +kernel),
   yes (wordWritesDec _ _ _ _ _ _ _ _ _ _) (by decide +kernel),
   yes (wordWritesDec _ _ _ _ _ _ _ _ _ _) (by decide +kernel),
   yes (wordWritesDec _ _ _ _ _ _ _ _ _ _) (by decide +kernel),
   yes (wordWritesDec _ _ _ _ _ _ _ _ _ _) (by decide +kernel)⟩

/-- The premises of PortReads (RegisterReads), by clause. -/
def registerReadsHyp (clause : Nat) (s : State) (p : Port) (a : RegAddr) (x : RegAt) (l : ReadLatch) (e : FaultEntry) (es : List FaultEntry) : Prop :=
  let page := a.page.toNat
  let off := a.off.toNat
  let k := off - x.base
  let here := (p = .host → s.host.hpage = page) ∧ off ≠ 0xFFFF
  let fits := page ≤ 3 ∧ reaches p page off = true ∧ inRingMem page off = false ∧ regFind page off = some x
  (s.shape = unitCounts) ∧ (s.accessible) ∧
  match clause with
  | 0 => (here) ∧ (3 < page ∨ reaches p page off = false)
  | 1 => (here) ∧ (page ≤ 3) ∧ (inRingMem page off = false) ∧ (regFind page off = none)
  | 2 => (here) ∧ (1 ≤ page) ∧ (page ≤ 3) ∧ (off < 0x8000)
  | 3 => (here) ∧ (fits) ∧ (k = 0) ∧ (1 < x.width) ∧ ((∀ c i, x.reg ≠ .aesRxcs c i ∧ x.reg ≠ .aesRxub c i))
  | 4 => (here) ∧ (fits) ∧ (0 < k) ∧ ((portSt s p).rd = some l) ∧ (l.page = page) ∧ (l.base = x.base)
  | 5 => (here) ∧ (fits) ∧ (0 < k) ∧ ((portSt s p).rd = none)
  | 6 => True
  | 7 => (s.flt.log = e :: es) ∧ (e.cls < 256) ∧ (e.unit < 256) ∧ (e.resp < 16) ∧ (e.frame < 2 ^ 32)
  | 8 => (s.flt.log = [])
  | _ => False

def registerReadsDec (clause : Nat) (s : State) (p : Port) (a : RegAddr) (x : RegAt) (l : ReadLatch) (e : FaultEntry)
    (es : List FaultEntry) : Decidable (registerReadsHyp clause s p a x l e es) := by
  have := notBlockDec
  dsimp only [registerReadsHyp, State.accessible]
  split <;> infer_instance

/-- States and operands that meet the premises of each clause of PortReads. -/
theorem witness_RegisterReads :
    registerReadsHyp 0 { wRun with host := { wRun.host with hpage := 4 } } Port.host ⟨4, 0⟩ ⟨Reg.capCtl, 0, 10, 2, false, 0⟩ ⟨0, 4362, 0⟩ ⟨6, 2, 0,
        96⟩ [⟨5, 0, 3, 37⟩, ⟨6, 3, 4, 30⟩, ⟨10, 11, 4, 40⟩, ⟨2, 1, 3, 18⟩, ⟨7, 1, 5, 39⟩, ⟨9, 12, 1, 58⟩, ⟨3, 7, 1, 66⟩, ⟨4, 15, 3, 70⟩, ⟨0, 14, 3,
        27⟩, ⟨9, 4, 4, 39⟩, ⟨8, 9, 1, 68⟩, ⟨2, 9, 1, 51⟩, ⟨8, 4, 1, 2⟩, ⟨4, 11, 4, 45⟩] ∧
    registerReadsHyp 1 wRun Port.spi ⟨0, 26193⟩ ⟨Reg.capCtl, 0, 10, 2, false, 0⟩ ⟨0, 4362, 0⟩ ⟨6, 2, 0, 96⟩ [⟨5, 0, 3, 37⟩, ⟨6, 3, 4, 30⟩, ⟨10, 11, 4,
        40⟩, ⟨2, 1, 3, 18⟩, ⟨7, 1, 5, 39⟩, ⟨9, 12, 1, 58⟩, ⟨3, 7, 1, 66⟩, ⟨4, 15, 3, 70⟩, ⟨0, 14, 3, 27⟩, ⟨9, 4, 4, 39⟩, ⟨8, 9, 1, 68⟩, ⟨2, 9, 1, 51⟩,
        ⟨8, 4, 1, 2⟩, ⟨4, 11, 4, 45⟩] ∧
    registerReadsHyp 2 wRun Port.spi ⟨1, 0⟩ ⟨Reg.capCtl, 0, 10, 2, false, 0⟩ ⟨0, 4362, 0⟩ ⟨6, 2, 0, 96⟩ [⟨5, 0, 3, 37⟩, ⟨6, 3, 4, 30⟩, ⟨10, 11, 4,
        40⟩, ⟨2, 1, 3, 18⟩, ⟨7, 1, 5, 39⟩, ⟨9, 12, 1, 58⟩, ⟨3, 7, 1, 66⟩, ⟨4, 15, 3, 70⟩, ⟨0, 14, 3, 27⟩, ⟨9, 4, 4, 39⟩, ⟨8, 9, 1, 68⟩, ⟨2, 9, 1, 51⟩,
        ⟨8, 4, 1, 2⟩, ⟨4, 11, 4, 45⟩] ∧
    registerReadsHyp 3 wRun Port.spi ⟨0, 4260⟩ ⟨Reg.pdmCdata, 0, 4260, 2, true, 0⟩ ⟨0, 4362, 0⟩ ⟨6, 2, 0, 96⟩ [⟨5, 0, 3, 37⟩, ⟨6, 3, 4, 30⟩, ⟨10, 11,
        4, 40⟩, ⟨2, 1, 3, 18⟩, ⟨7, 1, 5, 39⟩, ⟨9, 12, 1, 58⟩, ⟨3, 7, 1, 66⟩, ⟨4, 15, 3, 70⟩, ⟨0, 14, 3, 27⟩, ⟨9, 4, 4, 39⟩, ⟨8, 9, 1, 68⟩, ⟨2, 9, 1,
        51⟩, ⟨8, 4, 1, 2⟩, ⟨4, 11, 4, 45⟩] ∧
    registerReadsHyp 4 { wRun with host := { wRun.host with spiPort := ⟨some ⟨0, 4362, 0⟩, none⟩ } } Port.spi ⟨0, 4363⟩ ⟨Reg.twinTkf, 0, 4362, 2,
        false, 0⟩ ⟨0, 4362, 0⟩ ⟨6, 2, 0, 96⟩ [⟨5, 0, 3, 37⟩, ⟨6, 3, 4, 30⟩, ⟨10, 11, 4, 40⟩, ⟨2, 1, 3, 18⟩, ⟨7, 1, 5, 39⟩, ⟨9, 12, 1, 58⟩, ⟨3, 7, 1,
        66⟩, ⟨4, 15, 3, 70⟩, ⟨0, 14, 3, 27⟩, ⟨9, 4, 4, 39⟩, ⟨8, 9, 1, 68⟩, ⟨2, 9, 1, 51⟩, ⟨8, 4, 1, 2⟩, ⟨4, 11, 4, 45⟩] ∧
    registerReadsHyp 5 wRun Port.host ⟨0, 11⟩ ⟨Reg.capCtl, 0, 10, 2, false, 0⟩ ⟨0, 4362, 0⟩ ⟨6, 2, 0, 96⟩ [⟨5, 0, 3, 37⟩, ⟨6, 3, 4, 30⟩, ⟨10, 11, 4,
        40⟩, ⟨2, 1, 3, 18⟩, ⟨7, 1, 5, 39⟩, ⟨9, 12, 1, 58⟩, ⟨3, 7, 1, 66⟩, ⟨4, 15, 3, 70⟩, ⟨0, 14, 3, 27⟩, ⟨9, 4, 4, 39⟩, ⟨8, 9, 1, 68⟩, ⟨2, 9, 1, 51⟩,
        ⟨8, 4, 1, 2⟩, ⟨4, 11, 4, 45⟩] ∧
    registerReadsHyp 6 wRun Port.spi ⟨4, 0⟩ ⟨Reg.capCtl, 0, 10, 2, false, 0⟩ ⟨0, 4362, 0⟩ ⟨6, 2, 0, 96⟩ [⟨5, 0, 3, 37⟩, ⟨6, 3, 4, 30⟩, ⟨10, 11, 4,
        40⟩, ⟨2, 1, 3, 18⟩, ⟨7, 1, 5, 39⟩, ⟨9, 12, 1, 58⟩, ⟨3, 7, 1, 66⟩, ⟨4, 15, 3, 70⟩, ⟨0, 14, 3, 27⟩, ⟨9, 4, 4, 39⟩, ⟨8, 9, 1, 68⟩, ⟨2, 9, 1, 51⟩,
        ⟨8, 4, 1, 2⟩, ⟨4, 11, 4, 45⟩] ∧
    registerReadsHyp 7 { wRun with flt := { wRun.flt with log := [⟨6, 2, 0, 96⟩, ⟨5, 0, 3, 37⟩, ⟨6, 3, 4, 30⟩, ⟨10, 11, 4, 40⟩, ⟨2, 1, 3, 18⟩, ⟨7, 1, 5, 39⟩, ⟨9, 12, 1, 58⟩, ⟨3, 7, 1, 66⟩, ⟨4, 15, 3, 70⟩, ⟨0, 14, 3, 27⟩, ⟨9, 4, 4, 39⟩, ⟨8, 9, 1, 68⟩, ⟨2, 9, 1, 51⟩, ⟨8, 4, 1, 2⟩, ⟨4, 11, 4, 45⟩] } } Port.spi ⟨4,
        0⟩ ⟨Reg.capCtl, 0, 10, 2, false, 0⟩ ⟨0, 4362, 0⟩ ⟨6, 2, 0, 96⟩ [⟨5, 0, 3, 37⟩, ⟨6, 3, 4, 30⟩, ⟨10, 11, 4, 40⟩, ⟨2, 1, 3, 18⟩, ⟨7, 1, 5, 39⟩,
        ⟨9, 12, 1, 58⟩, ⟨3, 7, 1, 66⟩, ⟨4, 15, 3, 70⟩, ⟨0, 14, 3, 27⟩, ⟨9, 4, 4, 39⟩, ⟨8, 9, 1, 68⟩, ⟨2, 9, 1, 51⟩, ⟨8, 4, 1, 2⟩, ⟨4, 11, 4, 45⟩] ∧
    registerReadsHyp 8 wRun Port.spi ⟨4, 0⟩ ⟨Reg.capCtl, 0, 10, 2, false, 0⟩ ⟨0, 4362, 0⟩ ⟨6, 2, 0, 96⟩ [⟨5, 0, 3, 37⟩, ⟨6, 3, 4, 30⟩, ⟨10, 11, 4,
        40⟩, ⟨2, 1, 3, 18⟩, ⟨7, 1, 5, 39⟩, ⟨9, 12, 1, 58⟩, ⟨3, 7, 1, 66⟩, ⟨4, 15, 3, 70⟩, ⟨0, 14, 3, 27⟩, ⟨9, 4, 4, 39⟩, ⟨8, 9, 1, 68⟩, ⟨2, 9, 1, 51⟩,
        ⟨8, 4, 1, 2⟩, ⟨4, 11, 4, 45⟩] :=
  ⟨yes (registerReadsDec _ _ _ _ _ _ _ _) (by decide +kernel),
   yes (registerReadsDec _ _ _ _ _ _ _ _) (by decide +kernel),
   yes (registerReadsDec _ _ _ _ _ _ _ _) (by decide +kernel),
   yes (registerReadsDec _ _ _ _ _ _ _ _) (by decide +kernel),
   yes (registerReadsDec _ _ _ _ _ _ _ _) (by decide +kernel),
   yes (registerReadsDec _ _ _ _ _ _ _ _) (by decide +kernel),
   yes (registerReadsDec _ _ _ _ _ _ _ _) (by decide +kernel),
   yes (registerReadsDec _ _ _ _ _ _ _ _) (by decide +kernel),
   yes (registerReadsDec _ _ _ _ _ _ _ _) (by decide +kernel)⟩

/-- The premises of PortReads (SpiTransactions), by clause. -/
def spiTransactionsHyp (clause : Nat) (s : State) (a : RegAddr) (ws : List HWord) (n : Nat) (c : Byte) : Prop :=
  let page := a.page.toNat
  let off := a.off.toNat
  (s.shape = unitCounts) ∧ (s.accessible) ∧
  match clause with
  | 0 => (1 ≤ page) ∧ (page ≤ 3) ∧ (off + ws.length ≤ 0x8000)
  | 1 => (1 ≤ page) ∧ (page ≤ 3) ∧ (off + n ≤ 0x8000)
  | 2 => (page = 0) ∧ (off = 0x40)
  | 3 => (page = 0) ∧ (off = 0x40)
  | 4 => True
  | 5 => ([0x02#8, 0x0B, 0x05].contains c = false)
  | 6 => (off = 0xFFFF)
  | _ => False

def spiTransactionsDec (clause : Nat) (s : State) (a : RegAddr) (ws : List HWord) (n : Nat)
    (c : Byte) : Decidable (spiTransactionsHyp clause s a ws n c) := by
  dsimp only [spiTransactionsHyp, State.accessible]
  split <;> infer_instance

/-- States and operands that meet the premises of each clause of PortReads. -/
theorem witness_SpiTransactions :
    spiTransactionsHyp 0 wRun ⟨1, 0⟩ [] 0 0 ∧
    spiTransactionsHyp 1 wRun ⟨1, 0⟩ [] 0 0 ∧
    spiTransactionsHyp 2 wRun ⟨0, 64⟩ [] 0 0 ∧
    spiTransactionsHyp 3 wRun ⟨0, 64⟩ [] 0 0 ∧
    spiTransactionsHyp 4 wRun ⟨1, 0⟩ [] 0 0 ∧
    spiTransactionsHyp 5 wRun ⟨1, 0⟩ [] 0 0 ∧
    spiTransactionsHyp 6 wRun ⟨0, 65535⟩ [] 0 0 :=
  ⟨yes (spiTransactionsDec _ _ _ _ _ _) (by decide +kernel),
   yes (spiTransactionsDec _ _ _ _ _ _) (by decide +kernel),
   yes (spiTransactionsDec _ _ _ _ _ _) (by decide +kernel),
   yes (spiTransactionsDec _ _ _ _ _ _) (by decide +kernel),
   yes (spiTransactionsDec _ _ _ _ _ _) (by decide +kernel),
   yes (spiTransactionsDec _ _ _ _ _ _) (by decide +kernel),
   yes (spiTransactionsDec _ _ _ _ _ _) (by decide +kernel)⟩

/-- The premises of ModeRequests, by clause. -/
def modeRequestsHyp (clause : Nat) (s : State) (c : BitVec 4) (q : Byte) : Prop :=
  let m := s.mode.mode
  let free := m ≠ .load ∧ m ≠ .handover
  let shadow := s.twin.paired = true ∧ s.twin.lead = false
  let mayRun := m = .ready ∧ ¬ shadow ∧ (s.twin.hasRun = true → dramOn s = true)
  let mayStop := (inPeriod s = true ∨ m = .ready ∧ s.mode.pend ≠ none) ∧ ¬ shadow
  let maySleep := (m = .loader ∨ m = .ready) ∧ s.twin.paired = false
  let mayServe := m = .ready ∧ s.twin.paired = false
  let mayReady := m = .safe ∨ m = .service
  let idle := (s.host.wins.any fun w => w.busy) = false ∧ s.fw.stage = .idle
  (s.shape = unitCounts) ∧ (s.mode.mode ≠ .reset) ∧ (s.mode.mode ≠ .sleep) ∧
  match clause with
  | 0 => (free) ∧ (mayRun) ∧ (s.mode.rest = false) ∧ (s.mode.pend = none)
  | 1 => (free) ∧ (¬ mayRun)
  | 2 => (free) ∧ (mayRun) ∧ (s.mode.rest = true ∨ s.mode.pend ≠ none)
  | 3 => (free) ∧ (mayStop)
  | 4 => (free) ∧ (¬ mayStop)
  | 5 => (free) ∧ (maySleep) ∧ (idle)
  | 6 => (free) ∧ (¬ maySleep)
  | 7 => (free) ∧ (maySleep) ∧ (¬ idle)
  | 8 => (free) ∧ (mayServe)
  | 9 => (free) ∧ (¬ mayServe)
  | 10 => (free) ∧ (mayReady) ∧ (s.flt.thermal = false) ∧ (s.flt.power = 0)
  | 11 => (free) ∧ (¬ mayReady)
  | 12 => (free) ∧ (mayReady) ∧ (s.flt.thermal = true ∨ s.flt.power ≠ 0)
  | 13 => (¬ free)
  | 14 => (m ≠ .loader) ∧ (Asked s c.toNat (request 3 1 q []))
  | _ => False

def modeRequestsDec (clause : Nat) (s : State) (c : BitVec 4) (q : Byte) : Decidable (modeRequestsHyp clause s c q) := by
  dsimp only [modeRequestsHyp, Asked]
  split <;> infer_instance

/-- States and operands that meet the premises of each clause of ModeRequests. -/
theorem witness_ModeRequests :
    modeRequestsHyp 0 wReady 0 128 ∧
    modeRequestsHyp 1 wRun 0 128 ∧
    modeRequestsHyp 2 { wReady with mode := { wReady.mode with pend := some 0 } } 0 128 ∧
    modeRequestsHyp 3 wRun 0 128 ∧
    modeRequestsHyp 4 wReady 0 128 ∧
    modeRequestsHyp 5 wReady 0 128 ∧
    modeRequestsHyp 6 wRun 0 128 ∧
    modeRequestsHyp 7 { wReady with fw := { wReady.fw with stage := UpdStage.download } } 0 128 ∧
    modeRequestsHyp 8 wReady 0 128 ∧
    modeRequestsHyp 9 wRun 0 128 ∧
    modeRequestsHyp 10 { wRun with mode := { wRun.mode with mode := Mode.safe } } 0 128 ∧
    modeRequestsHyp 11 wRun 0 128 ∧
    modeRequestsHyp 12 { wRun with mode := { wRun.mode with mode := Mode.service }, flt := { wRun.flt with thermal := true } } 0 128 ∧
    modeRequestsHyp 13 { wRun with mode := { wRun.mode with mode := Mode.load } } 0 128 ∧
    modeRequestsHyp 14 { wRun with fw := { wRun.fw with reqs := [(15, [[268632448, 0, 0, 0, 0, 0, 0, 0]])] } } 15 128 :=
  ⟨yes (modeRequestsDec _ _ _ _) (by decide +kernel),
   yes (modeRequestsDec _ _ _ _) (by decide +kernel),
   yes (modeRequestsDec _ _ _ _) (by decide +kernel),
   yes (modeRequestsDec _ _ _ _) (by decide +kernel),
   yes (modeRequestsDec _ _ _ _) (by decide +kernel),
   yes (modeRequestsDec _ _ _ _) (by decide +kernel),
   yes (modeRequestsDec _ _ _ _) (by decide +kernel),
   yes (modeRequestsDec _ _ _ _) (by decide +kernel),
   yes (modeRequestsDec _ _ _ _) (by decide +kernel),
   yes (modeRequestsDec _ _ _ _) (by decide +kernel),
   yes (modeRequestsDec _ _ _ _) (by decide +kernel),
   yes (modeRequestsDec _ _ _ _) (by decide +kernel),
   yes (modeRequestsDec _ _ _ _) (by decide +kernel),
   yes (modeRequestsDec _ _ _ _) (by decide +kernel),
   yes (modeRequestsDec _ _ _ _) (by decide +kernel)⟩

/-- The premises of Resets, by clause. -/
def resetsHyp (clause : Nat) (s : State) (v : Word) (ns : Nat) (t : Nat) (a : Nat) (src : WakeSource) (h : Hood) (e : EccKind) (c : EccKind)
    (r : BitVec 6) (g : HRing) (w : Words) (k : BitVec 2) (hi : Bool) : Prop :=
  let on := s.mode.mode ≠ .reset ∧ s.mode.mode ≠ .sleep
  let calm := s.mode.mode ≠ .load ∧ s.fw.handover = none ∧ s.fw.stage ≠ .trial
  (s.shape = unitCounts) ∧ (s.fw.stage ≠ .confirm) ∧
  match clause with
  | 0 => True
  | 1 => (1000 ≤ ns)
  | 2 => (ns < 1000)
  | 3 => (on) ∧ (s.mode.expired = true)
  | 4 => (on) ∧ (v &&& 0xFFFFFFFE#32 = 0x5A000002#32)
  | 5 => (on) ∧ (v &&& 0x00FFFFFC#32 = 0) ∧ (v.toNat / 2 ^ 24 ≠ 0x5A) ∧ (v &&& 3#32 ≠ 0)
  | 6 => (on) ∧ (calm) ∧ (v = 0x5A000001#32)
  | 7 => (on) ∧ (s.mode.mode = .load) ∧ (s.fw.handover = none) ∧ (s.fw.stage ≠ .trial) ∧ (v = 0x5A000001#32)
  | 8 => (on) ∧ (calm)
  | 9 => (on) ∧ (calm)
  | 10 => (on) ∧ (calm) ∧ (hringOf s r.toNat = some g) ∧ (ringFront s r.toNat = some w)
  | 11 => (s.mode.mode = .sleep) ∧ (s.mode.wakeAt = none) ∧ ((∀ k hi, src = .uart k hi → (uartAt s k.toNat).wake = true ∧
      (hi = true ∨ s.mode.wakeFired.contains k.toNat = false)))
  | 12 => (src = .uart k hi) ∧ ((uartAt s k.toNat).wake = false ∨ hi = false ∧ s.mode.wakeFired.contains k.toNat = true)
  | 13 => (s.mode.mode = .sleep) ∧ (s.mode.wakeAt = some a) ∧ (t < a + 1179648)
  | 15 => (s.mode.mode = .sleep) ∧ (s.mode.wakeAt = some a) ∧ (a + 1179648 ≤ t) ∧ (s.hood = some h) ∧ (s.mode.hoodCopy = true) ∧
      (hoodIntact s = false ∨ e = .uncorrectable ∨ s.mode.codeCopy = none ∨ c = .uncorrectable)
  | _ => False

def resetsDec (clause : Nat) (s : State) (v : Word) (ns : Nat) (t : Nat) (a : Nat) (src : WakeSource) (h : Hood) (e : EccKind) (c : EccKind)
    (r : BitVec 6) (g : HRing) (w : Words) (k : BitVec 2) (hi : Bool) : Decidable (resetsHyp clause s v ns t a src h e c r g w k hi) := by
  dsimp only [resetsHyp]
  split <;> infer_instance

/-- States and operands that meet the premises of each clause of Resets. -/
theorem witness_Resets :
    resetsHyp 0 wRun 1 0 0 0 WakeSource.spi wHood EccKind.clean EccKind.uncorrectable 0 ⟨1, EndPt.host, EndPt.carder, 0, 3, 0⟩ (List.replicate 8 0)
        0 false ∧
    resetsHyp 1 wRun 1 1000 0 0 WakeSource.spi wHood EccKind.clean EccKind.uncorrectable 0 ⟨1, EndPt.host, EndPt.carder, 0, 3, 0⟩ (List.replicate 8 0)
        0 false ∧
    resetsHyp 2 wRun 1 0 0 0 WakeSource.spi wHood EccKind.clean EccKind.uncorrectable 0 ⟨1, EndPt.host, EndPt.carder, 0, 3, 0⟩ (List.replicate 8 0)
        0 false ∧
    resetsHyp 3 { wRun with mode := { wRun.mode with expired := true } } 1 0 0 0 WakeSource.spi wHood EccKind.clean EccKind.uncorrectable 0 ⟨1,
        EndPt.host, EndPt.carder, 0, 3, 0⟩ (List.replicate 8 0) 0 false ∧
    resetsHyp 4 wRun 1509949443 0 0 0 WakeSource.spi wHood EccKind.clean EccKind.uncorrectable 0 ⟨1, EndPt.host, EndPt.carder, 0, 3,
        0⟩ (List.replicate 8 0) 0 false ∧
    resetsHyp 5 wRun 1 0 0 0 WakeSource.spi wHood EccKind.clean EccKind.uncorrectable 0 ⟨1, EndPt.host, EndPt.carder, 0, 3, 0⟩ (List.replicate 8 0)
        0 false ∧
    resetsHyp 6 wRun 1509949441 0 0 0 WakeSource.spi wHood EccKind.clean EccKind.uncorrectable 0 ⟨1, EndPt.host, EndPt.carder, 0, 3,
        0⟩ (List.replicate 8 0) 0 false ∧
    resetsHyp 7 { wRun with mode := { wRun.mode with mode := Mode.load } } 1509949441 0 0 0 WakeSource.spi wHood EccKind.clean EccKind.uncorrectable 0 ⟨1,
        EndPt.host, EndPt.carder, 0, 3, 0⟩ (List.replicate 8 0) 0 false ∧
    resetsHyp 8 wRun 1 0 0 0 WakeSource.spi wHood EccKind.clean EccKind.uncorrectable 0 ⟨1, EndPt.host, EndPt.carder, 0, 3, 0⟩ (List.replicate 8 0)
        0 false ∧
    resetsHyp 9 wRun 1 0 0 0 WakeSource.spi wHood EccKind.clean EccKind.uncorrectable 0 ⟨1, EndPt.host, EndPt.carder, 0, 3, 0⟩ (List.replicate 8 0)
        0 false ∧
    resetsHyp 10 { wRun with rings := (wRun.rings.set 0 ⟨0, 1, false, 1, 0, 0, 0, none⟩) } 1 0 0 0 WakeSource.spi wHood EccKind.clean EccKind.uncorrectable 0 ⟨1,
        EndPt.host, EndPt.carder, 0, 3, 0⟩ (List.replicate 8 0) 0 false ∧
    resetsHyp 11 { wRun with mode := { wRun.mode with mode := Mode.sleep } } 1 0 0 0 WakeSource.spi wHood EccKind.clean EccKind.uncorrectable 0 ⟨1,
        EndPt.host, EndPt.carder, 0, 3, 0⟩ (List.replicate 8 0) 0 false ∧
    resetsHyp 12 wRun 1 0 0 0 (WakeSource.uart 3 false) wHood EccKind.clean EccKind.uncorrectable 0 ⟨1, EndPt.host, EndPt.carder, 0, 3,
        0⟩ (List.replicate 8 0) 3 false ∧
    resetsHyp 13 { wRun with mode := { wRun.mode with mode := Mode.sleep, wakeAt := some 822 } } 1 0 0 822 WakeSource.spi wHood EccKind.clean EccKind.uncorrectable 0 ⟨1,
        EndPt.host, EndPt.carder, 0, 3, 0⟩ (List.replicate 8 0) 0 false ∧
    resetsHyp 15 { wRun with mode := { wRun.mode with mode := Mode.sleep, wakeAt := some 0, hoodCopy := true } } 1 0 2000546 0 WakeSource.spi wHood EccKind.clean EccKind.uncorrectable 0 ⟨1,
        EndPt.host, EndPt.carder, 0, 3, 0⟩ (List.replicate 8 0) 0 false :=
  ⟨yes (resetsDec _ _ _ _ _ _ _ _ _ _ _ _ _ _ _) (by decide +kernel),
   yes (resetsDec _ _ _ _ _ _ _ _ _ _ _ _ _ _ _) (by decide +kernel),
   yes (resetsDec _ _ _ _ _ _ _ _ _ _ _ _ _ _ _) (by decide +kernel),
   yes (resetsDec _ _ _ _ _ _ _ _ _ _ _ _ _ _ _) (by decide +kernel),
   yes (resetsDec _ _ _ _ _ _ _ _ _ _ _ _ _ _ _) (by decide +kernel),
   yes (resetsDec _ _ _ _ _ _ _ _ _ _ _ _ _ _ _) (by decide +kernel),
   yes (resetsDec _ _ _ _ _ _ _ _ _ _ _ _ _ _ _) (by decide +kernel),
   yes (resetsDec _ _ _ _ _ _ _ _ _ _ _ _ _ _ _) (by decide +kernel),
   yes (resetsDec _ _ _ _ _ _ _ _ _ _ _ _ _ _ _) (by decide +kernel),
   yes (resetsDec _ _ _ _ _ _ _ _ _ _ _ _ _ _ _) (by decide +kernel),
   yes (resetsDec _ _ _ _ _ _ _ _ _ _ _ _ _ _ _) (by decide +kernel),
   yes (resetsDec _ _ _ _ _ _ _ _ _ _ _ _ _ _ _) (by decide +kernel),
   yes (resetsDec _ _ _ _ _ _ _ _ _ _ _ _ _ _ _) (by decide +kernel),
   yes (resetsDec _ _ _ _ _ _ _ _ _ _ _ _ _ _ _) (by decide +kernel),
   yes (resetsDec _ _ _ _ _ _ _ _ _ _ _ _ _ _ _) (by decide +kernel)⟩

/-- The premises of Blocking, by clause. -/
def blockingHyp (clause : Nat) (s : State) (p : Port) (v : Word) (t : Nat) : Prop :=
  let m := s.mode.mode
  let b := s.block
  let src := v.toNat / 2 ^ 24 % 4
  let mine := ¬ (src = 1 ∧ p = .spi) ∧ ¬ (src = 2 ∧ p = .host)
  let starts := m = .loader ∨ m = .ready
  let spare := v &&& 0x7CFF0000#32 = 0
  (s.shape = unitCounts) ∧ (s.mode.mode ≠ .reset) ∧ (s.mode.mode ≠ .sleep) ∧
  match clause with
  | 0 => (v.getLsbD 31 = true) ∧ (mine) ∧ (starts) ∧ (src ≠ 3) ∧ (spare)
  | 1 => (v.getLsbD 31 = true) ∧ (¬ mine)
  | 2 => (v.getLsbD 31 = true) ∧ (mine) ∧ (¬ starts) ∧ (m ≠ .load)
  | 3 => (v.getLsbD 31 = true) ∧ (mine) ∧ (starts ∨ m = .load) ∧ (¬ (spare ∧ src ≠ 3))
  | 4 => (mine) ∧ (m = .load) ∧ (spare) ∧ (src ≠ 3)
  | 5 => (m = .load) ∧ (b.need = true) ∧ (b.fifo.length < 1024)
  | 6 => (m ≠ .load)
  | 7 => (b.need = false)
  | 8 => (m = .load) ∧ (b.need = true) ∧ (b.fifo = []) ∧ (b.emptyAt + 786432000 ≤ t) ∧ (b.stage ≤ 2)
  | 9 => (m = .load) ∧ (b.need = true) ∧ (b.fifo = []) ∧ (b.emptyAt + 786432000 ≤ t) ∧ (3 ≤ b.stage)
  | _ => False

def blockingDec (clause : Nat) (s : State) (p : Port) (v : Word) (t : Nat) : Decidable (blockingHyp clause s p v t) := by
  dsimp only [blockingHyp]
  split <;> infer_instance

/-- States and operands that meet the premises of each clause of Blocking. -/
theorem witness_Blocking :
    blockingHyp 0 wReady Port.spi 2181038080 0 ∧
    blockingHyp 1 wRun Port.spi 2164260869 0 ∧
    blockingHyp 2 wRun Port.spi 2147483648 0 ∧
    blockingHyp 3 wReady Port.host 2197815296 0 ∧
    blockingHyp 4 { wRun with mode := { wRun.mode with mode := Mode.load } } Port.host 0 0 ∧
    blockingHyp 5 { wRun with mode := { wRun.mode with mode := Mode.load }, block := { wRun.block with need := true } } Port.spi 0 0 ∧
    blockingHyp 6 wRun Port.spi 0 0 ∧
    blockingHyp 7 wRun Port.spi 0 0 ∧
    blockingHyp 8 { wRun with mode := { wRun.mode with mode := Mode.load }, block := { wRun.block with need := true } } Port.spi 0 9000000195 ∧
    blockingHyp 9 { wRun with mode := { wRun.mode with mode := Mode.load }, block := { wRun.block with stage := 4, need := true } } Port.spi 0 786432405 :=
  ⟨yes (blockingDec _ _ _ _ _) (by decide +kernel),
   yes (blockingDec _ _ _ _ _) (by decide +kernel),
   yes (blockingDec _ _ _ _ _) (by decide +kernel),
   yes (blockingDec _ _ _ _ _) (by decide +kernel),
   yes (blockingDec _ _ _ _ _) (by decide +kernel),
   yes (blockingDec _ _ _ _ _) (by decide +kernel),
   yes (blockingDec _ _ _ _ _) (by decide +kernel),
   yes (blockingDec _ _ _ _ _) (by decide +kernel),
   yes (blockingDec _ _ _ _ _) (by decide +kernel),
   yes (blockingDec _ _ _ _ _) (by decide +kernel)⟩

/-- The premises of Passes, by clause. -/
def passesHyp (clause : Nat) (s : State) (body : Hood) (b : Hood) (h : List Byte) (dir : List Byte) (mb : Nat) (tr : Bool) : Prop :=
  let one := s.block.stage = 1 ∨ s.block.stage = 2
  let word := fun (i : Nat) => leNat ((h.drop i).take 4)
  (s.shape = unitCounts) ∧ (s.mode.mode = .load) ∧
  match clause with
  | 0 => (one) ∧ (imgHead s = some h) ∧ (word 0 ≠ 0x48445657)
  | 1 => (one) ∧ (imgHead s = some h) ∧ (step1 h = .pass) ∧ (word 0x3C ≠ crc32 (h.take 0x3C))
  | 2 => (one) ∧ (imgHead s = some h) ∧ (step1 h = .pass) ∧ (step23 h = .pass) ∧ (imgDir s h = some dir) ∧ (word 0x38 ≠ crc32 dir)
  | 3 => (one) ∧ (imgHead s = some h) ∧ (imgDir s h = some dir)
  | 4 => (s.block.body = some b) ∧ (s.block.stage = 3) ∧ (b.hdr.dramMin ≠ 0) ∧ (tr = false)
  | 5 => (s.block.body = some b) ∧ (s.block.stage = 3) ∧ (b.hdr.dramMin ≠ 0) ∧ (tr = true) ∧ (mb = 1024 ∨ mb = 2048 ∨ mb = 4096) ∧
      (mb < b.hdr.dramMin)
  | 6 => (s.block.body = some b) ∧ (s.block.stage = 3) ∧ (b.hdr.dramMin ≠ 0) ∧ (tr = true) ∧ (mb ≠ 1024) ∧ (mb ≠ 2048) ∧ (mb ≠ 4096)
  | 7 => (s.block.body = some b) ∧ (s.block.stage = 4) ∧ (installVerdict s = .wait)
  | 9 => (s.block.body = some b) ∧ (s.block.stage = 4) ∧ (installVerdict s = .pass)
  | 10 => (s.block.body = some b) ∧ (s.block.stage = 5)
  | _ => False

def passesDec (clause : Nat) (s : State) (body : Hood) (b : Hood) (h : List Byte) (dir : List Byte) (mb : Nat)
    (tr : Bool) : Decidable (passesHyp clause s body b h dir mb tr) := by
  dsimp only [passesHyp]
  split <;> infer_instance

/-- States and operands that meet the premises of each clause of Passes. -/
theorem witness_Passes :
    passesHyp 0 (wLoad 1 [] [1, 65536, 0, 1, 0, 1, 0, 0, 0, 0, 0, 0, 0, 0, 0, 0]) wHood wBody [1, 0, 0, 0, 0, 0, 1, 0, 0, 0, 0, 0, 1, 0, 0, 0, 0, 0,
        0, 0, 1, 0, 0, 0, 0, 0, 0, 0, 0, 0, 0, 0, 0, 0, 0, 0, 0, 0, 0, 0, 0, 0, 0, 0, 0, 0, 0, 0, 0, 0, 0, 0, 0, 0, 0, 0, 0, 0, 0, 0, 0, 0, 0,
        0] [] 0 false ∧
    passesHyp 1 (wLoad 1 [] [1212438103, 65536, 0, 1, 0, 1, 0, 0, 0, 0, 0, 0, 0, 0, 0, 0]) wHood wBody [87, 86, 68, 72, 0, 0, 1, 0, 0, 0, 0, 0, 1, 0,
        0, 0, 0, 0, 0, 0, 1, 0, 0, 0, 0, 0, 0, 0, 0, 0, 0, 0, 0, 0, 0, 0, 0, 0, 0, 0, 0, 0, 0, 0, 0, 0, 0, 0, 0, 0, 0, 0, 0, 0, 0, 0, 0, 0, 0, 0, 0,
        0, 0, 0] [] 0 false ∧
    passesHyp 2 (wLoad 2 [] ([1212438103, 65536, 0, 1, 0, 1, 0, 0, 0, 0, 0, 0, 0, 0, 0, 1362013963] ++ List.replicate 16 0)) wHood wBody [87, 86, 68,
        72, 0, 0, 1, 0, 0, 0, 0, 0, 1, 0, 0, 0, 0, 0, 0, 0, 1, 0, 0, 0, 0, 0, 0, 0, 0, 0, 0, 0, 0, 0, 0, 0, 0, 0, 0, 0, 0, 0, 0, 0, 0, 0, 0, 0, 0, 0,
        0, 0, 0, 0, 0, 0, 0, 0, 0, 0, 11, 175, 46, 81] (List.replicate 64 0) 0 false ∧
    passesHyp 3 (wLoad 2 [] ([1212438103, 65536, 0, 1, 0, 1, 0, 0, 0, 0, 0, 0, 0, 0, 0, 1362013963] ++ List.replicate 16 0)) wHood wBody [87, 86, 68,
        72, 0, 0, 1, 0, 0, 0, 0, 0, 1, 0, 0, 0, 0, 0, 0, 0, 1, 0, 0, 0, 0, 0, 0, 0, 0, 0, 0, 0, 0, 0, 0, 0, 0, 0, 0, 0, 0, 0, 0, 0, 0, 0, 0, 0, 0, 0,
        0, 0, 0, 0, 0, 0, 0, 0, 0, 0, 11, 175, 46, 81] (List.replicate 64 0) 0 false ∧
    passesHyp 4 (wLoad 3 [] []) wHood wBody [] [] 0 false ∧
    passesHyp 5 (wLoad 3 [] []) wHood wBody [] [] 1024 true ∧
    passesHyp 6 (wLoad 3 [] []) wHood wBody [] [] 512 true ∧
    passesHyp 7 { wLoad 4 [1] [] with block := { (wLoad 4 [1] []).block with need := true } } wHood wBody [] [] 0 false ∧
    passesHyp 9 (wLoad 4 [] []) wHood wBody [] [] 0 false ∧
    passesHyp 10 (wLoad 5 [] []) wHood wBody [] [] 0 false :=
  ⟨yes (passesDec _ _ _ _ _ _ _ _) (by decide +kernel),
   yes (passesDec _ _ _ _ _ _ _ _) (by decide +kernel),
   yes (passesDec _ _ _ _ _ _ _ _) (by decide +kernel),
   yes (passesDec _ _ _ _ _ _ _ _) (by decide +kernel),
   yes (passesDec _ _ _ _ _ _ _ _) (by decide +kernel),
   yes (passesDec _ _ _ _ _ _ _ _) (by decide +kernel),
   yes (passesDec _ _ _ _ _ _ _ _) (by decide +kernel),
   yes (passesDec _ _ _ _ _ _ _ _) (by decide +kernel),
   yes (passesDec _ _ _ _ _ _ _ _) (by decide +kernel),
   yes (passesDec _ _ _ _ _ _ _ _) (by decide +kernel)⟩

/-- The premises of Restores, by clause. -/
def restoresHyp (clause : Nat) (s : State) (v : Word) (d : BitVec 4) (h : Hood) : Prop :=
  let i := v.toNat % 16
  let cluster := v.getLsbD 29
  let on := if cluster then clusterOn s i = true else engineOn s i = true
  let may := s.mode.mode ≠ .handover ∧ (effMode s = .ready ∨ framesRun s = true ∨ effMode s = .hold ∨ effMode s = .safe) ∧ s.twin.paired = false ∧
      h.hdr.dramMin ≠ 0
  let dom := d.toNat
  (s.shape = unitCounts) ∧ (s.hood = some h) ∧
  match clause with
  | 0 => (s.mode.rest = true)
  | 1 => (s.accessible) ∧ (v.getLsbD 31 = true) ∧ (v &&& 0x1FFFFFF0#32 = 0) ∧ (on) ∧ (may) ∧ ((cluster = true → i < 8)) ∧ (s.flt.restart = .none)
  | 2 => (s.accessible) ∧ (v.getLsbD 31 = true) ∧ (¬ on) ∧ ((cluster = true → i < 8))
  | 3 => (s.accessible) ∧ (v.getLsbD 31 = true) ∧ (on ∨ (cluster = true ∧ 8 ≤ i)) ∧ (¬ may)
  | 4 => (s.accessible) ∧ (v.getLsbD 31 = true) ∧ (on) ∧ (may) ∧ ((cluster = true → i < 8)) ∧ (v &&& 0x1FFFFFF0#32 ≠ 0)
  | 5 => (s.accessible) ∧ (v.getLsbD 31 = true) ∧ (on) ∧ (may) ∧ ((cluster = true → i < 8)) ∧ (v &&& 0x1FFFFFF0#32 = 0) ∧ (s.flt.restart ≠ .none)
  | 6 => (s.flt.restart = .held) ∧ (s.flt.rstKind = false) ∧ (s.flt.rstIndex < 16)
  | 7 => (s.flt.restart = .held) ∧ (s.flt.rstKind = true)
  | 8 => (dom ≠ 0) ∧ (bitAt (poweredMask s) dom = true) ∧ (bitAt s.flt.power dom = false) ∧ (s.twin.paired = false) ∧ (s.accessible)
  | 9 => (bitAt s.flt.power dom = true)
  | _ => False

def restoresDec (clause : Nat) (s : State) (v : Word) (d : BitVec 4) (h : Hood) : Decidable (restoresHyp clause s v d h) := by
  dsimp only [restoresHyp, State.accessible]
  split <;> infer_instance

/-- States and operands that meet the premises of each clause of Restores. -/
theorem witness_Restores :
    restoresHyp 0 { wRun with mode := { wRun.mode with rest := true } } 2147483649 0 wHood ∧
    restoresHyp 1 wRun 2147483649 0 wHood ∧
    restoresHyp 2 { wRun with hood := some { Hood.empty with hdr := (default : HHeader), clocks := (default : HClocks), ports := (default : HPorts) } } 2147483650 0 { Hood.empty with hdr := (default : HHeader), clocks := (default : HClocks), ports := (default : HPorts) } ∧
    restoresHyp 3 wLead 2684354569 0 wHood ∧
    restoresHyp 4 wRun 2147483671 0 wHood ∧
    restoresHyp 5 { wRun with flt := { wRun.flt with restart := RestartPhase.complete } } 2147483650 0 wHood ∧
    restoresHyp 6 { wRun with flt := { wRun.flt with restart := RestartPhase.held } } 2147483649 0 wHood ∧
    restoresHyp 7 { wRun with flt := { wRun.flt with rstKind := true, restart := RestartPhase.held } } 2147483649 0 wHood ∧
    restoresHyp 8 wRun 2147483649 1 wHood ∧
    restoresHyp 9 { wRun with flt := { wRun.flt with power := 8 } } 2147483649 3 wHood :=
  ⟨yes (restoresDec _ _ _ _ _) (by decide +kernel),
   yes (restoresDec _ _ _ _ _) (by decide +kernel),
   yes (restoresDec _ _ _ _ _) (by decide +kernel),
   yes (restoresDec _ _ _ _ _) (by decide +kernel),
   yes (restoresDec _ _ _ _ _) (by decide +kernel),
   yes (restoresDec _ _ _ _ _) (by decide +kernel),
   yes (restoresDec _ _ _ _ _) (by decide +kernel),
   yes (restoresDec _ _ _ _ _) (by decide +kernel),
   yes (restoresDec _ _ _ _ _) (by decide +kernel),
   yes (restoresDec _ _ _ _ _) (by decide +kernel)⟩

/-- The premises of WindowStarts, by clause. -/
def windowStartsHyp (clause : Nat) (s : State) (p : Port) (w : BitVec 3) (v : Word) (c : Instr) : Prop :=
  let x := winAt s w.toNat
  let a := x.addr
  let tgt := v.toNat / 2 ^ 24 % 16
  let e := v.toNat / 2 ^ 20 % 16
  let len := v.toNat % 32
  let go := v.getLsbD 31 = true
  let own := p = .host ↔ w.toNat < 4
  let slot := fun (i : Nat) => (a + 4 * i) / 64
  let size := if tgt = 1 then s.dramMb * 2 ^ 20 else if tgt = 2 ∨ tgt = 6 then 0x20000 else 0x10000
  let engine := 2 ≤ tgt → tgt ≤ 5 → engineOn s e = true
  let present := engine ∧ (tgt = 1 → memOn s = true) ∧ (tgt = 6 → ∀ i, i < len → slot i < 2048 → clusterOn s (slot i / 256) = true)
  let writable := tgt ≠ 5 ∧ (tgt = 6 → ∀ i, i < len → 5 ≤ (a / 4 + i) % 16 ∧ (a / 4 + i) % 16 ≤ 12) ∧ (framesRun s = true → detHood s = true →
      ¬ (tgt = 2 ∨ tgt = 3 ∨ tgt = 4 ∨ tgt = 6 ∨ (tgt = 1 ∧ inRead s a (4 * len) = true))) ∧ (tgt = 1 → inCopy s a (4 * len) = false ∧
      inEnabled s a (4 * len) = false)
  let allowed := v.getLsbD 30 = true → writable
  let plain := v &&& 0x300FFF60#32 = 0 ∧ 1 ≤ tgt ∧ tgt ≤ 6 ∧ (tgt = 1 ∨ tgt = 6 → e = 0)
  let inside := 1 ≤ len ∧ len ≤ 16 ∧ a % 4 = 0 ∧ a + 4 * len ≤ size ∧ (tgt = 6 → ∀ i, i < len → slot i < 2048 ∧ slot i % 256 < (rateOf s).voices)
  (s.shape = unitCounts) ∧ (s.mode.mode ≠ .reset) ∧ (s.mode.mode ≠ .sleep) ∧ (c = .windowRead p w v ∨ c = .windowWrite p w v) ∧
  match clause with
  | 0 => (own) ∧ (go) ∧ (present) ∧ (allowed) ∧ (plain) ∧ (inside) ∧ (x.busy = false) ∧ (s.mode.mode ≠ .load)
  | 1 => (own) ∧ (¬ go) ∧ (engine) ∧ (v &&& 0x300FFF60#32 = 0)
  | 2 => (¬ own)
  | 3 => (own) ∧ (¬ engine)
  | 4 => (own) ∧ (go) ∧ (¬ present)
  | 5 => (own) ∧ (go) ∧ (present) ∧ (¬ allowed)
  | 6 => (own) ∧ (go) ∧ (present) ∧ (allowed) ∧ (¬ plain)
  | 7 => (own) ∧ (go) ∧ (present) ∧ (allowed) ∧ (plain) ∧ (¬ inside)
  | 8 => (own) ∧ (go) ∧ (present) ∧ (allowed) ∧ (plain) ∧ (inside) ∧ (x.busy = true ∨ s.mode.mode = .load)
  | _ => False

set_option synthInstance.maxSize 1000 in
set_option synthInstance.maxHeartbeats 200000 in
def windowStartsDec (clause : Nat) (s : State) (p : Port) (w : BitVec 3) (v : Word) (c : Instr) : Decidable (windowStartsHyp clause s p w v c) := by
  dsimp only [windowStartsHyp]
  split <;> infer_instance

/-- States and operands that meet the premises of each clause of WindowStarts. -/
theorem witness_WindowStarts :
    windowStartsHyp 0 wRun Port.host 0 2248146945 (Instr.windowWrite (Port.host) 0x0#3 0x86000001#32) ∧
    windowStartsHyp 1 wRun Port.host 0 19922960 (Instr.windowRead (Port.host) 0x0#3 0x01300010#32) ∧
    windowStartsHyp 2 wRun Port.spi 3 2232418312 (Instr.windowWrite (Port.spi) 0x3#3 0x85100008#32) ∧
    windowStartsHyp 3 State.reset Port.spi 5 3284140040 (Instr.windowRead (Port.spi) 0x5#3 0xc3c00008#32) ∧
    windowStartsHyp 4 State.reset Port.host 0 3238002690 (Instr.windowWrite (Port.host) 0x0#3 0xc1000002#32) ∧
    windowStartsHyp 5 wRun Port.spi 5 3321888912 (Instr.windowWrite (Port.spi) 0x5#3 0xc6000090#32) ∧
    windowStartsHyp 6 wRun Port.host 1 3223322752 (Instr.windowRead (Port.host) 0x1#3 0xc0200080#32) ∧
    windowStartsHyp 7 wReady Port.spi 5 3255828480 (Instr.windowRead (Port.spi) 0x5#3 0xc2100000#32) ∧
    windowStartsHyp 8 { wRun with mode := { wRun.mode with mode := Mode.load } } Port.host 2 2248146960 (Instr.windowRead (Port.host)
        0x2#3 0x86000010#32) :=
  ⟨yes (windowStartsDec _ _ _ _ _ _) (by decide +kernel),
   yes (windowStartsDec _ _ _ _ _ _) (by decide +kernel),
   yes (windowStartsDec _ _ _ _ _ _) (by decide +kernel),
   yes (windowStartsDec _ _ _ _ _ _) (by decide +kernel),
   yes (windowStartsDec _ _ _ _ _ _) (by decide +kernel),
   yes (windowStartsDec _ _ _ _ _ _) (by decide +kernel),
   yes (windowStartsDec _ _ _ _ _ _) (by decide +kernel),
   yes (windowStartsDec _ _ _ _ _ _) (by decide +kernel),
   yes (windowStartsDec _ _ _ _ _ _) (by decide +kernel)⟩

/-- The premises of WindowTransfers, by clause. -/
def windowTransfersHyp (clause : Nat) (s : State) (w : BitVec 3) (ecc : EccKind) (t : Template) (v : Voice) : Prop :=
  let x := winAt s w.toNat
  let a := x.addr
  let tgt := x.job / 2 ^ 24 % 16
  let len := x.job % 32
  let write := bitAt x.job 30 = true
  let record := slotAt s (a / 64)
  (s.shape = unitCounts) ∧
  match clause with
  | 0 => (x.busy = false)
  | 1 => (x.busy = true) ∧ (¬ write) ∧ (a % 4 = 0)
  | 2 => (x.busy = true) ∧ (¬ write) ∧ (a % 64 = 0) ∧ (len = 16) ∧ (tgt = 6) ∧ (record.pend = none) ∧ (record.cur = some v) ∧ (record.gen < 256) ∧
      (v.group < 64)
  | 3 => (x.busy = true) ∧ (write) ∧ (a % 4 = 0)
  | 4 => (x.busy = true) ∧ (write) ∧ (a % 64 = 36) ∧ (len ≤ 4) ∧ (tgt = 6) ∧ (record.cur = some v) ∧ (templateOf s v.group = some t)
  | 5 => (x.busy = true) ∧ (tgt ≠ 1 ∨ ecc = .clean)
  | 6 => (x.busy = true) ∧ (tgt = 1) ∧ (ecc = .corrected)
  | 7 => (x.busy = true) ∧ (tgt = 1) ∧ (ecc = .uncorrectable)
  | _ => False

def windowTransfersDec (clause : Nat) (s : State) (w : BitVec 3) (ecc : EccKind) (t : Template)
    (v : Voice) : Decidable (windowTransfersHyp clause s w ecc t v) := by
  dsimp only [windowTransfersHyp]
  split <;> infer_instance

/-- States and operands that meet the premises of each clause of WindowTransfers. -/
theorem witness_WindowTransfers :
    windowTransfersHyp 0 wRun 0 EccKind.clean (default : Template) (default : Voice) ∧
    windowTransfersHyp 1 { wRun with host := { wRun.host with wins := (wRun.host.wins.set 0 { (wRun.host.wins.getD 0 default) with busy := true }) } } 0 EccKind.clean (default : Template)
        (default : Voice) ∧
    windowTransfersHyp 2 { wRun with slots := [(0, ⟨0, some (default : Voice), none, none, false⟩), (0, (default : Slot)), (0, (default : Slot))], host := { wRun.host with wins := (wRun.host.wins.set 4 { (wRun.host.wins.getD 4 default) with busy := true, job := 2254438416 }) } } 4 EccKind.clean (default : Template)
        (default : Voice) ∧
    windowTransfersHyp 3 { wRun with host := { wRun.host with wins := (wRun.host.wins.set 2 { (wRun.host.wins.getD 2 default) with busy := true, job := 3243245584 }) } } 2 EccKind.clean (default : Template)
        (default : Voice) ∧
    windowTransfersHyp 4 { wRun with slots := [(0, ⟨0, some (default : Voice), none, none, false⟩), (0, (default : Slot)), (0, (default : Slot))], host := { wRun.host with wins := (wRun.host.wins.set 2 ⟨false, 0, 0, false, 0, 36, true, false, 0, 3328180226, List.replicate 16 0⟩) } } 2 EccKind.clean (default : Template)
        (default : Voice) ∧
    windowTransfersHyp 5 { wRun with host := { wRun.host with wins := (wRun.host.wins.set 2 { (wRun.host.wins.getD 2 default) with busy := true }) } } 2 EccKind.clean (default : Template)
        (default : Voice) ∧
    windowTransfersHyp 6 { wRun with host := { wRun.host with wins := (wRun.host.wins.set 7 { (wRun.host.wins.getD 7 default) with busy := true, job := 2178940928 }) } } 7 EccKind.corrected (default : Template)
        (default : Voice) ∧
    windowTransfersHyp 7 { wRun with host := { wRun.host with wins := (wRun.host.wins.set 0 { (wRun.host.wins.getD 0 default) with busy := true, job := 2165309456 }) } } 0 EccKind.uncorrectable (default : Template)
        (default : Voice) :=
  ⟨yes (windowTransfersDec _ _ _ _ _ _) (by decide +kernel),
   yes (windowTransfersDec _ _ _ _ _ _) (by decide +kernel),
   yes (windowTransfersDec _ _ _ _ _ _) (by decide +kernel),
   yes (windowTransfersDec _ _ _ _ _ _) (by decide +kernel),
   yes (windowTransfersDec _ _ _ _ _ _) (by decide +kernel),
   yes (windowTransfersDec _ _ _ _ _ _) (by decide +kernel),
   yes (windowTransfersDec _ _ _ _ _ _) (by decide +kernel),
   yes (windowTransfersDec _ _ _ _ _ _) (by decide +kernel)⟩

/-- The premises of RingIndices, by clause. -/
def ringIndicesHyp (clause : Nat) (s : State) (p : Port) (r : BitVec 6) (v : HWord) (h : HRing) : Prop :=
  let me := if p = .host then EndPt.host else .spi
  let now := pump (turnTo p 3 s)
  let x := ringState now r.toNat
  let y := ringState s r.toNat
  let waiting := (x.head - x.tail).toNat
  let held := (y.head - y.tail).toNat
  let found := hringOf s r.toNat = some h
  let head := Instr.ringHead (.port p) r v
  let tail := Instr.ringTail (.port p) r v
  let acts := fwActs s = true
  (s.shape = unitCounts) ∧ (s.accessible) ∧
  match clause with
  | 0 => (found) ∧ (h.prod = me) ∧ ((v - x.head).toNat ≤ 2 ^ h.size - waiting)
  | 1 => (found) ∧ (h.cons = me) ∧ (h.type ≠ 5) ∧ ((v - y.tail).toNat ≤ held)
  | 2 => (found) ∧ (h.cons = me) ∧ (h.type = 5) ∧ (rxRing s h.uart = some r.toNat) ∧ ((v - y.tail).toNat ≤ held)
  | 3 => (found) ∧ (h.prod = me) ∧ (2 ^ h.size < waiting + (v - x.head).toNat) ∧ (waiting ≤ 2 ^ h.size)
  | 4 => (found) ∧ (h.cons = me) ∧ (held < (v - y.tail).toNat)
  | 5 => (found) ∧ (h.prod ≠ me)
  | 6 => (found) ∧ (h.cons ≠ me)
  | 7 => (hringOf s r.toNat = none)
  | 8 => (found) ∧ (h.prod = .cores) ∧ (acts) ∧ ((v - y.head).toNat ≤ 2 ^ h.size - held)
  | 9 => (found) ∧ (h.cons = .cores) ∧ (h.type ≠ 5) ∧ (acts) ∧ ((v - y.tail).toNat ≤ held)
  | _ => False

def ringIndicesDec (clause : Nat) (s : State) (p : Port) (r : BitVec 6) (v : HWord) (h : HRing) : Decidable (ringIndicesHyp clause s p r v h) := by
  dsimp only [ringIndicesHyp, State.accessible]
  split <;> infer_instance

/-- States and operands that meet the premises of each clause of RingIndices. -/
theorem witness_RingIndices :
    ringIndicesHyp 0 { wRun with hood := some { wHood with rings := ⟨[(2, some ⟨4, EndPt.spi, EndPt.host, 3, 3, 80⟩), (0, none), (0, none)], [(Source.ring 0, 1)]⟩ }, rings := (wRun.rings.set 2 ⟨36343, 36341, false, 1, 0, 0, 0, none⟩) } Port.spi 2 36344 ⟨4,
        EndPt.spi, EndPt.host, 3, 3, 80⟩ ∧
    ringIndicesHyp 1 { wRun with hood := some { wHood with rings := ⟨[(3, some ⟨4, EndPt.dram, EndPt.spi, 1, 3, 120⟩), (0, none)], [(Source.ring 0, 1)]⟩ }, rings := (wRun.rings.set 3 ⟨0, 1, false, 1, 0, 0, 0, none⟩) } Port.spi 3 0 ⟨4,
        EndPt.dram, EndPt.spi, 1, 3, 120⟩ ∧
    ringIndicesHyp 2 { wRun with hood := some { wHood with rings := ⟨[(1, some ⟨5, EndPt.uart, EndPt.spi, 1, 1, 40⟩), (0, none)], [(Source.ring 0, 1)]⟩ }, rings := (wRun.rings.set 1 ⟨0, 1, false, 1, 0, 0, 0, none⟩) } Port.spi 1 0 ⟨5,
        EndPt.uart, EndPt.spi, 1, 1, 40⟩ ∧
    ringIndicesHyp 3 { wRun with hood := some { wHood with rings := ⟨[(0, some ⟨5, EndPt.host, EndPt.scheduler, 0, 2, 0⟩), (0, none), (0, none)], [(Source.ring 0, 1)]⟩ }, rings := (wRun.rings.set 0 ⟨1, 0, false, 1, 0, 0, 0, none⟩) } Port.host 0 0 ⟨5,
        EndPt.host, EndPt.scheduler, 0, 2, 0⟩ ∧
    ringIndicesHyp 4 { wRun with hood := some { wHood with rings := ⟨[(2, some ⟨5, EndPt.host, EndPt.spi, 0, 2, 80⟩), (0, none), (0, none)], [(Source.ring 0, 1)]⟩ } } Port.spi 2 1 ⟨5,
        EndPt.host, EndPt.spi, 0, 2, 80⟩ ∧
    ringIndicesHyp 5 { wRun with hood := some { wHood with rings := ⟨[(1, some ⟨4, EndPt.scheduler, EndPt.scheduler, 0, 2, 40⟩), (0, none), (0, none)], [(Source.ring 0, 1)]⟩ } } Port.spi 1 0 ⟨4,
        EndPt.scheduler, EndPt.scheduler, 0, 2, 40⟩ ∧
    ringIndicesHyp 6 { wRun with hood := some { wHood with rings := ⟨[(1, some ⟨4, EndPt.scheduler, EndPt.scheduler, 0, 2, 40⟩), (0, none), (0, none)], [(Source.ring 0, 1)]⟩ } } Port.spi 1 0 ⟨4,
        EndPt.scheduler, EndPt.scheduler, 0, 2, 40⟩ ∧
    ringIndicesHyp 7 State.reset Port.spi 0 0 ⟨4, EndPt.spi, EndPt.host, 3, 3, 80⟩ ∧
    ringIndicesHyp 8 { wRun with hood := some { wHood with rings := ⟨[(4, some ⟨5, EndPt.cores, EndPt.dram, 1, 1, 160⟩), (0, none)], [(Source.ring 0, 1)]⟩ }, rings := (wRun.rings.set 4 ⟨64166, 64166, false, 1, 0, 0, 0, none⟩) } Port.host 4 64167 ⟨5,
        EndPt.cores, EndPt.dram, 1, 1, 160⟩ ∧
    ringIndicesHyp 9 { wRun with hood := some { wHood with rings := ⟨[(2, some ⟨3, EndPt.scheduler, EndPt.cores, 2, 1, 80⟩), (0, none), (0, none)], [(Source.ring 0, 1)]⟩ }, rings := (wRun.rings.set 2 ⟨0, 1, false, 1, 0, 0, 0, none⟩) } Port.host 2 0 ⟨3,
        EndPt.scheduler, EndPt.cores, 2, 1, 80⟩ :=
  ⟨yes (ringIndicesDec _ _ _ _ _ _) (by decide +kernel),
   yes (ringIndicesDec _ _ _ _ _ _) (by decide +kernel),
   yes (ringIndicesDec _ _ _ _ _ _) (by decide +kernel),
   yes (ringIndicesDec _ _ _ _ _ _) (by decide +kernel),
   yes (ringIndicesDec _ _ _ _ _ _) (by decide +kernel),
   yes (ringIndicesDec _ _ _ _ _ _) (by decide +kernel),
   yes (ringIndicesDec _ _ _ _ _ _) (by decide +kernel),
   yes (ringIndicesDec _ _ _ _ _ _) (by decide +kernel),
   yes (ringIndicesDec _ _ _ _ _ _) (by decide +kernel),
   yes (ringIndicesDec _ _ _ _ _ _) (by decide +kernel)⟩

/-- The premises of BulkRequests, by clause. -/
def bulkRequestsHyp (clause : Nat) (s : State) (r : BitVec 6) (h : HRing) (q : Words) (code : Nat) : Prop :=
  let x := ringState s r.toNat
  let f := fun (i : Nat) => (q.getD i 0).toNat
  let op := f 0 / 2 ^ 24
  let ring := f 1
  let dram := f 2
  let n := f 3
  let sane := f 0 % 2 ^ 24 = 0 ∧ f 4 = 0 ∧ f 5 = 0 ∧ f 6 = 0
  let inside := ring % 32 = 0 ∧ dram % 64 = 0 ∧ n % 64 = 0 ∧ 64 ≤ n ∧ n ≤ 65536 ∧ ring + n ≤ 0x30000 ∧ dram + n ≤ s.dramMb * 2 ^ 20
  let free := inCopy s dram n = false ∧ inEnabled s dram n = false ∧ (framesRun s = true → detHood s = true → inRead s dram n = false)
  let good := memOn s = true ∧ (op = 1 → free) ∧ sane ∧ inside
  (s.shape = unitCounts) ∧ (hringOf s r.toNat = some h) ∧ (h.type = 7) ∧ (ringFront s r.toNat = some q) ∧
  match clause with
  | 0 => (x.job = none) ∧ (op = 1) ∧ (good)
  | 1 => (x.job = none) ∧ (op = 2) ∧ (good)
  | 2 => (x.job = none) ∧ (op = 1) ∧ (memOn s = true) ∧ (¬ free)
  | 3 => (x.job = none) ∧ (op = 1) ∧ (memOn s = true) ∧ (free) ∧ (¬ sane)
  | 4 => (x.job = none) ∧ (op = 2) ∧ (memOn s = true) ∧ (¬ sane)
  | 5 => (x.job = none) ∧ (op = 2) ∧ (memOn s = true) ∧ (sane) ∧ (¬ inside)
  | 6 => (x.job = none) ∧ (op = 2) ∧ (memOn s = false)
  | 7 => (x.job = some code) ∧ (code < 2 ^ 8)
  | _ => False

def bulkRequestsDec (clause : Nat) (s : State) (r : BitVec 6) (h : HRing) (q : Words)
    (code : Nat) : Decidable (bulkRequestsHyp clause s r h q code) := by
  dsimp only [bulkRequestsHyp]
  split <;> infer_instance

/-- States and operands that meet the premises of each clause of BulkRequests. -/
theorem witness_BulkRequests :
    bulkRequestsHyp 0 { wReady with hood := some { wHood with rings := ⟨[(1, some ⟨7, EndPt.host, EndPt.host, 0, 4, 4⟩), (0, none), (0, none)], [(Source.ring 0, 1)]⟩ }, rings := (wReady.rings.set 1 ⟨0, 52252, false, 1, 0, 0, 0, none⟩), ringMem := [(515, 1), (524, 64), (0, 0), (0, 0), (0, 0), (0, 0)] } 1 ⟨7,
        EndPt.host, EndPt.host, 0, 4, 4⟩ [16777216, 0, 0, 64, 0, 0, 0, 0] 0 ∧
    bulkRequestsHyp 1 { wRun with hood := some { wHood with rings := ⟨[(2, some ⟨7, EndPt.host, EndPt.host, 0, 0, 4⟩), (0, none)], [(Source.ring 0, 1)]⟩ }, rings := (wRun.rings.set 2 ⟨0, 1, false, 1, 0, 0, 0, none⟩), ringMem := [(131, 2), (140, 192), (0, 0), (0, 0), (0, 0), (0, 0)] } 2 ⟨7,
        EndPt.host, EndPt.host, 0, 0, 4⟩ [33554432, 0, 0, 192, 0, 0, 0, 0] 0 ∧
    bulkRequestsHyp 2 { wRun with hood := some { wHood with rings := ⟨[(1, some ⟨7, EndPt.host, EndPt.host, 0, 0, 4⟩), (0, none), (0, none)], [(Source.ring 0, 1)]⟩ }, dramMb := 1, rings := (wRun.rings.set 1 ⟨0, 1, false, 1, 0, 0, 0, none⟩), ringMem := [(131, 1), (136, 1), (0, 0), (142, 1), (0, 0), (0, 0), (0, 0), (0, 0)] } 1 ⟨7,
        EndPt.host, EndPt.host, 0, 0, 4⟩ [16777216, 0, 1, 65536, 0, 0, 0, 0] 0 ∧
    bulkRequestsHyp 3 { wReady with hood := some { wHood with rings := ⟨[(1, some ⟨7, EndPt.host, EndPt.host, 0, 4, 4⟩), (0, none), (0, none), (0, none)], [(Source.ring 0, 1)]⟩ }, rings := (wReady.rings.set 1 ⟨0, 65535, false, 1, 0, 0, 0, none⟩), ringMem := [(608, 1), (611, 1), (0, 0), (0, 0), (0, 0), (0, 0), (0, 0)] } 1 ⟨7,
        EndPt.host, EndPt.host, 0, 4, 4⟩ [16777217, 0, 0, 0, 0, 0, 0, 0] 0 ∧
    bulkRequestsHyp 4 { wRun with hood := some { wHood with rings := ⟨[(2, some ⟨7, EndPt.host, EndPt.host, 0, 4, 4⟩), (0, none)], [(Source.ring 0, 1)]⟩ }, rings := (wRun.rings.set 2 ⟨0, 8, false, 1, 0, 0, 0, none⟩), ringMem := [(387, 2), (0, 0), (0, 0), (404, 1), (0, 0), (0, 0), (0, 0), (0, 0)] } 2 ⟨7,
        EndPt.host, EndPt.host, 0, 4, 4⟩ [33554432, 0, 0, 0, 0, 1, 0, 0] 0 ∧
    bulkRequestsHyp 5 { wRun with hood := some { wHood with rings := ⟨[(0, some ⟨7, EndPt.host, EndPt.host, 0, 0, 4⟩), (0, none), (0, none), (0, none)], [(Source.ring 0, 1)]⟩ }, rings := (wRun.rings.set 0 ⟨1, 0, false, 1, 0, 0, 0, none⟩), ringMem := [(131, 2), (0, 0), (0, 0), (0, 0), (0, 0)] } 0 ⟨7,
        EndPt.host, EndPt.host, 0, 0, 4⟩ [33554432, 0, 0, 0, 0, 0, 0, 0] 0 ∧
    bulkRequestsHyp 6 { wRun with mode := (default : ModeSt), hood := some { wHood with rings := ⟨[(0, some ⟨7, EndPt.host, EndPt.host, 0, 4, 4⟩), (0, none), (0, none)], [(Source.ring 0, 1)]⟩ }, rings := (wRun.rings.set 0 ⟨0, 65535, false, 1, 0, 0, 0, none⟩), ringMem := [(611, 2), (0, 0), (0, 0), (0, 0), (0, 0), (0, 0)] } 0 ⟨7,
        EndPt.host, EndPt.host, 0, 4, 4⟩ [33554432, 0, 0, 0, 0, 0, 0, 0] 0 ∧
    bulkRequestsHyp 7 { wRun with hood := some { wHood with rings := ⟨[(3, some ⟨7, EndPt.host, EndPt.host, 0, 0, 0⟩), (0, none)], [(Source.ring 0, 1)]⟩ }, rings := (wRun.rings.set 3 ⟨1, 0, false, 1, 0, 0, 0, some 0⟩) } 3 ⟨7,
        EndPt.host, EndPt.host, 0, 0, 0⟩ (List.replicate 8 0) 0 :=
  ⟨yes (bulkRequestsDec _ _ _ _ _ _) (by decide +kernel),
   yes (bulkRequestsDec _ _ _ _ _ _) (by decide +kernel),
   yes (bulkRequestsDec _ _ _ _ _ _) (by decide +kernel),
   yes (bulkRequestsDec _ _ _ _ _ _) (by decide +kernel),
   yes (bulkRequestsDec _ _ _ _ _ _) (by decide +kernel),
   yes (bulkRequestsDec _ _ _ _ _ _) (by decide +kernel),
   yes (bulkRequestsDec _ _ _ _ _ _) (by decide +kernel),
   yes (bulkRequestsDec _ _ _ _ _ _) (by decide +kernel)⟩

/-- The premises of TaskCommands, by clause. -/
def taskCommandsHyp (clause : Nat) (s : State) (t : BitVec 10) (n : HWord) (who : Agent) (w : Words) (r : Nat) (h : HRing) : Prop :=
  let t0 := t.setWidth 32
  let task := t.toNat
  let d := descAt s task
  let ready := fun (w : Words) => Instr.taskReady ⟨w, who⟩
  let may := who = .firmware ∨ d.host = true
  let direct := fun (cmd : Nat) (w : Words) => taskRingOf s (taskWords cmd ⟨w, who⟩) who = none
  let plain := direct 1 [t0] ∧ direct 2 [t0] ∧ direct 3 [t0, n.setWidth 32]
  let queued := d.state = .ready ∨ d.state = .prefetched
  let found := fun (cmd : Nat) (w : Words) => taskRingOf s (taskWords cmd ⟨w, who⟩) who = some r ∧ hringOf s r = some h
  (s.shape = unitCounts) ∧
  match clause with
  | 0 => (plain) ∧ (may) ∧ (d.state = .idle ∨ d.state = .delayed)
  | 1 => (plain) ∧ (may) ∧ (queued)
  | 2 => (plain) ∧ (may) ∧ (d.state = .running)
  | 3 => (plain) ∧ (may) ∧ (d.state = .free)
  | 4 => (plain) ∧ (may) ∧ (d.state = .idle)
  | 5 => (plain) ∧ (may) ∧ (queued)
  | 6 => (plain) ∧ (may) ∧ (d.state = .delayed)
  | 7 => (plain) ∧ (may) ∧ (d.state = .running)
  | 8 => (plain) ∧ (may) ∧ (n ≠ 0) ∧ (d.state = .idle)
  | 9 => (plain) ∧ (may) ∧ (n ≠ 0) ∧ (d.state ≠ .idle)
  | 10 => (plain) ∧ (n = 0) ∧ (may)
  | 11 => (plain) ∧ (¬ may)
  | 12 => (direct 1 w) ∧ (Words.fld w 0 23 10 ≠ 0 ∨ ¬ (∀ i, i < 6 → w.getD (i + 1) 0 = 0))
  | 13 => (found 1 [t0]) ∧ (may)
  | 14 => (found 2 [t0]) ∧ (may)
  | 15 => (found 3 [t0, n.setWidth 32]) ∧ (may) ∧ (n ≠ 0)
  | _ => False

def taskCommandsDec (clause : Nat) (s : State) (t : BitVec 10) (n : HWord) (who : Agent) (w : Words) (r : Nat)
    (h : HRing) : Decidable (taskCommandsHyp clause s t n who w r h) := by
  dsimp only [taskCommandsHyp]
  split <;> infer_instance

/-- States and operands that meet the premises of each clause of TaskCommands. -/
theorem witness_TaskCommands :
    taskCommandsHyp 0 { wRun with sched := { wRun.sched with descs := [(0, { (default : Desc) with state := TaskState.delayed, host := true }), (0, (default : Desc)), (0, (default : Desc)), (0, (default : Desc)), (0, (default : Desc))] } } 0 0 (Agent.port (Port.host))
        [] 0 ⟨4, EndPt.spi, EndPt.scheduler, 0, 4, 7⟩ ∧
    taskCommandsHyp 1 { wRun with sched := { wRun.sched with descs := [(0, { (default : Desc) with state := TaskState.ready }), (0, (default : Desc)), (0, (default : Desc)), (0, (default : Desc)), (0, (default : Desc))] } } 0 0 Agent.firmware [] 0 ⟨4,
        EndPt.spi, EndPt.scheduler, 0, 4, 7⟩ ∧
    taskCommandsHyp 2 { wRun with sched := { wRun.sched with descs := [(3, { (default : Desc) with state := TaskState.running, host := true }), (0, (default : Desc)), (0, (default : Desc)), (0, (default : Desc))] } } 3 0 (Agent.port (Port.host))
        [] 0 ⟨4, EndPt.spi, EndPt.scheduler, 0, 4, 7⟩ ∧
    taskCommandsHyp 3 { wRun with sched := { wRun.sched with descs := [(5, { (default : Desc) with host := true }), (0, (default : Desc)), (0, (default : Desc))] } } 5 0 (Agent.port (Port.spi))
        [] 0 ⟨4, EndPt.spi, EndPt.scheduler, 0, 4, 7⟩ ∧
    taskCommandsHyp 4 { wRun with sched := { wRun.sched with descs := [(0, { (default : Desc) with state := TaskState.idle, host := true }), (0, (default : Desc)), (0, (default : Desc)), (0, (default : Desc)), (0, (default : Desc))] } } 0 0 (Agent.port (Port.host))
        [] 0 ⟨4, EndPt.spi, EndPt.scheduler, 0, 4, 7⟩ ∧
    taskCommandsHyp 5 { wRun with sched := { wRun.sched with descs := [(0, { (default : Desc) with state := TaskState.ready }), (0, (default : Desc)), (0, (default : Desc)), (0, (default : Desc)), (0, (default : Desc))] } } 0 0 Agent.firmware [] 0 ⟨4,
        EndPt.spi, EndPt.scheduler, 0, 4, 7⟩ ∧
    taskCommandsHyp 6 { wRun with sched := { wRun.sched with descs := [(0, { (default : Desc) with state := TaskState.delayed, host := true }), (0, (default : Desc)), (0, (default : Desc)), (0, (default : Desc)), (0, (default : Desc))] } } 0 0 (Agent.port (Port.host))
        [] 0 ⟨4, EndPt.spi, EndPt.scheduler, 0, 4, 7⟩ ∧
    taskCommandsHyp 7 { wRun with sched := { wRun.sched with descs := [(3, { (default : Desc) with state := TaskState.running, host := true }), (0, (default : Desc)), (0, (default : Desc)), (0, (default : Desc))] } } 3 0 (Agent.port (Port.host))
        [] 0 ⟨4, EndPt.spi, EndPt.scheduler, 0, 4, 7⟩ ∧
    taskCommandsHyp 8 { wRun with sched := { wRun.sched with descs := [(0, { (default : Desc) with state := TaskState.idle, host := true }), (0, (default : Desc)), (0, (default : Desc)), (0, (default : Desc)), (0, (default : Desc))] } } 0 1 (Agent.port (Port.spi))
        [] 0 ⟨4, EndPt.spi, EndPt.scheduler, 0, 4, 7⟩ ∧
    taskCommandsHyp 9 { wRun with sched := { wRun.sched with descs := [(0, { (default : Desc) with host := true }), (0, (default : Desc)), (0, (default : Desc)), (0, (default : Desc)), (0, (default : Desc))] } } 0 1 (Agent.port (Port.host))
        [] 0 ⟨4, EndPt.spi, EndPt.scheduler, 0, 4, 7⟩ ∧
    taskCommandsHyp 10 { wRun with sched := { wRun.sched with descs := [(5, { (default : Desc) with host := true }), (0, (default : Desc)), (0, (default : Desc))] } } 5 0 (Agent.port (Port.spi))
        [] 0 ⟨4, EndPt.spi, EndPt.scheduler, 0, 4, 7⟩ ∧
    taskCommandsHyp 11 wRun 0 0 (Agent.port (Port.spi)) [] 0 ⟨4, EndPt.spi, EndPt.scheduler, 0, 4, 7⟩ ∧
    taskCommandsHyp 12 wRun 0 0 (Agent.port (Port.spi)) [2053] 0 ⟨4, EndPt.spi, EndPt.scheduler, 0, 4, 7⟩ ∧
    taskCommandsHyp 13 { wRun with hood := some { wHood with rings := ⟨[(0, some ⟨4, EndPt.spi, EndPt.scheduler, 0, 4, 7⟩)], [(Source.ring 0, 1)]⟩ }, rings := (wRun.rings.set 0 ⟨0, 8, false, 1, 0, 0, 0, none⟩), ringMem := [(480, 7), (483, 1)], sched := { wRun.sched with descs := [(7, { (default : Desc) with host := true }), (0, (default : Desc))] } } 7 0 (Agent.port (Port.spi))
        [] 0 ⟨4, EndPt.spi, EndPt.scheduler, 0, 4, 7⟩ ∧
    taskCommandsHyp 14 { wRun with hood := some { wHood with rings := ⟨[(2, some ⟨4, EndPt.cores, EndPt.scheduler, 0, 4, 7⟩)], [(Source.ring 0, 1)]⟩ }, rings := (wRun.rings.set 2 ⟨0, 32768, false, 1, 0, 0, 0, none⟩), ringMem := [(224, 10), (227, 2)] } 10 0 Agent.firmware [] 2 ⟨4,
        EndPt.cores, EndPt.scheduler, 0, 4, 7⟩ ∧
    taskCommandsHyp 15 { wRun with hood := some { wHood with rings := ⟨[(2, some ⟨4, EndPt.cores, EndPt.scheduler, 0, 4, 7⟩)], [(Source.ring 0, 1)]⟩ }, rings := (wRun.rings.set 2 ⟨0, 7574, false, 1, 0, 0, 0, none⟩), ringMem := [(416, 15), (419, 3), (420, 5)] } 15 5 Agent.firmware [] 2 ⟨4,
        EndPt.cores, EndPt.scheduler, 0, 4, 7⟩ :=
  ⟨yes (taskCommandsDec _ _ _ _ _ _ _ _) (by decide +kernel),
   yes (taskCommandsDec _ _ _ _ _ _ _ _) (by decide +kernel),
   yes (taskCommandsDec _ _ _ _ _ _ _ _) (by decide +kernel),
   yes (taskCommandsDec _ _ _ _ _ _ _ _) (by decide +kernel),
   yes (taskCommandsDec _ _ _ _ _ _ _ _) (by decide +kernel),
   yes (taskCommandsDec _ _ _ _ _ _ _ _) (by decide +kernel),
   yes (taskCommandsDec _ _ _ _ _ _ _ _) (by decide +kernel),
   yes (taskCommandsDec _ _ _ _ _ _ _ _) (by decide +kernel),
   yes (taskCommandsDec _ _ _ _ _ _ _ _) (by decide +kernel),
   yes (taskCommandsDec _ _ _ _ _ _ _ _) (by decide +kernel),
   yes (taskCommandsDec _ _ _ _ _ _ _ _) (by decide +kernel),
   yes (taskCommandsDec _ _ _ _ _ _ _ _) (by decide +kernel),
   yes (taskCommandsDec _ _ _ _ _ _ _ _) (by decide +kernel),
   yes (taskCommandsDec _ _ _ _ _ _ _ _) (by decide +kernel),
   yes (taskCommandsDec _ _ _ _ _ _ _ _) (by decide +kernel),
   yes (taskCommandsDec _ _ _ _ _ _ _ _) (by decide +kernel)⟩

/-- The premises of Slots, by clause. -/
def slotsHyp (clause : Nat) (s : State) (j : Nat) : Prop :=
  (s.shape = unitCounts) ∧ (j < 20) ∧
  match clause with
  | 0 => (taskRings s = [])
  | 1 => (taskRings s = []) ∧ (j + 1 < 20)
  | 2 => (taskRings s = [])
  | 3 => (taskRings s = [])
  | 4 => (taskRings s = [])
  | _ => False

def slotsDec (clause : Nat) (s : State) (j : Nat) : Decidable (slotsHyp clause s j) := by
  dsimp only [slotsHyp]
  split <;> infer_instance

/-- States and operands that meet the premises of each clause of Slots. -/
theorem witness_Slots :
    slotsHyp 0 wRun 0 ∧
    slotsHyp 1 wRun 0 ∧
    slotsHyp 2 wRun 0 ∧
    slotsHyp 3 wRun 0 ∧
    slotsHyp 4 wRun 0 :=
  ⟨yes (slotsDec _ _ _) (by decide +kernel),
   yes (slotsDec _ _ _) (by decide +kernel),
   yes (slotsDec _ _ _) (by decide +kernel),
   yes (slotsDec _ _ _) (by decide +kernel),
   yes (slotsDec _ _ _) (by decide +kernel)⟩

/-- The premises of TaskEnds, by clause. -/
def taskEndsHyp (clause : Nat) (s : State) (j : Nat) (x : Nat) (fault : Bool) : Prop :=
  let c := schCore s j
  let d := descAt s x
  (s.shape = unitCounts) ∧ (j < 20) ∧ (taskRings s = []) ∧ (s.fw.handover = none) ∧ (s.fw.actAt = none) ∧
  match clause with
  | 0 => (c.run = none)
  | 1 => (c.run = some x) ∧ (fault = false) ∧ (d.rerun = false)
  | 2 => (c.run = some x) ∧ (fault = false) ∧ (d.rerun = true)
  | 3 => (c.run = some x) ∧ (fault = true)
  | 4 => (s.mode.mode = .ready) ∧ (s.twin.paired = false) ∧ (4 ≤ j) ∧ (c.run = some x) ∧ (d.state = .running) ∧ (d.core = j)
  | 5 => (s.mode.mode ≠ .reset) ∧ (s.mode.mode ≠ .sleep)
  | 6 => (s.mode.mode = .reset ∨ s.mode.mode = .sleep)
  | 7 => (s.sched.lwinCur ≤ s.sched.msCount)
  | 8 => (s.sched.msCount < s.sched.lwinCur)
  | _ => False

def taskEndsDec (clause : Nat) (s : State) (j : Nat) (x : Nat) (fault : Bool) : Decidable (taskEndsHyp clause s j x fault) := by
  dsimp only [taskEndsHyp]
  split <;> infer_instance

/-- States and operands that meet the premises of each clause of TaskEnds. -/
theorem witness_TaskEnds :
    taskEndsHyp 0 wRun 0 0 false ∧
    taskEndsHyp 1 { wRun with sched := { wRun.sched with cores := (wRun.sched.cores.set 10 ⟨none, some 0, none, 0, 0, 0⟩) } } 10 0 false ∧
    taskEndsHyp 2 { wRun with hood := none, sched := { wRun.sched with descs := [(2, { (default : Desc) with rerun := true }), (0, (default : Desc)), (0, (default : Desc)), (0, (default : Desc))], cores := (wRun.sched.cores.set 11 ⟨none, some 2, none, 0, 0, 0⟩) } } 11 2 false ∧
    taskEndsHyp 3 { wRun with hood := none, sched := { wRun.sched with cores := (wRun.sched.cores.set 11 ⟨none, some 0, none, 0, 0, 0⟩) } } 11 0 true ∧
    taskEndsHyp 4 { wReady with hood := none, sched := { wReady.sched with descs := [(9, { (default : Desc) with state := TaskState.running, core := 11 })], cores := (wReady.sched.cores.set 11 ⟨none, some 9, none, 0, 0, 0⟩) } } 11 9 false ∧
    taskEndsHyp 5 wRun 0 0 false ∧
    taskEndsHyp 6 { State.reset with mode := (default : ModeSt) } 0 0 false ∧
    taskEndsHyp 7 { wRun with sched := { wRun.sched with lwinCur := 0 } } 0 0 false ∧
    taskEndsHyp 8 wRun 0 0 false :=
  ⟨yes (taskEndsDec _ _ _ _ _) (by decide +kernel),
   yes (taskEndsDec _ _ _ _ _) (by decide +kernel),
   yes (taskEndsDec _ _ _ _ _) (by decide +kernel),
   yes (taskEndsDec _ _ _ _ _) (by decide +kernel),
   yes (taskEndsDec _ _ _ _ _) (by decide +kernel),
   yes (taskEndsDec _ _ _ _ _) (by decide +kernel),
   yes (taskEndsDec _ _ _ _ _) (by decide +kernel),
   yes (taskEndsDec _ _ _ _ _) (by decide +kernel),
   yes (taskEndsDec _ _ _ _ _) (by decide +kernel)⟩

/-- The premises of Mailboxes, by clause. -/
def mailboxesHyp (clause : Nat) (s : State) (p : Port) (c : BitVec 4) (v : Word) (m : Words) (r : BitVec 6) (h : HRing) : Prop :=
  let own := p = .host ↔ c.toNat < 8
  let n := c.toNat
  let x := mbxAt s n
  let serves := fwServes s = true
  (s.shape = unitCounts) ∧ (s.accessible) ∧
  match clause with
  | 0 => (own) ∧ (x.infull = false)
  | 1 => (own) ∧ (x.infull = true)
  | 2 => (¬ own)
  | 3 => (own)
  | 4 => (own) ∧ (v &&& 0x7FFFFFF8#32 = 0)
  | 5 => (own) ∧ (v &&& 0x7FFFFFF8#32 ≠ 0)
  | 6 => (serves) ∧ (x.infull = true)
  | 7 => (serves) ∧ (x.infull = false)
  | 8 => (serves) ∧ (x.outfull = false) ∧ (fwOuts s n = [])
  | 9 => (serves) ∧ (x.outfull = true)
  | 10 => (serves) ∧ (hringOf s r.toNat = some h) ∧ (h.type = 3) ∧ (h.prod = .cores) ∧ ((m.getD 0 0).toNat / 2 ^ 28 = 3)
  | 11 => (serves)
  | 12 => (¬ serves)
  | _ => False

def mailboxesDec (clause : Nat) (s : State) (p : Port) (c : BitVec 4) (v : Word) (m : Words) (r : BitVec 6)
    (h : HRing) : Decidable (mailboxesHyp clause s p c v m r h) := by
  dsimp only [mailboxesHyp, State.accessible]
  split <;> infer_instance

/-- States and operands that meet the premises of each clause of Mailboxes. -/
theorem witness_Mailboxes :
    mailboxesHyp 0 wRun Port.spi 13 0 [805306368, 0] 0 ⟨3, EndPt.cores, EndPt.host, 0, 0, 0⟩ ∧
    mailboxesHyp 1 { wRun with mbx := (wRun.mbx.set 0 { (wRun.mbx.getD 0 default) with infull := true }) } Port.host 0 0 [805306368, 0] 0 ⟨3,
        EndPt.cores, EndPt.host, 0, 0, 0⟩ ∧
    mailboxesHyp 2 wRun Port.host 11 0 [805306368, 0] 0 ⟨3, EndPt.cores, EndPt.host, 0, 0, 0⟩ ∧
    mailboxesHyp 3 wRun Port.host 0 0 [805306368, 0] 0 ⟨3, EndPt.cores, EndPt.host, 0, 0, 0⟩ ∧
    mailboxesHyp 4 wRun Port.host 0 0 [805306368, 0] 0 ⟨3, EndPt.cores, EndPt.host, 0, 0, 0⟩ ∧
    mailboxesHyp 5 wRun Port.spi 13 8 [805306368, 0] 0 ⟨3, EndPt.cores, EndPt.host, 0, 0, 0⟩ ∧
    mailboxesHyp 6 { wRun with mbx := (wRun.mbx.set 0 { (wRun.mbx.getD 0 default) with infull := true }) } Port.spi 0 0 [805306368, 0] 0 ⟨3,
        EndPt.cores, EndPt.host, 0, 0, 0⟩ ∧
    mailboxesHyp 7 wRun Port.spi 0 0 [805306368, 0] 0 ⟨3, EndPt.cores, EndPt.host, 0, 0, 0⟩ ∧
    mailboxesHyp 8 wRun Port.spi 0 0 [805306368, 0] 0 ⟨3, EndPt.cores, EndPt.host, 0, 0, 0⟩ ∧
    mailboxesHyp 9 { wRun with mbx := (wRun.mbx.set 0 { (wRun.mbx.getD 0 default) with outfull := true }) } Port.spi 0 0 [805306368, 0] 0 ⟨3,
        EndPt.cores, EndPt.host, 0, 0, 0⟩ ∧
    mailboxesHyp 10 { wRun with hood := some { wHood with rings := ⟨[(9, some ⟨3, EndPt.cores, EndPt.host, 0, 0, 0⟩)], [(Source.ring 0, 1)]⟩ } } Port.spi 0 0 [805306368,
        0] 9 ⟨3, EndPt.cores, EndPt.host, 0, 0, 0⟩ ∧
    mailboxesHyp 11 wRun Port.spi 0 0 [805306368, 0] 0 ⟨3, EndPt.cores, EndPt.host, 0, 0, 0⟩ ∧
    mailboxesHyp 12 State.reset Port.spi 0 0 [805306368, 0] 0 ⟨3, EndPt.cores, EndPt.host, 0, 0, 0⟩ :=
  ⟨yes (mailboxesDec _ _ _ _ _ _ _ _) (by decide +kernel),
   yes (mailboxesDec _ _ _ _ _ _ _ _) (by decide +kernel),
   yes (mailboxesDec _ _ _ _ _ _ _ _) (by decide +kernel),
   yes (mailboxesDec _ _ _ _ _ _ _ _) (by decide +kernel),
   yes (mailboxesDec _ _ _ _ _ _ _ _) (by decide +kernel),
   yes (mailboxesDec _ _ _ _ _ _ _ _) (by decide +kernel),
   yes (mailboxesDec _ _ _ _ _ _ _ _) (by decide +kernel),
   yes (mailboxesDec _ _ _ _ _ _ _ _) (by decide +kernel),
   yes (mailboxesDec _ _ _ _ _ _ _ _) (by decide +kernel),
   yes (mailboxesDec _ _ _ _ _ _ _ _) (by decide +kernel),
   yes (mailboxesDec _ _ _ _ _ _ _ _) (by decide +kernel),
   yes (mailboxesDec _ _ _ _ _ _ _ _) (by decide +kernel),
   yes (mailboxesDec _ _ _ _ _ _ _ _) (by decide +kernel)⟩

/-- The premises of Services, by clause. -/
def servicesHyp (clause : Nat) (s : State) (c : BitVec 4) (q : Byte) (k : Word) (u4 : BitVec 2) (ws : List Word) (n : BitVec 5) (x : HPath)
    (m : Words) : Prop :=
  let ch := c.toNat
  let mode := s.mode.mode
  let paths := pathsOf s
  let word := fun (m : Words) (i : Nat) => (m.getD i 0).toNat
  let uw := u4.setWidth 32
  let un := u4.toNat
  let info := request 1 1 q []
  let count := request 2 1 q []
  let path := request 2 2 q [k]
  let lock := request 0x10 1 q ws
  let stats := request 4 1 q [uw]
  let send := request 4 2 q ((uw ||| n.setWidth 32 <<< 8) :: ws)
  let status := request 5 1 q [uw]
  (s.shape = unitCounts) ∧
  match clause with
  | 0 => (Asked s ch info)
  | 1 => (Asked s ch count) ∧ (mode ≠ .loader) ∧ (mode ≠ .load)
  | 2 => (Asked s ch path) ∧ (mode ≠ .loader) ∧ (mode ≠ .load) ∧ (paths[k.toNat]? = some x)
  | 3 => (Asked s ch path) ∧ (mode ≠ .loader) ∧ (mode ≠ .load) ∧ (paths.length ≤ k.toNat)
  | 4 => (mode = .loader ∨ mode = .load)
  | 5 => (Asked s ch lock) ∧ (8 ≤ ch) ∧ (mode = .loader ∨ mode = .ready) ∧ (s.fuses.lock = false)
  | 6 => (Asked s ch lock) ∧ (ch < 8)
  | 7 => (Asked s ch lock) ∧ (8 ≤ ch) ∧ (s.fuses.lock = true ∨ ¬ (mode = .loader ∨ mode = .ready))
  | 8 => (Asked s ch stats) ∧ (mode ≠ .loader) ∧ ((midiMap s un).isSome = true)
  | 9 => (Asked s ch stats) ∧ (mode ≠ .loader) ∧ ((midiMap s un).isNone = true)
  | 10 => (Asked s ch send) ∧ (mode ≠ .loader) ∧ ((midiMap s un).isSome = true) ∧ (1 ≤ n.toNat) ∧ (n.toNat ≤ 20) ∧ (txRing s un = none) ∧
      ((uartAt s un).txq.length + n.toNat ≤ (uartAt s un).size)
  | 11 => (Asked s ch send) ∧ (mode ≠ .loader) ∧ ((midiMap s un).isSome = true) ∧ (n = 0 ∨ 20 < n.toNat)
  | 12 => (Asked s ch status) ∧ (mode ≠ .loader) ∧ ((dmxMap s un).isSome = true)
  | 13 => (Asked s ch status) ∧ (mode ≠ .loader) ∧ ((dmxMap s un).isNone = true)
  | 14 => (Asked s ch m) ∧ (mode ≠ .loader) ∧ (word m 0 / 2 ^ 28 = 1) ∧ (word m 0 / 2 ^ 24 % 2 ^ 4 = 0) ∧ (word m 1 = 0) ∧
      ((6 ≤ word m 0 / 2 ^ 16 % 2 ^ 8 ∧ word m 0 / 2 ^ 16 % 2 ^ 8 ≤ 15))
  | 15 => (Asked s ch m) ∧ (mode ≠ .loader) ∧ (mode ≠ .load) ∧ (word m 0 / 2 ^ 16 % 2 ^ 8 < 16) ∧ (word m 0 / 2 ^ 28 ≠ 1 ∨ word m 1 ≠ 0)
  | _ => False

def servicesDec (clause : Nat) (s : State) (c : BitVec 4) (q : Byte) (k : Word) (u4 : BitVec 2) (ws : List Word) (n : BitVec 5) (x : HPath)
    (m : Words) : Decidable (servicesHyp clause s c q k u4 ws n x m) := by
  dsimp only [servicesHyp, Asked]
  split <;> infer_instance

/-- States and operands that meet the premises of each clause of Services. -/
theorem witness_Services :
    servicesHyp 0 { wRun with fw := { wRun.fw with reqs := [(0, [[268501257, 0, 0, 0, 0, 0, 0, 0]])] } } 0 9 1 0 [2348054731] 0 ⟨0, 0, 0,
        0⟩ [268828928, 0, 2147483648, 2236807902, 2147483648, 0, 0, 4294967295] ∧
    servicesHyp 1 { wRun with fw := { wRun.fw with reqs := [(15, [[268566788, 0, 0, 0, 0, 0, 0, 0]])] } } 15 4 1 0 [2348054731] 0 ⟨0, 0, 0,
        0⟩ [268828928, 0, 2147483648, 2236807902, 2147483648, 0, 0, 4294967295] ∧
    servicesHyp 2 { wRun with hood := some { wHood with paths := [⟨0, 0, 0, 0⟩, ⟨0, 0, 0, 0⟩] }, fw := { wRun.fw with reqs := [(5, [[268567295, 0, 1, 0, 0, 0, 0, 0]])] } } 5 255 1 0 [2348054731] 0 ⟨0,
        0, 0, 0⟩ [268828928, 0, 2147483648, 2236807902, 2147483648, 0, 0, 4294967295] ∧
    servicesHyp 3 { wRun with fw := { wRun.fw with reqs := [(6, [[268567295, 0, 3, 0, 0, 0, 0, 0]])] } } 6 255 3 0 [2348054731] 0 ⟨0, 0, 0,
        0⟩ [268828928, 0, 2147483648, 2236807902, 2147483648, 0, 0, 4294967295] ∧
    servicesHyp 4 State.reset 0 9 1 0 [2348054731] 0 ⟨0, 0, 0, 0⟩ [268828928, 0, 2147483648, 2236807902, 2147483648, 0, 0, 4294967295] ∧
    servicesHyp 5 { wReady with fw := { wReady.fw with reqs := [(8, [[269484524, 0, 3, 6, 2995192249, 2147483648, 2191594223, 0]])] } } 8 236 1 0 [3,
        6, 2995192249, 2147483648, 2191594223] 0 ⟨0, 0, 0, 0⟩ [268828928, 0, 2147483648, 2236807902, 2147483648, 0, 0, 4294967295] ∧
    servicesHyp 6 { wRun with fw := { wRun.fw with reqs := [(0, [[269484443, 0, 2147483648, 4294967295, 0, 2147483648, 4294967295, 2147483648]])] } } 0 155 1 0 [2147483648,
        4294967295, 0, 2147483648, 4294967295, 2147483648] 0 ⟨0, 0, 0, 0⟩ [268828928, 0, 2147483648, 2236807902, 2147483648, 0, 0, 4294967295] ∧
    servicesHyp 7 { wRun with fw := { wRun.fw with reqs := [(15, [[269484329, 0, 2147483648, 4294967295, 2, 859267474, 1389809000, 0]])] } } 15 41 1 0 [2147483648,
        4294967295, 2, 859267474, 1389809000] 0 ⟨0, 0, 0, 0⟩ [268828928, 0, 2147483648, 2236807902, 2147483648, 0, 0, 4294967295] ∧
    servicesHyp 8 { wRun with fw := { wRun.fw with reqs := [(13, [[268698061, 0, 2, 0, 0, 0, 0, 0]])] } } 13 205 1 2 [2348054731] 0 ⟨0, 0, 0,
        0⟩ [268828928, 0, 2147483648, 2236807902, 2147483648, 0, 0, 4294967295] ∧
    servicesHyp 9 { wRun with fw := { wRun.fw with reqs := [(15, [[268697941, 0, 3, 0, 0, 0, 0, 0]])] } } 15 85 1 3 [2348054731] 0 ⟨0, 0, 0,
        0⟩ [268828928, 0, 2147483648, 2236807902, 2147483648, 0, 0, 4294967295] ∧
    servicesHyp 10 { wRun with hood := some { wHood with evmap := ⟨1, [], [(0, some (Claim.midi [])), (0, none)], []⟩ }, fw := { wRun.fw with reqs := [(15, [[268698112, 0, 256, 2675925994, 3961930540, 4294967295, 0, 0]])] } } 15 0 1 0 [2675925994,
        3961930540, 4294967295, 0] 1 ⟨0, 0, 0, 0⟩ [268828928, 0, 2147483648, 2236807902, 2147483648, 0, 0, 4294967295] ∧
    servicesHyp 11 { wRun with hood := some { wHood with evmap := ⟨1, [], [(0, some (Claim.midi [])), (0, none)], []⟩ }, fw := { wRun.fw with reqs := [(1, [[268698367, 0, 5376, 2348054731, 0, 0, 0, 0]])] } } 1 255 1 0 [2348054731] 21 ⟨0,
        0, 0, 0⟩ [268828928, 0, 2147483648, 2236807902, 2147483648, 0, 0, 4294967295] ∧
    servicesHyp 12 { wRun with fw := { wRun.fw with reqs := [(0, [[268763488, 0, 3, 0, 0, 0, 0, 0]])] } } 0 96 1 3 [2348054731] 0 ⟨0, 0, 0,
        0⟩ [268828928, 0, 2147483648, 2236807902, 2147483648, 0, 0, 4294967295] ∧
    servicesHyp 13 { wRun with hood := none, fw := { wRun.fw with reqs := [(13, [[268763393, 0, 3, 0, 0, 0, 0, 0]])] } } 13 1 1 3 [2348054731] 0 ⟨0,
        0, 0, 0⟩ [268828928, 0, 2147483648, 2236807902, 2147483648, 0, 0, 4294967295] ∧
    servicesHyp 14 { wRun with fw := { wRun.fw with reqs := [(8, [[268828928, 0, 2147483648, 2236807902, 2147483648, 0, 0, 4294967295]])] } } 8 9 1 0 [2348054731] 0 ⟨0,
        0, 0, 0⟩ [268828928, 0, 2147483648, 2236807902, 2147483648, 0, 0, 4294967295] ∧
    servicesHyp 15 { wRun with fw := { wRun.fw with reqs := [(14, [[536870912, 0, 2756787713, 25002218, 4294967295, 4294967295, 0, 2147483648]])] } } 14 9 1 0 [2348054731] 0 ⟨0,
        0, 0, 0⟩ [536870912, 0, 2756787713, 25002218, 4294967295, 4294967295, 0, 2147483648] :=
  ⟨yes (servicesDec _ _ _ _ _ _ _ _ _ _) (by decide +kernel),
   yes (servicesDec _ _ _ _ _ _ _ _ _ _) (by decide +kernel),
   yes (servicesDec _ _ _ _ _ _ _ _ _ _) (by decide +kernel),
   yes (servicesDec _ _ _ _ _ _ _ _ _ _) (by decide +kernel),
   yes (servicesDec _ _ _ _ _ _ _ _ _ _) (by decide +kernel),
   yes (servicesDec _ _ _ _ _ _ _ _ _ _) (by decide +kernel),
   yes (servicesDec _ _ _ _ _ _ _ _ _ _) (by decide +kernel),
   yes (servicesDec _ _ _ _ _ _ _ _ _ _) (by decide +kernel),
   yes (servicesDec _ _ _ _ _ _ _ _ _ _) (by decide +kernel),
   yes (servicesDec _ _ _ _ _ _ _ _ _ _) (by decide +kernel),
   yes (servicesDec _ _ _ _ _ _ _ _ _ _) (by decide +kernel),
   yes (servicesDec _ _ _ _ _ _ _ _ _ _) (by decide +kernel),
   yes (servicesDec _ _ _ _ _ _ _ _ _ _) (by decide +kernel),
   yes (servicesDec _ _ _ _ _ _ _ _ _ _) (by decide +kernel),
   yes (servicesDec _ _ _ _ _ _ _ _ _ _) (by decide +kernel),
   yes (servicesDec _ _ _ _ _ _ _ _ _ _) (by decide +kernel)⟩

/-- The premises of Updates, by clause. -/
def updatesHyp (clause : Nat) (s : State) (c : BitVec 4) (q : Byte) (len : Word) (off : Word) (a : Word) (n : Word) (v0 : Word) (v1 : Word) (f : Word)
    (m : Words) : Prop :=
  let ch := c.toNat
  let w := s.fw
  let idle := idleBank s
  let mine := w.chan = ch ∧ w.waiting = none
  let begin := request 0x11 1 q [len]
  let load := request 0x11 2 q [off, a, n]
  let verify := request 0x11 3 q []
  let activate := request 0x11 4 q [v0, v1, f]
  let confirm := request 0x11 5 q []
  let abort := request 0x11 6 q []
  let status := request 0x11 7 q []
  let good := len.toNat % 64 = 0 ∧ 256 ≤ len.toNat ∧ len.toNat ≤ 131072
  let fits := a.toNat % 32 = 0 ∧ off.toNat % 64 = 0 ∧ n.toNat % 64 = 0 ∧ 64 ≤ n.toNat ∧ n.toNat ≤ 8192 ∧ off.toNat + n.toNat ≤ w.length ∧
      a.toNat + n.toNat ≤ 0x30000
  let complete := ∀ i, i < w.length / 64 → Store.get false w.loaded i = true
  (s.shape = unitCounts) ∧
  match clause with
  | 0 => (Asked s ch begin) ∧ (w.stage = .idle) ∧ (good)
  | 1 => (Asked s ch begin) ∧ (w.stage ≠ .idle)
  | 2 => (Asked s ch begin) ∧ (w.stage = .idle) ∧ (¬ good)
  | 3 => (Asked s ch load) ∧ (w.stage = .download) ∧ (mine) ∧ (fits)
  | 4 => (Asked s ch load) ∧ (w.stage = .download) ∧ (mine) ∧ (¬ fits)
  | 5 => (Asked s ch load) ∧ (w.stage = .download) ∧ (¬ mine) ∧ (fits)
  | 6 => (Asked s ch verify) ∧ (w.stage = .download) ∧ (mine) ∧ (complete)
  | 7 => (Asked s ch verify) ∧ (w.stage = .download) ∧ (mine) ∧ (¬ complete)
  | 8 => (Asked s ch activate) ∧ (w.stage = .verified) ∧ (mine) ∧ (f.toNat ≤ 1) ∧ (w.rom = true ∨ hoMode s = true)
  | 9 => (Asked s ch confirm) ∧ (w.stage = .trial) ∧ (mine)
  | 10 => (Asked s ch abort) ∧ (w.stage = .download ∨ w.stage = .verified) ∧ (mine)
  | 11 => (Asked s ch status)
  | 12 => (Asked s ch activate) ∧ (w.stage ≠ .verified)
  | 13 => (Asked s ch confirm) ∧ (w.stage ≠ .trial)
  | 14 => (Asked s ch abort) ∧ (w.stage ≠ .download) ∧ (w.stage ≠ .verified)
  | 15 => (w.stage = .confirm) ∧ (w.waiting = some m) ∧ ((mbxAt s w.chan).outfull = false) ∧ (fwOuts s w.chan = [])
  | _ => False

def updatesDec (clause : Nat) (s : State) (c : BitVec 4) (q : Byte) (len : Word) (off : Word) (a : Word) (n : Word) (v0 : Word) (v1 : Word) (f : Word)
    (m : Words) : Decidable (updatesHyp clause s c q len off a n v0 v1 f m) := by
  dsimp only [updatesHyp, Asked]
  split <;> infer_instance

/-- States and operands that meet the premises of each clause of Updates. -/
theorem witness_Updates :
    updatesHyp 0 { wRun with fw := { wRun.fw with reqs := [(15, [[269549824, 0, 320, 0, 0, 0, 0, 0]])] } } 15 0 320 3 0 128 5 3086662912 0 [] ∧
    updatesHyp 1 { wRun with fw := { wRun.fw with stage := UpdStage.handover, reqs := [(8, [[269549952, 0, 256, 0, 0, 0, 0, 0]])] } } 8 128 256 3 0 128 5 3086662912 0 [] ∧
    updatesHyp 2 { wRun with fw := { wRun.fw with reqs := [(10, [[269549824, 0, 131136, 0, 0, 0, 0, 0]])] } } 10 0 131136 3 0 128 5 3086662912 0 [] ∧
    updatesHyp 3 { wRun with fw := { wRun.fw with stage := UpdStage.download, chan := 15, length := 320, reqs := [(15, [[269550083, 0, 128, 0, 128, 0, 0, 0]])] } } 15 3 320 128 0 128 5 3086662912 0 [] ∧
    updatesHyp 4 { wRun with fw := { wRun.fw with stage := UpdStage.download, chan := 6, reqs := [(6, [[269550208, 0, 3, 0, 128, 0, 0, 0]])] } } 6 128 320 3 0 128 5 3086662912 0 [] ∧
    updatesHyp 5 { wRun with fw := { wRun.fw with stage := UpdStage.download, length := 320, reqs := [(15, [[269550080, 0, 64, 64, 192, 0, 0, 0]])] } } 15 0 320 64 64 192 5 3086662912 0 [] ∧
    updatesHyp 6 { wRun with fw := { wRun.fw with stage := UpdStage.download, chan := 13, reqs := [(13, [[269550396, 0, 0, 0, 0, 0, 0, 0]])] } } 13 60 320 3 0 128 5 3086662912 0 [] ∧
    updatesHyp 7 { wRun with fw := { wRun.fw with stage := UpdStage.download, length := 320, reqs := [(0, [[269550336, 0, 0, 0, 0, 0, 0, 0]])] } } 0 0 320 3 0 128 5 3086662912 0 [] ∧
    updatesHyp 8 { wRun with fw := { wRun.fw with stage := UpdStage.verified, reqs := [(0, [[269550720, 0, 5, 3086662912, 0, 0, 0, 0]])] } } 0 128 320 3 0 128 5 3086662912 0 [] ∧
    updatesHyp 9 { wRun with fw := { wRun.fw with stage := UpdStage.trial, reqs := [(0, [[269551103, 0, 0, 0, 0, 0, 0, 0]])] } } 0 255 320 3 0 128 5 3086662912 0 [] ∧
    updatesHyp 10 { wRun with fw := { wRun.fw with stage := UpdStage.download, chan := 8, reqs := [(8, [[269551104, 0, 0, 0, 0, 0, 0, 0]])] } } 8 0 320 3 0 128 5 3086662912 0 [] ∧
    updatesHyp 11 { wRun with fw := { wRun.fw with reqs := [(10, [[269551360, 0, 0, 0, 0, 0, 0, 0]])] } } 10 0 320 3 0 128 5 3086662912 0 [] ∧
    updatesHyp 12 { wRun with fw := { wRun.fw with reqs := [(0, [[269550592, 0, 12, 2147483648, 0, 0, 0, 0]])] } } 0 0 320 3 0 128 12 2147483648 0 [] ∧
    updatesHyp 13 { wRun with fw := { wRun.fw with reqs := [(8, [[269551103, 0, 0, 0, 0, 0, 0, 0]])] } } 8 255 320 3 0 128 5 3086662912 0 [] ∧
    updatesHyp 14 { wRun with fw := { wRun.fw with reqs := [(8, [[269551117, 0, 0, 0, 0, 0, 0, 0]])] } } 8 13 320 3 0 128 5 3086662912 0 [] ∧
    updatesHyp 15 { wRun with fw := { wRun.fw with stage := UpdStage.confirm, waiting := some [] } } 0 0 320 3 0 128 5 3086662912 0 [] :=
  ⟨yes (updatesDec _ _ _ _ _ _ _ _ _ _ _ _) (by decide +kernel),
   yes (updatesDec _ _ _ _ _ _ _ _ _ _ _ _) (by decide +kernel),
   yes (updatesDec _ _ _ _ _ _ _ _ _ _ _ _) (by decide +kernel),
   yes (updatesDec _ _ _ _ _ _ _ _ _ _ _ _) (by decide +kernel),
   yes (updatesDec _ _ _ _ _ _ _ _ _ _ _ _) (by decide +kernel),
   yes (updatesDec _ _ _ _ _ _ _ _ _ _ _ _) (by decide +kernel),
   yes (updatesDec _ _ _ _ _ _ _ _ _ _ _ _) (by decide +kernel),
   yes (updatesDec _ _ _ _ _ _ _ _ _ _ _ _) (by decide +kernel),
   yes (updatesDec _ _ _ _ _ _ _ _ _ _ _ _) (by decide +kernel),
   yes (updatesDec _ _ _ _ _ _ _ _ _ _ _ _) (by decide +kernel),
   yes (updatesDec _ _ _ _ _ _ _ _ _ _ _ _) (by decide +kernel),
   yes (updatesDec _ _ _ _ _ _ _ _ _ _ _ _) (by decide +kernel),
   yes (updatesDec _ _ _ _ _ _ _ _ _ _ _ _) (by decide +kernel),
   yes (updatesDec _ _ _ _ _ _ _ _ _ _ _ _) (by decide +kernel),
   yes (updatesDec _ _ _ _ _ _ _ _ _ _ _ _) (by decide +kernel),
   yes (updatesDec _ _ _ _ _ _ _ _ _ _ _ _) (by decide +kernel)⟩

/-- The premises of Handovers, by clause. -/
def handoversHyp (clause : Nat) (s : State) (h : Handover) (k : Nat) : Prop :=
  let w := s.fw
  let due := w.actAt.isSome = true
  let place := s.mode.mode = .loader ∨ s.mode.mode = .ready ∨ s.mode.mode = .hold
  let ended := (List.range 4).all fun k => (schCore s k).run.isNone
  (s.shape = unitCounts) ∧ (framesRun s = false) ∧
  match clause with
  | 0 => (w.rom = false) ∧ (w.handover = none) ∧ (due) ∧ (place)
  | 1 => (w.rom = true ∨ w.handover.isSome = true ∨ ¬ due ∨ ¬ place)
  | 2 => (w.handover = some h) ∧ (h.restarted = false) ∧ (ended = true)
  | 3 => (w.handover = some h) ∧ (h.restarted = false) ∧ (ended = false)
  | 4 => (w.handover = some h) ∧ (h.restarted = true)
  | 5 => (w.handover = none ∨ (w.handover = some h ∧ h.restarted = false))
  | 6 => (w.handover = some h) ∧ (h.restarted = true) ∧ (h.ack = false) ∧ (2 ≤ h.count)
  | 7 => (w.handover = some h) ∧ (¬ (h.restarted = true ∧ h.ack = false ∧ 2 ≤ h.count))
  | 8 => (w.rom = true) ∧ (w.handover = none) ∧ (due)
  | 9 => (w.rom = false ∨ w.handover.isSome = true ∨ ¬ due)
  | 10 => (w.bootAt.isNone = true)
  | 11 => (w.bootAt.isSome = true)
  | _ => False

def handoversDec (clause : Nat) (s : State) (h : Handover) (k : Nat) : Decidable (handoversHyp clause s h k) := by
  dsimp only [handoversHyp]
  split <;> infer_instance

/-- States and operands that meet the premises of each clause of Handovers. -/
theorem witness_Handovers :
    handoversHyp 0 { wReady with fw := { wReady.fw with actAt := some none } } ⟨0, true, false⟩ 0 ∧
    handoversHyp 1 wReady ⟨0, true, false⟩ 0 ∧
    handoversHyp 2 { wReady with fw := { wReady.fw with handover := some ⟨0, false, false⟩ } } ⟨0, false, false⟩ 0 ∧
    handoversHyp 3 { wReady with sched := { wReady.sched with cores := (wReady.sched.cores.set 1 ⟨none, some 0, none, 0, 0, 0⟩) }, fw := { wReady.fw with handover := some ⟨0, false, false⟩ } } ⟨0,
        false, false⟩ 0 ∧
    handoversHyp 4 { wReady with fw := { wReady.fw with handover := some ⟨0, true, false⟩ } } ⟨0, true, false⟩ 0 ∧
    handoversHyp 5 wReady ⟨0, false, false⟩ 0 ∧
    handoversHyp 6 { wReady with fw := { wReady.fw with handover := some ⟨2, true, false⟩ } } ⟨2, true, false⟩ 0 ∧
    handoversHyp 7 { wReady with fw := { wReady.fw with handover := some ⟨0, false, false⟩ } } ⟨0, false, false⟩ 0 ∧
    handoversHyp 8 { wReady with fw := { wReady.fw with rom := true, actAt := some none } } ⟨0, true, false⟩ 0 ∧
    handoversHyp 9 wReady ⟨0, true, false⟩ 0 ∧
    handoversHyp 10 wReady ⟨0, true, false⟩ 0 ∧
    handoversHyp 11 State.reset ⟨0, true, false⟩ 0 :=
  ⟨yes (handoversDec _ _ _ _) (by decide +kernel),
   yes (handoversDec _ _ _ _) (by decide +kernel),
   yes (handoversDec _ _ _ _) (by decide +kernel),
   yes (handoversDec _ _ _ _) (by decide +kernel),
   yes (handoversDec _ _ _ _) (by decide +kernel),
   yes (handoversDec _ _ _ _) (by decide +kernel),
   yes (handoversDec _ _ _ _) (by decide +kernel),
   yes (handoversDec _ _ _ _) (by decide +kernel),
   yes (handoversDec _ _ _ _) (by decide +kernel),
   yes (handoversDec _ _ _ _) (by decide +kernel),
   yes (handoversDec _ _ _ _) (by decide +kernel),
   yes (handoversDec _ _ _ _) (by decide +kernel)⟩

/-- The premises of Timers, by clause. -/
def timersHyp (clause : Nat) (s : State) (who : Agent) (v : Word) (n : BitVec 3) (up : Bool) : Prop :=
  let m := timerAt s n.toNat
  let at_ := fun (u : State) => timerAt u n.toNat
  let only := fun (u : State) => { u with timers := s.timers, host := s.host } = s ∧ ∀ k, k ≠ n.toNat → timerAt u k = timerAt s k
  let claimed := fun (k : Nat) => timerClaimed s k = true
  let fw := who = .firmware
  let may := (¬ fw → ¬ claimed n.toNat) ∧ (fw → claimed n.toNat ∧ fwActs s = true)
  let mayAll := ∀ k, k < 8 → v.getLsbD k = true → (¬ fw → ¬ claimed k) ∧ (fw → claimed k ∧ fwActs s = true)
  let sum := m.acc + 65536
  let pulse := m.run = true ∧ m.div ≤ sum
  let clock := m.src = 0 ∨ m.src = 1
  let picked := m.out = 0 ∧ m.src = 3 ∧ (m.edge = 2 ∨ m.edge = (if up then 0 else 1))
  let cnt := if m.cnt = 0 then m.buf else m.cnt - 1
  let low := m.out = 2 ∧ m.cnt = 0
  let auto := m.auto = true ∧ (s.mode.mode = .loader ∨ s.mode.mode = .ready ∨ s.mode.mode = .safe ∨ s.mode.mode = .service)
  let offers := m.cnt = 0 ∧ m.evt = true ∧ (timerTemplate s n.toNat).isSome = true ∧ effMode s ≠ .runShadow
  let counted := fun (x : Timer) => x.acc = sum - m.div ∧ x.cnt = cnt ∧ (m.cnt = 0 → x.wrapf = true) ∧ (m.cnt ≠ 0 → x.wrapf = m.wrapf) ∧
      (cnt = m.cmp → x.cmpf = true ∧ x.pin = if m.out = 1 then !m.pin else if m.out = 2 then true else m.pin) ∧ (cnt ≠ m.cmp → x.cmpf = m.cmpf ∧
      x.cmp = m.cmp ∧ x.pin = if low then false else m.pin) ∧ (cnt = m.cmp → ¬ auto → x.cmp = m.cmp) ∧ (cnt = m.cmp → auto →
      (x.cmp : Int) = ((if m.intv ≤ m.cmp then (m.cmp - m.intv : Int) else m.cmp - m.intv + m.buf + 1)) % 2 ^ 32) ∧ (¬ offers ∨ m.offer = false →
      x.evlost = m.evlost) ∧
      { x with acc := m.acc, cnt := m.cnt, wrapf := m.wrapf, cmpf := m.cmpf, pin := m.pin, cmp := m.cmp, offer := m.offer, evlost := m.evlost } = m
  let edge := fun (u : State) => counted (at_ u) ∧ u.mode = s.mode ∧ u.frame = s.frame ∧ u.hood = s.hood ∧ (m.offer = false → ¬ offers → only u ∧
      u.host = s.host ∧ (at_ u).offer = false) ∧ (offers → s.twin.shut = true → (at_ u).offer = true ∧ (m.offer = true →
      (at_ u).evlost = min (m.evlost + 1) 255))
  (s.shape = unitCounts) ∧ (s.accessible) ∧
  match clause with
  | 0 => (mayAll) ∧ (v.toNat < 256)
  | 1 => (v.toNat < 256) ∧ (¬ (∀ k, k < 8 → v.getLsbD k = true → ¬ claimed k))
  | 2 => (256 ≤ v.toNat) ∧ ((∀ k, k < 8 → v.getLsbD k = true → ¬ claimed k))
  | 3 => (may) ∧ (m.src < 4) ∧ (m.dom < 4) ∧ (m.edge < 3) ∧ (m.cape < 4) ∧ (m.out < 3) ∧ ((m.out = 0 ∨ (m.src ≠ 3 ∧ m.cape = 0))) ∧ ((m.evt = true →
      (timerTemplate s n.toNat).isSome = true)) ∧ (domUsed s m.dom = true)
  | 4 => (claimed n.toNat) ∧ (v &&& 0x0003F1FF#32 = 0)
  | 5 => (clock) ∧ (pulse)
  | 6 => (clock) ∧ (m.run = true) ∧ (sum < m.div)
  | 7 => (¬ clock ∨ (m.run = false ∧ m.offer = false))
  | 8 => (m.run = false)
  | 9 => (clock) ∧ (pulse) ∧ (m.cnt = 0)
  | 10 => (clock) ∧ (pulse) ∧ (cnt = m.cmp)
  | 11 => (m.cnt ≠ 0)
  | 12 => (cnt ≠ m.cmp)
  | 13 => (picked) ∧ (pulse) ∧ (m.cape = 0)
  | 14 => (picked)
  | 15 => (¬ picked ∨ (m.run = false ∧ m.offer = false))
  | 16 => True
  | _ => False

def timersDec (clause : Nat) (s : State) (who : Agent) (v : Word) (n : BitVec 3) (up : Bool) : Decidable (timersHyp clause s who v n up) := by
  dsimp only [timersHyp, State.accessible]
  split <;> infer_instance

/-- States and operands that meet the premises of each clause of Timers. -/
theorem witness_Timers :
    timersHyp 0 State.reset (Agent.port (Port.spi)) 0 0 false ∧
    timersHyp 1 wRun (Agent.port (Port.spi)) 1 0 false ∧
    timersHyp 2 wRun (Agent.port (Port.spi)) 256 0 false ∧
    timersHyp 3 State.reset (Agent.port (Port.spi)) 0 0 false ∧
    timersHyp 4 { wRun with hood := some { wHood with evmap := { wHood.evmap with timers := 255 } } } (Agent.port (Port.spi)) 0 0 false ∧
    timersHyp 5 { wRun with timers := (wRun.timers.set 2 { (wRun.timers.getD 2 default) with run := true }) } (Agent.port (Port.spi)) 0 2 false ∧
    timersHyp 6 { wRun with timers := (wRun.timers.set 7 { (wRun.timers.getD 7 default) with run := true, div := 131072 }) } (Agent.port (Port.spi))
        0 7 false ∧
    timersHyp 7 wRun (Agent.port (Port.spi)) 0 0 false ∧
    timersHyp 8 wRun (Agent.port (Port.spi)) 0 0 false ∧
    timersHyp 9 { wRun with timers := (wRun.timers.set 7 { (wRun.timers.getD 7 default) with run := true }) } (Agent.port (Port.spi)) 0 7 false ∧
    timersHyp 10 { wRun with timers := (wRun.timers.set 0 { (wRun.timers.getD 0 default) with run := true, cnt := 2, cmp := 1 }) } (Agent.port (Port.spi))
        0 0 false ∧
    timersHyp 11 { wRun with timers := (wRun.timers.set 0 { (wRun.timers.getD 0 default) with cnt := 1 }) } (Agent.port (Port.spi)) 0 0 false ∧
    timersHyp 12 wRun (Agent.port (Port.spi)) 0 0 false ∧
    timersHyp 13 { wRun with timers := (wRun.timers.set 7 { (wRun.timers.getD 7 default) with run := true, src := 3 }) } (Agent.port (Port.spi))
        0 7 true ∧
    timersHyp 14 { wRun with timers := (wRun.timers.set 0 { (wRun.timers.getD 0 default) with src := 3 }) } (Agent.port (Port.spi)) 0 0 true ∧
    timersHyp 15 wRun (Agent.port (Port.spi)) 0 0 false ∧
    timersHyp 16 wRun (Agent.port (Port.spi)) 0 0 false :=
  ⟨yes (timersDec _ _ _ _ _ _) (by decide +kernel),
   yes (timersDec _ _ _ _ _ _) (by decide +kernel),
   yes (timersDec _ _ _ _ _ _) (by decide +kernel),
   yes (timersDec _ _ _ _ _ _) (by decide +kernel),
   yes (timersDec _ _ _ _ _ _) (by decide +kernel),
   yes (timersDec _ _ _ _ _ _) (by decide +kernel),
   yes (timersDec _ _ _ _ _ _) (by decide +kernel),
   yes (timersDec _ _ _ _ _ _) (by decide +kernel),
   yes (timersDec _ _ _ _ _ _) (by decide +kernel),
   yes (timersDec _ _ _ _ _ _) (by decide +kernel),
   yes (timersDec _ _ _ _ _ _) (by decide +kernel),
   yes (timersDec _ _ _ _ _ _) (by decide +kernel),
   yes (timersDec _ _ _ _ _ _) (by decide +kernel),
   yes (timersDec _ _ _ _ _ _) (by decide +kernel),
   yes (timersDec _ _ _ _ _ _) (by decide +kernel),
   yes (timersDec _ _ _ _ _ _) (by decide +kernel),
   yes (timersDec _ _ _ _ _ _) (by decide +kernel)⟩

/-- The premises of Receivers, by clause. -/
def receiversHyp (clause : Nat) (s : State) (u4 : BitVec 2) (ss : List (BitVec 3)) (c : RxChar) (pk : Packet) (lowUs : Nat) : Prop :=
  let un := u4.toNat
  let a := uartAt s un
  let hears := a.en = true ∧ (a.de = false ∨ a.echo = true)
  let listens := hears ∧ a.silent = false
  let bit := fun (i : Nat) => let x := ss.getD i 7; if 2 ≤ (if x.getLsbD 0 then 1 else 0) + (if x.getLsbD 1 then 1 else 0)
      + (if x.getLsbD 2 then 1 else 0) then 1 else 0
  let width := 5 + a.dbits
  let bits := 2 + width + (if a.par = 0 then 0 else 1)
  let data := ((List.range width).map fun i => bit (i + 1) * 2 ^ i).sum
  let zero := (List.range bits).all fun i => bit i == 0
  let k := pk.slot
  let got := listens ∧ bit 0 = 0 ∧ zero = false
  let last := a.rxq.getLast?
  (s.shape = unitCounts) ∧ (s.accessible) ∧ (rxRing s u4.toNat = none) ∧
  match clause with
  | 0 => (got) ∧ (a.mode = false) ∧ (a.dbits ≤ 3)
  | 1 => (listens) ∧ (bit 0 = 1)
  | 2 => (listens) ∧ (zero = true) ∧ (a.mode = false)
  | 3 => (listens) ∧ (zero = true) ∧ (a.mode = true)
  | 4 => (¬ listens)
  | 5 => (got) ∧ (a.mode = true) ∧ (a.dbits = 3) ∧ (a.pkt = some pk) ∧ (k ≤ 512) ∧ (pk.startCode ≠ 0xCC ∨ k = 0) ∧ ((k = 0 → data ≠ 0xCC))
  | 6 => (got) ∧ (a.mode = true) ∧ (a.dbits = 3) ∧ (a.pkt = some pk) ∧ (512 < k)
  | 7 => (got) ∧ (a.mode = true) ∧ (a.dbits = 3) ∧ (a.pkt = some pk) ∧ (3 ≤ k) ∧ (k ≤ 512) ∧ (pk.startCode = 0xCC) ∧ (k = pk.len + 1)
  | 8 => (got) ∧ (a.mode = true) ∧ (a.pkt = none)
  | 9 => (listens) ∧ (a.mode = false)
  | 10 => (listens) ∧ (a.mode = true)
  | 11 => (¬ hears)
  | 12 => (hears) ∧ (a.mode = false ∨ a.pkt = none ∨ (a.pkt = some pk ∧ k = 0))
  | 13 => (hears) ∧ (a.mode = true) ∧ (a.pkt = some pk) ∧ (k ≠ 0) ∧ (last = some c)
  | 14 => True
  | 15 => (last = some c)
  | 16 => (last = none)
  | 17 => (hears) ∧ (a.mode = true) ∧ (88 ≤ lowUs) ∧ (a.pkt = none)
  | 18 => (hears) ∧ (a.mode = true) ∧ (88 ≤ lowUs) ∧ (a.pkt = some pk) ∧ (k ≠ 0) ∧ (last = some c)
  | 19 => (hears) ∧ (a.mode = true) ∧ (88 ≤ lowUs) ∧ (a.pkt = some pk) ∧ (k ≠ 0) ∧ (last = some c)
  | 20 => (¬ hears ∨ a.mode = false ∨ lowUs < 88)
  | 21 => (a.mode = true) ∧ (a.de = false ∨ a.echo = true) ∧ (a.pkt = some pk) ∧ (k ≠ 0) ∧ (last = some c)
  | 22 => (a.mode = false ∨ (a.de = true ∧ a.echo = false) ∨ a.pkt = none)
  | 23 => True
  | _ => False

def receiversDec (clause : Nat) (s : State) (u4 : BitVec 2) (ss : List (BitVec 3)) (c : RxChar) (pk : Packet)
    (lowUs : Nat) : Decidable (receiversHyp clause s u4 ss c pk lowUs) := by
  dsimp only [receiversHyp, State.accessible]
  split <;> infer_instance

/-- States and operands that meet the premises of each clause of Receivers. -/
theorem witness_Receivers :
    receiversHyp 0 { wRun with uarts := (wRun.uarts.set 1 { (wRun.uarts.getD 1 default) with en := true }) } 1 (List.replicate 6 0) (default : RxChar)
        (default : Packet) 0 ∧
    receiversHyp 1 { wRun with uarts := (wRun.uarts.set 2 { (wRun.uarts.getD 2 default) with en := true }) } 2 [] (default : RxChar)
        (default : Packet) 0 ∧
    receiversHyp 2 { wRun with uarts := (wRun.uarts.set 1 { (wRun.uarts.getD 1 default) with en := true }) } 1 (List.replicate 10 0)
        (default : RxChar) (default : Packet) 0 ∧
    receiversHyp 3 { wRun with uarts := (wRun.uarts.set 2 { (wRun.uarts.getD 2 default) with en := true, mode := true }) } 2 (List.replicate 10 0)
        (default : RxChar) (default : Packet) 0 ∧
    receiversHyp 4 State.reset 0 [] (default : RxChar) (default : Packet) 0 ∧
    receiversHyp 5 { wRun with hood := none, uarts := (wRun.uarts.set 0 { (wRun.uarts.getD 0 default) with en := true, mode := true, pkt := some (default : Packet) }) } 0 [0,
        0, 0] (default : RxChar) (default : Packet) 0 ∧
    receiversHyp 6 { wRun with uarts := (wRun.uarts.set 3 { (wRun.uarts.getD 3 default) with en := true, mode := true, pkt := some ⟨513, 0, 0, 0, 0, false⟩ }) } 3 (List.replicate 6 0)
        (default : RxChar) ⟨513, 0, 0, 0, 0, false⟩ 0 ∧
    receiversHyp 7 { wRun with uarts := (wRun.uarts.set 3 { (wRun.uarts.getD 3 default) with en := true, mode := true, pkt := some ⟨20, 204, 0, 19, 0, false⟩ }) } 3 (List.replicate 6 0)
        (default : RxChar) ⟨20, 204, 0, 19, 0, false⟩ 0 ∧
    receiversHyp 8 { wRun with uarts := (wRun.uarts.set 2 { (wRun.uarts.getD 2 default) with en := true, mode := true }) } 2 (List.replicate 6 0)
        (default : RxChar) (default : Packet) 0 ∧
    receiversHyp 9 { wRun with uarts := (wRun.uarts.set 2 { (wRun.uarts.getD 2 default) with en := true }) } 2 [] (default : RxChar)
        (default : Packet) 0 ∧
    receiversHyp 10 { wRun with uarts := (wRun.uarts.set 2 { (wRun.uarts.getD 2 default) with en := true, mode := true }) } 2 [] (default : RxChar)
        (default : Packet) 0 ∧
    receiversHyp 11 State.reset 0 [] (default : RxChar) (default : Packet) 0 ∧
    receiversHyp 12 { wRun with uarts := (wRun.uarts.set 3 { (wRun.uarts.getD 3 default) with en := true }) } 3 [] (default : RxChar)
        (default : Packet) 0 ∧
    receiversHyp 13 { wRun with uarts := (wRun.uarts.set 2 { (wRun.uarts.getD 2 default) with en := true, mode := true, rxq := [(default : RxChar)], pkt := some ⟨1, 0, 0, 0, 0, false⟩ }) } 2 [] (default : RxChar)
        ⟨1, 0, 0, 0, 0, false⟩ 0 ∧
    receiversHyp 14 wRun 1 [] (default : RxChar) (default : Packet) 0 ∧
    receiversHyp 15 { wRun with uarts := (wRun.uarts.set 2 { (wRun.uarts.getD 2 default) with rxq := [(default : RxChar)] }) } 2 [] (default : RxChar)
        (default : Packet) 0 ∧
    receiversHyp 16 wRun 1 [] (default : RxChar) (default : Packet) 0 ∧
    receiversHyp 17 { wRun with hood := none, uarts := (wRun.uarts.set 0 { (wRun.uarts.getD 0 default) with en := true, mode := true }) } 0 [] (default : RxChar)
        (default : Packet) 100 ∧
    receiversHyp 18 { wRun with uarts := (wRun.uarts.set 2 { (wRun.uarts.getD 2 default) with en := true, mode := true, echo := true, rxq := [(default : RxChar)], pkt := some ⟨1, 0, 0, 0, 0, false⟩ }) } 2 [] (default : RxChar)
        ⟨1, 0, 0, 0, 0, false⟩ 100 ∧
    receiversHyp 19 { wRun with uarts := (wRun.uarts.set 2 { (wRun.uarts.getD 2 default) with en := true, mode := true, echo := true, rxq := [(default : RxChar)], pkt := some ⟨1, 0, 0, 0, 0, false⟩ }) } 2 [] (default : RxChar)
        ⟨1, 0, 0, 0, 0, false⟩ 100 ∧
    receiversHyp 20 wRun 1 [] (default : RxChar) (default : Packet) 0 ∧
    receiversHyp 21 { wRun with uarts := (wRun.uarts.set 2 { (wRun.uarts.getD 2 default) with mode := true, rxq := [(default : RxChar)], pkt := some ⟨1, 0, 0, 0, 0, false⟩ }) } 2 [] (default : RxChar)
        ⟨1, 0, 0, 0, 0, false⟩ 0 ∧
    receiversHyp 22 State.reset 0 [] (default : RxChar) (default : Packet) 0 ∧
    receiversHyp 23 wRun 1 [] (default : RxChar) (default : Packet) 0 :=
  ⟨yes (receiversDec _ _ _ _ _ _ _) (by decide +kernel),
   yes (receiversDec _ _ _ _ _ _ _) (by decide +kernel),
   yes (receiversDec _ _ _ _ _ _ _) (by decide +kernel),
   yes (receiversDec _ _ _ _ _ _ _) (by decide +kernel),
   yes (receiversDec _ _ _ _ _ _ _) (by decide +kernel),
   yes (receiversDec _ _ _ _ _ _ _) (by decide +kernel),
   yes (receiversDec _ _ _ _ _ _ _) (by decide +kernel),
   yes (receiversDec _ _ _ _ _ _ _) (by decide +kernel),
   yes (receiversDec _ _ _ _ _ _ _) (by decide +kernel),
   yes (receiversDec _ _ _ _ _ _ _) (by decide +kernel),
   yes (receiversDec _ _ _ _ _ _ _) (by decide +kernel),
   yes (receiversDec _ _ _ _ _ _ _) (by decide +kernel),
   yes (receiversDec _ _ _ _ _ _ _) (by decide +kernel),
   yes (receiversDec _ _ _ _ _ _ _) (by decide +kernel),
   yes (receiversDec _ _ _ _ _ _ _) (by decide +kernel),
   yes (receiversDec _ _ _ _ _ _ _) (by decide +kernel),
   yes (receiversDec _ _ _ _ _ _ _) (by decide +kernel),
   yes (receiversDec _ _ _ _ _ _ _) (by decide +kernel),
   yes (receiversDec _ _ _ _ _ _ _) (by decide +kernel),
   yes (receiversDec _ _ _ _ _ _ _) (by decide +kernel),
   yes (receiversDec _ _ _ _ _ _ _) (by decide +kernel),
   yes (receiversDec _ _ _ _ _ _ _) (by decide +kernel),
   yes (receiversDec _ _ _ _ _ _ _) (by decide +kernel),
   yes (receiversDec _ _ _ _ _ _ _) (by decide +kernel)⟩

/-- The premises of Receivers (ReceiveRings), by clause. -/
def receiveRingsHyp (clause : Nat) (s : State) (u4 : BitVec 2) (c : RxChar) (x : RxChar) (ss : List (BitVec 3)) (r : Nat) (h : HRing) : Prop :=
  let un := u4.toNat
  let a := uartAt s un
  let q := ringState s r
  let room := (q.head - q.tail).toNat < 2 ^ h.size
  let n := a.rxq.length
  let most := min (if a.rxtrig = 0 then 128 else a.rxtrig) 14
  let whole := 1 ≤ n ∧ n ≤ most ∧ (∀ y ∈ a.rxq.dropLast, y.close = false)
  let plain := ss = 0 :: List.replicate 9 7 ∧ a.en = true ∧ a.silent = false ∧ a.de = false ∧ a.mode = false ∧ a.dbits = 3 ∧ a.par = 0 ∧
      n < 16 * 2 ^ a.qsize ∧ (∀ y ∈ a.rxq, y.close = false)
  (s.shape = unitCounts) ∧ (s.accessible) ∧ (rxRing s u4.toNat = some r) ∧ (hringOf s r = some h) ∧ (r < 64) ∧
  match clause with
  | 0 => (whole) ∧ (room) ∧ (a.rxq.head? = some c) ∧ (a.rxq.getLast? = some x)
  | 1 => (¬ room) ∧ (a.rxq.getLast? = some x)
  | 2 => True
  | 3 => (plain) ∧ (n + 1 = most) ∧ (room)
  | 4 => (plain) ∧ (n + 1 < most)
  | _ => False

def receiveRingsDec (clause : Nat) (s : State) (u4 : BitVec 2) (c : RxChar) (x : RxChar) (ss : List (BitVec 3)) (r : Nat)
    (h : HRing) : Decidable (receiveRingsHyp clause s u4 c x ss r h) := by
  dsimp only [receiveRingsHyp, State.accessible]
  split <;> infer_instance

/-- States and operands that meet the premises of each clause of Receivers. -/
theorem witness_ReceiveRings :
    receiveRingsHyp 0 { wRun with hood := some { wHood with rings := ⟨[(0, some ⟨5, EndPt.host, EndPt.host, 2, 2, 0⟩)], [(Source.ring 0, 1)]⟩ }, uarts := (wRun.uarts.set 2 { (wRun.uarts.getD 2 default) with rxq := [(default : RxChar)] }) } 2 (default : RxChar)
        (default : RxChar) [0, 7, 7, 7, 7, 7, 7, 7, 7, 7] 0 ⟨5, EndPt.host, EndPt.host, 2, 2, 0⟩ ∧
    receiveRingsHyp 1 { wRun with hood := some { wHood with rings := ⟨[(0, some ⟨5, EndPt.host, EndPt.host, 1, 0, 0⟩)], [(Source.ring 0, 1)]⟩ }, rings := (wRun.rings.set 0 ⟨0, 1, false, 1, 0, 0, 0, none⟩), uarts := (wRun.uarts.set 1 { (wRun.uarts.getD 1 default) with rxq := [(default : RxChar)] }) } 1 (default : RxChar)
        (default : RxChar) [0, 7, 7, 7, 7, 7, 7, 7, 7, 7] 0 ⟨5, EndPt.host, EndPt.host, 1, 0, 0⟩ ∧
    receiveRingsHyp 2 { wRun with hood := some { wHood with rings := ⟨[(0, some ⟨5, EndPt.host, EndPt.host, 2, 0, 0⟩)], [(Source.ring 0, 1)]⟩ } } 2 (default : RxChar)
        (default : RxChar) [0, 7, 7, 7, 7, 7, 7, 7, 7, 7] 0 ⟨5, EndPt.host, EndPt.host, 2, 0, 0⟩ ∧
    receiveRingsHyp 3 { wRun with hood := some { wHood with rings := ⟨[(0, some ⟨5, EndPt.host, EndPt.host, 3, 2, 0⟩)], [(Source.ring 0, 1)]⟩ }, uarts := (wRun.uarts.set 3 { (wRun.uarts.getD 3 default) with en := true, rxtrig := 0, rxq := List.replicate 13 (default : RxChar) }) } 3 (default : RxChar)
        (default : RxChar) [0, 7, 7, 7, 7, 7, 7, 7, 7, 7] 0 ⟨5, EndPt.host, EndPt.host, 3, 2, 0⟩ ∧
    receiveRingsHyp 4 { wRun with hood := some { wHood with rings := ⟨[(0, some ⟨5, EndPt.host, EndPt.host, 2, 0, 0⟩)], [(Source.ring 0, 1)]⟩ }, uarts := (wRun.uarts.set 2 { (wRun.uarts.getD 2 default) with en := true }) } 2 (default : RxChar)
        (default : RxChar) [0, 7, 7, 7, 7, 7, 7, 7, 7, 7] 0 ⟨5, EndPt.host, EndPt.host, 2, 0, 0⟩ :=
  ⟨yes (receiveRingsDec _ _ _ _ _ _ _ _) (by decide +kernel),
   yes (receiveRingsDec _ _ _ _ _ _ _ _) (by decide +kernel),
   yes (receiveRingsDec _ _ _ _ _ _ _ _) (by decide +kernel),
   yes (receiveRingsDec _ _ _ _ _ _ _ _) (by decide +kernel),
   yes (receiveRingsDec _ _ _ _ _ _ _ _) (by decide +kernel)⟩

/-- The premises of Transmitters, by clause. -/
def transmittersHyp (clause : Nat) (s : State) (u4 : BitVec 2) (b : Byte) (i : TxItem) (t : List TxItem) (v : Word) (e : Words) (r : Nat) : Prop :=
  let un := u4.toNat
  let a := uartAt s un
  let w0 := (e.getD 0 0).toNat
  let count := w0 % 32
  let data := (List.range count).map fun k => BitVec.ofNat 8 ((e.getD (1 + k / 4) 0).toNat / 2 ^ (8 * (k % 4)))
  let first := w0 / 2 ^ 8 % 2 = 1
  let plain := 1 ≤ count ∧ count ≤ 28 ∧ w0 / 2 ^ 10 = 0 ∧ w0 / 2 ^ 5 % 8 = 0 ∧ (a.mode = true ∨ w0 / 2 ^ 8 % 4 = 0)
  let free := uartClaimed s un = false
  let sane := a.dbits < 4 ∧ a.par < 3 ∧ a.qsize < 4 ∧ a.rxtrig < 128 ∧ a.txtrig < 128 ∧ trigOf a.rxtrig ≤ 16 * 2 ^ a.qsize ∧
      trigOf a.txtrig ≤ 16 * 2 ^ a.qsize ∧ (a.mode = true → a.dbits = 3 ∧ a.par = 0 ∧ a.stop2 = true)
  (s.shape = unitCounts) ∧ (s.accessible) ∧
  match clause with
  | 0 => (a.en = true) ∧ (a.items = i :: t)
  | 1 => (a.en = true) ∧ (a.items = []) ∧ (txRing s un = none) ∧ (a.txq.head? = some b)
  | 2 => (a.en = true) ∧ (a.items = []) ∧ (txRing s un = none) ∧ (a.txq = [])
  | 3 => (a.en = false)
  | 4 => (a.en = true) ∧ (a.items = []) ∧ (txRing s un = some r) ∧ (ringFront s r = some e) ∧ (plain) ∧ (¬ first) ∧
      ((w0 / 2 ^ 9 % 2 = 0 ∨ a.txCode ≠ 0xCC))
  | 5 => (a.en = true) ∧ (a.items = []) ∧ (txRing s un = some r) ∧ (ringFront s r = some e) ∧ (plain) ∧ (first) ∧
      ((w0 / 2 ^ 9 % 2 = 0 ∨ data.getD 0 0 ≠ 0xCC))
  | 6 => (a.en = true) ∧ (a.items = []) ∧ (txRing s un = some r) ∧ (ringFront s r = some e) ∧ (plain) ∧ (first) ∧ (w0 / 2 ^ 9 % 2 = 1) ∧
      (data.getD 0 0 = 0xCC)
  | 7 => (a.en = true) ∧ (a.items = []) ∧ (txRing s un = some r) ∧ (ringFront s r = some e) ∧ (¬ plain) ∧ (ringCount (ringState s r) = 1) ∧
      (a.txq = [])
  | 8 => (free) ∧ (a.en = true) ∧ (txRing s un = none) ∧ (a.txq.length < 16 * 2 ^ a.qsize)
  | 9 => (free) ∧ (a.en = true) ∧ (txRing s un = none) ∧ (16 * 2 ^ a.qsize ≤ a.txq.length)
  | 10 => (free) ∧ (a.en = false ∨ (txRing s un).isSome = true)
  | 11 => (free) ∧ (sane)
  | 12 => (¬ free) ∧ (v &&& 0x00000038#32 = 0)
  | _ => False

def transmittersDec (clause : Nat) (s : State) (u4 : BitVec 2) (b : Byte) (i : TxItem) (t : List TxItem) (v : Word) (e : Words)
    (r : Nat) : Decidable (transmittersHyp clause s u4 b i t v e r) := by
  dsimp only [transmittersHyp, State.accessible]
  split <;> infer_instance

/-- States and operands that meet the premises of each clause of Transmitters. -/
theorem witness_Transmitters :
    transmittersHyp 0 { wRun with uarts := (wRun.uarts.set 2 { (wRun.uarts.getD 2 default) with en := true, items := [TxItem.byte 0x05#8] }) } 2 0 (TxItem.byte 0x05#8)
        [] 0 (List.replicate 8 0) 0 ∧
    transmittersHyp 1 { wRun with uarts := (wRun.uarts.set 0 { (wRun.uarts.getD 0 default) with en := true, txq := [0] }) } 0 0 (TxItem.byte 0x05#8)
        [] 0 (List.replicate 8 0) 0 ∧
    transmittersHyp 2 { wRun with uarts := (wRun.uarts.set 3 { (wRun.uarts.getD 3 default) with en := true }) } 3 0 (TxItem.byte 0x05#8)
        [] 0 (List.replicate 8 0) 0 ∧
    transmittersHyp 3 wRun 0 0 (TxItem.byte 0x05#8) [] 0 (List.replicate 8 0) 0 ∧
    transmittersHyp 4 { wRun with hood := some { wHood with rings := ⟨[(1, some ⟨6, EndPt.host, EndPt.host, 2, 0, 7⟩)], [(Source.ring 0, 1)]⟩ }, rings := (wRun.rings.set 1 ⟨0, 1, false, 1, 0, 0, 0, none⟩), ringMem := [(224, 1), (0, 0), (0, 0), (0, 0), (0, 0), (0, 0), (0, 0), (0, 0), (0, 0)], uarts := (wRun.uarts.set 2 { (wRun.uarts.getD 2 default) with en := true }) } 2 0 (TxItem.byte 0x05#8)
        [] 0 [1, 0, 0, 0, 0, 0, 0, 0] 1 ∧
    transmittersHyp 5 { wRun with hood := some { wHood with rings := ⟨[(2, some ⟨6, EndPt.host, EndPt.host, 3, 0, 7⟩)], [(Source.ring 0, 1)]⟩ }, rings := (wRun.rings.set 2 ⟨1, 0, false, 1, 0, 0, 0, none⟩), ringMem := [(224, 1), (225, 1), (0, 0), (0, 0), (0, 0), (0, 0), (0, 0), (0, 0), (0, 0)], uarts := (wRun.uarts.set 3 { (wRun.uarts.getD 3 default) with en := true, mode := true }) } 3 0 (TxItem.byte 0x05#8)
        [] 0 [257, 0, 0, 0, 0, 0, 0, 0] 2 ∧
    transmittersHyp 6 { wRun with hood := some { wHood with rings := ⟨[(0, some ⟨6, EndPt.host, EndPt.host, 3, 4, 7⟩)], [(Source.ring 0, 1)]⟩ }, rings := (wRun.rings.set 0 ⟨0, 65535, false, 1, 0, 0, 0, none⟩), ringMem := [(704, 1), (705, 3), (708, 204), (0, 0), (0, 0), (0, 0), (0, 0), (0, 0), (0, 0), (0, 0), (0, 0)], uarts := (wRun.uarts.set 3 { (wRun.uarts.getD 3 default) with en := true, mode := true }) } 3 0 (TxItem.byte 0x05#8)
        [] 0 [769, 204, 0, 0, 0, 0, 0, 0] 0 ∧
    transmittersHyp 7 { wRun with hood := some { wHood with rings := ⟨[(0, some ⟨6, EndPt.host, EndPt.host, 3, 0, 0⟩)], [(Source.ring 0, 1)]⟩ }, rings := (wRun.rings.set 0 ⟨16486, 16485, false, 1, 0, 0, 0, none⟩), uarts := (wRun.uarts.set 3 { (wRun.uarts.getD 3 default) with en := true }) } 3 0 (TxItem.byte 0x05#8)
        [] 0 (List.replicate 8 0) 0 ∧
    transmittersHyp 8 { wRun with hood := none, uarts := (wRun.uarts.set 2 { (wRun.uarts.getD 2 default) with en := true }) } 2 0 (TxItem.byte 0x05#8)
        [] 0 (List.replicate 8 0) 0 ∧
    transmittersHyp 9 { wRun with hood := none, uarts := (wRun.uarts.set 2 { (wRun.uarts.getD 2 default) with en := true, txq := List.replicate 16 0 }) } 2 0 (TxItem.byte 0x05#8)
        [] 0 (List.replicate 8 0) 0 ∧
    transmittersHyp 10 State.reset 0 0 (TxItem.byte 0x05#8) [] 0 (List.replicate 8 0) 0 ∧
    transmittersHyp 11 wRun 0 0 (TxItem.byte 0x05#8) [] 0 (List.replicate 8 0) 0 ∧
    transmittersHyp 12 { wRun with hood := some { wHood with evmap := ⟨1, [], [(0, some (Claim.midi []))], []⟩ } } 0 0 (TxItem.byte 0x05#8)
        [] 0 (List.replicate 8 0) 0 :=
  ⟨yes (transmittersDec _ _ _ _ _ _ _ _ _) (by decide +kernel),
   yes (transmittersDec _ _ _ _ _ _ _ _ _) (by decide +kernel),
   yes (transmittersDec _ _ _ _ _ _ _ _ _) (by decide +kernel),
   yes (transmittersDec _ _ _ _ _ _ _ _ _) (by decide +kernel),
   yes (transmittersDec _ _ _ _ _ _ _ _ _) (by decide +kernel),
   yes (transmittersDec _ _ _ _ _ _ _ _ _) (by decide +kernel),
   yes (transmittersDec _ _ _ _ _ _ _ _ _) (by decide +kernel),
   yes (transmittersDec _ _ _ _ _ _ _ _ _) (by decide +kernel),
   yes (transmittersDec _ _ _ _ _ _ _ _ _) (by decide +kernel),
   yes (transmittersDec _ _ _ _ _ _ _ _ _) (by decide +kernel),
   yes (transmittersDec _ _ _ _ _ _ _ _ _) (by decide +kernel),
   yes (transmittersDec _ _ _ _ _ _ _ _ _) (by decide +kernel),
   yes (transmittersDec _ _ _ _ _ _ _ _ _) (by decide +kernel)⟩

/-- The premises of CvOutputs, by clause. -/
def cvOutputsHyp (clause : Nat) (s : State) (c : BitVec 4) (t : Nat) (reading : BitVec 12) (v : HWord) (h : HCv) (slot : Nat)
    (tdi : List Bool) : Prop :=
  let n := c.toNat
  let x := cvAt s n
  let now := max s.now t
  let mine := n < s.part.cvs ∧ hcvOf s n = some h
  let r := reading.toNat
  let watched := bitAt (poweredMask s) 11 = true
  let driven := if s.cv.svcEn = true ∧ s.cv.svcCh = n then s.cv.svcCode else x.dac
  let compared := cvClamped { s with now := now } n = false ∧ (∀ a, x.holdUntil = some a → a ≤ t) ∧ (∀ a, x.changedAt = some a → a + 3146 ≤ t)
  let lo := if x.span = 2 then 310 else 0
  let span := if x.span = 0 ∨ x.span = 2 then 3103 else 3724
  let off := ((r : Int) - (lo + (driven * span + 2 ^ 15) / 2 ^ 16 : Nat)).natAbs
  let absent := (List.range 16).any fun k => v.getLsbD k && (decide (s.part.cvs ≤ k) || (s.hood.isSome && (hcvOf s k).isNone))
  (s.shape = unitCounts) ∧
  match clause with
  | 0 => (framesRun s = true) ∧ (mine) ∧ (x.gen = true)
  | 1 => (hcvOf s n = none ∨ x.gen = false)
  | 2 => (framesRun s = false)
  | 3 => True
  | 4 => True
  | 5 => (watched) ∧ (mine) ∧ (compared) ∧ (off ≤ h.tol)
  | 6 => (watched) ∧ (mine) ∧ (compared) ∧ (h.tol < off) ∧ (x.run + 1 < h.cnt)
  | 7 => (watched) ∧ (mine) ∧ (compared) ∧ (h.tol < off) ∧ (h.cnt ≤ x.run + 1)
  | 8 => (watched) ∧ (¬ (mine ∧ compared)) ∧ (hcvOf s n = some h ∨ hcvOf s n = none)
  | 9 => (watched) ∧ (1800 ≤ r) ∧ (r ≤ 1924)
  | 10 => (watched) ∧ (r < 1800 ∨ 1924 < r) ∧ (s.flt.vbad + 1 < 16 ∨ s.flt.vmid = true)
  | 11 => (watched) ∧ (r < 1800 ∨ 1924 < r) ∧ (s.flt.vbad = 15) ∧ (s.flt.vmid = false) ∧ (s.flt.log.length < 16)
  | 12 => (watched)
  | 13 => (watched)
  | 14 => (¬ watched) ∧ (slot < 20)
  | 15 => (s.part.cvs ≠ 0) ∧ (s.mode.mode = .loader ∨ s.mode.mode = .ready) ∧ (absent = false)
  | 16 => (s.part.cvs ≠ 0) ∧ (s.accessible) ∧ (s.mode.mode ≠ .loader) ∧ (s.mode.mode ≠ .ready) ∧ (absent = false)
  | 17 => (s.part.cvs ≠ 0) ∧ (s.accessible) ∧ (absent = true)
  | 18 => (s.part.cvs ≠ 0) ∧ (s.accessible)
  | 19 => (s.mode.mode ≠ .sleep) ∧ (s.tap.trst = false)
  | 20 => (s.mode.mode ≠ .sleep)
  | 21 => (s.mode.mode ≠ .sleep) ∧ (s.tap.trst = true)
  | 22 => (s.mode.mode ≠ .sleep) ∧ (s.tap.trst = false) ∧ (s.tap.ins = .idcode)
  | 23 => (s.mode.mode ≠ .sleep) ∧ (s.tap.trst = false) ∧ (s.tap.ins = .bypass)
  | 24 => (s.mode.mode ≠ .sleep) ∧ (s.tap.trst = false) ∧ (s.tap.ins = .sample) ∧ (tdi.length = 402)
  | 25 => (s.mode.mode = .sleep)
  | _ => False

def cvOutputsDec (clause : Nat) (s : State) (c : BitVec 4) (t : Nat) (reading : BitVec 12) (v : HWord) (h : HCv) (slot : Nat)
    (tdi : List Bool) : Decidable (cvOutputsHyp clause s c t reading v h slot tdi) := by
  dsimp only [cvOutputsHyp, State.accessible]
  split <;> infer_instance

/-- States and operands that meet the premises of each clause of CvOutputs. -/
theorem witness_CvOutputs :
    cvOutputsHyp 0 { wRun with hood := some { wHood with cv := [(13, some ⟨0, false, false, 0, 0, 0, 0, 0, 31, 1⟩), (0, none)] }, cv := { wRun.cv with chans := (wRun.cv.chans.set 13 { (default : Cv) with gen := true }) } } 13 0 0 0 ⟨0,
        false, false, 0, 0, 0, 0, 0, 31, 1⟩ 0 (List.replicate 402 true) ∧
    cvOutputsHyp 1 wRun 0 0 0 0 (default : HCv) 0 (List.replicate 402 true) ∧
    cvOutputsHyp 2 wReady 0 0 0 0 (default : HCv) 0 (List.replicate 402 true) ∧
    cvOutputsHyp 3 wRun 0 0 0 0 (default : HCv) 0 (List.replicate 402 true) ∧
    cvOutputsHyp 4 wRun 0 0 0 0 (default : HCv) 0 (List.replicate 402 true) ∧
    cvOutputsHyp 5 { wRun with hood := some { wHood with cv := [(3, some ⟨0, false, false, 0, 0, 0, 0, 0, 36, 1⟩), (0, none), (0, none), (0, none), (0, none), (0, none), (0, none)] }, twin := (default : Twin), cv := { wRun.cv with chans := (wRun.cv.chans.set 3 { (default : Cv) with span := 2, dac := 19957 }) } } 3 0 1286 0 ⟨0,
        false, false, 0, 0, 0, 0, 0, 36, 1⟩ 0 (List.replicate 402 true) ∧
    cvOutputsHyp 6 { wRun with hood := some { wHood with cv := [(4, some ⟨0, false, false, 0, 0, 0, 0, 0, 28, 3⟩), (0, none), (0, none), (0, none), (0, none), (0, none)] }, cv := { wRun.cv with svcEn := true, svcCh := 4 } } 4 0 1819 0 ⟨0,
        false, false, 0, 0, 0, 0, 0, 28, 3⟩ 0 (List.replicate 402 true) ∧
    cvOutputsHyp 7 { wRun with hood := some { wHood with cv := (List.set wHood.cv 0 (0, some ⟨0, false, false, 0, 0, 0, 0, 0, 4, 1⟩)) }, twin := (default : Twin) } 0 0 1850 0 ⟨0,
        false, false, 0, 0, 0, 0, 0, 4, 1⟩ 0 (List.replicate 402 true) ∧
    cvOutputsHyp 8 wRun 1 0 0 0 (default : HCv) 0 (List.replicate 402 true) ∧
    cvOutputsHyp 9 wRun 0 0 1913 0 (default : HCv) 0 (List.replicate 402 true) ∧
    cvOutputsHyp 10 wRun 0 0 0 0 (default : HCv) 0 (List.replicate 402 true) ∧
    cvOutputsHyp 11 { wRun with flt := { wRun.flt with vbad := 15 } } 0 0 0 0 (default : HCv) 0 (List.replicate 402 true) ∧
    cvOutputsHyp 12 wRun 0 0 0 0 (default : HCv) 0 (List.replicate 402 true) ∧
    cvOutputsHyp 13 wRun 0 0 0 0 (default : HCv) 0 (List.replicate 402 true) ∧
    cvOutputsHyp 14 State.reset 0 0 0 0 (default : HCv) 0 (List.replicate 402 true) ∧
    cvOutputsHyp 15 wReady 0 0 0 0 (default : HCv) 0 (List.replicate 402 true) ∧
    cvOutputsHyp 16 { wRun with hood := none } 0 0 0 0 (default : HCv) 0 (List.replicate 402 true) ∧
    cvOutputsHyp 17 wRun 0 0 0 46935 (default : HCv) 0 (List.replicate 402 true) ∧
    cvOutputsHyp 18 wRun 0 0 0 0 (default : HCv) 0 (List.replicate 402 true) ∧
    cvOutputsHyp 19 { wRun with tap := (default : Tap) } 0 0 0 0 (default : HCv) 0 (List.replicate 402 true) ∧
    cvOutputsHyp 20 wRun 0 0 0 0 (default : HCv) 0 (List.replicate 402 true) ∧
    cvOutputsHyp 21 wRun 0 0 0 0 (default : HCv) 0 (List.replicate 402 true) ∧
    cvOutputsHyp 22 { wRun with tap := { wRun.tap with trst := false } } 0 0 0 0 (default : HCv) 0 (List.replicate 402 true) ∧
    cvOutputsHyp 23 { wRun with tap := (default : Tap) } 0 0 0 0 (default : HCv) 0 (List.replicate 402 true) ∧
    cvOutputsHyp 24 { wRun with tap := ⟨false, TapIns.sample, List.replicate 402 false, []⟩ } 0 0 0 0 (default : HCv) 0 (List.replicate 402 true) ∧
    cvOutputsHyp 25 { wRun with mode := { wRun.mode with mode := Mode.sleep } } 0 0 0 0 (default : HCv) 0 (List.replicate 402 true) :=
  ⟨yes (cvOutputsDec _ _ _ _ _ _ _ _ _) (by decide +kernel),
   yes (cvOutputsDec _ _ _ _ _ _ _ _ _) (by decide +kernel),
   yes (cvOutputsDec _ _ _ _ _ _ _ _ _) (by decide +kernel),
   yes (cvOutputsDec _ _ _ _ _ _ _ _ _) (by decide +kernel),
   yes (cvOutputsDec _ _ _ _ _ _ _ _ _) (by decide +kernel),
   yes (cvOutputsDec _ _ _ _ _ _ _ _ _) (by decide +kernel),
   yes (cvOutputsDec _ _ _ _ _ _ _ _ _) (by decide +kernel),
   yes (cvOutputsDec _ _ _ _ _ _ _ _ _) (by decide +kernel),
   yes (cvOutputsDec _ _ _ _ _ _ _ _ _) (by decide +kernel),
   yes (cvOutputsDec _ _ _ _ _ _ _ _ _) (by decide +kernel),
   yes (cvOutputsDec _ _ _ _ _ _ _ _ _) (by decide +kernel),
   yes (cvOutputsDec _ _ _ _ _ _ _ _ _) (by decide +kernel),
   yes (cvOutputsDec _ _ _ _ _ _ _ _ _) (by decide +kernel),
   yes (cvOutputsDec _ _ _ _ _ _ _ _ _) (by decide +kernel),
   yes (cvOutputsDec _ _ _ _ _ _ _ _ _) (by decide +kernel),
   yes (cvOutputsDec _ _ _ _ _ _ _ _ _) (by decide +kernel),
   yes (cvOutputsDec _ _ _ _ _ _ _ _ _) (by decide +kernel),
   yes (cvOutputsDec _ _ _ _ _ _ _ _ _) (by decide +kernel),
   yes (cvOutputsDec _ _ _ _ _ _ _ _ _) (by decide +kernel),
   yes (cvOutputsDec _ _ _ _ _ _ _ _ _) (by decide +kernel),
   yes (cvOutputsDec _ _ _ _ _ _ _ _ _) (by decide +kernel),
   yes (cvOutputsDec _ _ _ _ _ _ _ _ _) (by decide +kernel),
   yes (cvOutputsDec _ _ _ _ _ _ _ _ _) (by decide +kernel),
   yes (cvOutputsDec _ _ _ _ _ _ _ _ _) (by decide +kernel),
   yes (cvOutputsDec _ _ _ _ _ _ _ _ _) (by decide +kernel),
   yes (cvOutputsDec _ _ _ _ _ _ _ _ _) (by decide +kernel)⟩

/-- The premises of BusConversion, by clause. -/
def busConversionHyp (clause : Nat) (v : Word) (bipolar : Bool) (s : State) (x : Cv) : Prop :=
  match clause with
  | 1 => (v.toInt < 0) ∧ (bipolar = false)
  | 2 => (v.toInt = 0x7FFFFFFF)
  | 3 => (x.bsrc = true) ∧ (Store.get 0 s.bus.val x.bus = v.toInt)
  | _ => False

def busConversionDec (clause : Nat) (v : Word) (bipolar : Bool) (s : State) (x : Cv) : Decidable (busConversionHyp clause v bipolar s x) := by
  dsimp only [busConversionHyp]
  split <;> infer_instance

/-- States and operands that meet the premises of each clause of BusConversion. -/
theorem witness_BusConversion :
    busConversionHyp 1 4294967295 false wRun { (default : Cv) with bsrc := true } ∧
    busConversionHyp 2 2147483647 false wRun { (default : Cv) with bsrc := true } ∧
    busConversionHyp 3 0 false wRun { (default : Cv) with bsrc := true } :=
  ⟨yes (busConversionDec _ _ _ _ _) (by decide +kernel),
   yes (busConversionDec _ _ _ _ _) (by decide +kernel),
   yes (busConversionDec _ _ _ _ _) (by decide +kernel)⟩

/-- The premises of InterruptConditions, by clause. -/
def interruptConditionsHyp (clause : Nat) (s : State) : Prop :=
  (s.shape = unitCounts) ∧
  match clause with
  | 0 => True
  | 1 => True
  | 2 => True
  | 3 => True
  | 4 => True
  | _ => False

def interruptConditionsDec (clause : Nat) (s : State) : Decidable (interruptConditionsHyp clause s) := by
  dsimp only [interruptConditionsHyp]
  split <;> infer_instance

/-- States and operands that meet the premises of each clause of InterruptConditions. -/
theorem witness_InterruptConditions :
    interruptConditionsHyp 0 wRun ∧
    interruptConditionsHyp 1 wRun ∧
    interruptConditionsHyp 2 wRun ∧
    interruptConditionsHyp 3 wRun ∧
    interruptConditionsHyp 4 wRun :=
  ⟨yes (interruptConditionsDec _ _) (by decide +kernel),
   yes (interruptConditionsDec _ _) (by decide +kernel),
   yes (interruptConditionsDec _ _) (by decide +kernel),
   yes (interruptConditionsDec _ _) (by decide +kernel),
   yes (interruptConditionsDec _ _) (by decide +kernel)⟩

/-- The premises of FaultLog, by clause. -/
def faultLogHyp (clause : Nat) (s : State) (cls : Nat) (unit : Nat) (resp : Nat) (e : FaultEntry) (es : List FaultEntry) (ns : Nat) : Prop :=
  (s.shape = unitCounts) ∧
  match clause with
  | 0 => (s.flt.log.length < 16)
  | 1 => (16 ≤ s.flt.log.length)
  | 2 => (s.accessible) ∧ (s.flt.log = e :: es) ∧ (e.cls < 256) ∧ (e.unit < 256) ∧ (e.resp < 16) ∧ (e.frame < 2 ^ 32)
  | 3 => (s.accessible) ∧ (s.flt.log = [])
  | 4 => (s.fw.stage ≠ .confirm) ∧ (1000 ≤ ns)
  | _ => False

def faultLogDec (clause : Nat) (s : State) (cls : Nat) (unit : Nat) (resp : Nat) (e : FaultEntry) (es : List FaultEntry)
    (ns : Nat) : Decidable (faultLogHyp clause s cls unit resp e es ns) := by
  dsimp only [faultLogHyp, State.accessible]
  split <;> infer_instance

/-- States and operands that meet the premises of each clause of FaultLog. -/
theorem witness_FaultLog :
    faultLogHyp 0 wRun 0 0 0 ⟨6, 2, 0, 96⟩ [⟨5, 0, 3, 37⟩, ⟨6, 3, 4, 30⟩, ⟨10, 11, 4, 40⟩, ⟨2, 1, 3, 18⟩, ⟨7, 1, 5, 39⟩, ⟨9, 12, 1, 58⟩, ⟨3, 7, 1,
        66⟩, ⟨4, 15, 3, 70⟩, ⟨0, 14, 3, 27⟩, ⟨9, 4, 4, 39⟩, ⟨8, 9, 1, 68⟩, ⟨2, 9, 1, 51⟩, ⟨8, 4, 1, 2⟩, ⟨4, 11, 4, 45⟩] 0 ∧
    faultLogHyp 1 { wRun with flt := { wRun.flt with log := List.replicate 16 ⟨0, 0, 0, 0⟩ } } 0 0 0 ⟨6, 2, 0, 96⟩ [⟨5, 0, 3, 37⟩, ⟨6, 3, 4, 30⟩, ⟨10,
        11, 4, 40⟩, ⟨2, 1, 3, 18⟩, ⟨7, 1, 5, 39⟩, ⟨9, 12, 1, 58⟩, ⟨3, 7, 1, 66⟩, ⟨4, 15, 3, 70⟩, ⟨0, 14, 3, 27⟩, ⟨9, 4, 4, 39⟩, ⟨8, 9, 1, 68⟩, ⟨2, 9,
        1, 51⟩, ⟨8, 4, 1, 2⟩, ⟨4, 11, 4, 45⟩] 0 ∧
    faultLogHyp 2 { wRun with flt := { wRun.flt with log := [⟨6, 2, 0, 96⟩, ⟨5, 0, 3, 37⟩, ⟨6, 3, 4, 30⟩, ⟨10, 11, 4, 40⟩, ⟨2, 1, 3, 18⟩, ⟨7, 1, 5, 39⟩, ⟨9, 12, 1, 58⟩, ⟨3, 7, 1, 66⟩, ⟨4, 15, 3, 70⟩, ⟨0, 14, 3, 27⟩, ⟨9, 4, 4, 39⟩, ⟨8, 9, 1, 68⟩, ⟨2, 9, 1, 51⟩, ⟨8, 4, 1, 2⟩, ⟨4, 11, 4, 45⟩] } } 0 0 0 ⟨6,
        2, 0, 96⟩ [⟨5, 0, 3, 37⟩, ⟨6, 3, 4, 30⟩, ⟨10, 11, 4, 40⟩, ⟨2, 1, 3, 18⟩, ⟨7, 1, 5, 39⟩, ⟨9, 12, 1, 58⟩, ⟨3, 7, 1, 66⟩, ⟨4, 15, 3, 70⟩, ⟨0, 14,
        3, 27⟩, ⟨9, 4, 4, 39⟩, ⟨8, 9, 1, 68⟩, ⟨2, 9, 1, 51⟩, ⟨8, 4, 1, 2⟩, ⟨4, 11, 4, 45⟩] 0 ∧
    faultLogHyp 3 wRun 0 0 0 ⟨6, 2, 0, 96⟩ [⟨5, 0, 3, 37⟩, ⟨6, 3, 4, 30⟩, ⟨10, 11, 4, 40⟩, ⟨2, 1, 3, 18⟩, ⟨7, 1, 5, 39⟩, ⟨9, 12, 1, 58⟩, ⟨3, 7, 1,
        66⟩, ⟨4, 15, 3, 70⟩, ⟨0, 14, 3, 27⟩, ⟨9, 4, 4, 39⟩, ⟨8, 9, 1, 68⟩, ⟨2, 9, 1, 51⟩, ⟨8, 4, 1, 2⟩, ⟨4, 11, 4, 45⟩] 0 ∧
    faultLogHyp 4 wRun 0 0 0 ⟨6, 2, 0, 96⟩ [⟨5, 0, 3, 37⟩, ⟨6, 3, 4, 30⟩, ⟨10, 11, 4, 40⟩, ⟨2, 1, 3, 18⟩, ⟨7, 1, 5, 39⟩, ⟨9, 12, 1, 58⟩, ⟨3, 7, 1,
        66⟩, ⟨4, 15, 3, 70⟩, ⟨0, 14, 3, 27⟩, ⟨9, 4, 4, 39⟩, ⟨8, 9, 1, 68⟩, ⟨2, 9, 1, 51⟩, ⟨8, 4, 1, 2⟩, ⟨4, 11, 4, 45⟩] 1000 :=
  ⟨yes (faultLogDec _ _ _ _ _ _ _ _) (by decide +kernel),
   yes (faultLogDec _ _ _ _ _ _ _ _) (by decide +kernel),
   yes (faultLogDec _ _ _ _ _ _ _ _) (by decide +kernel),
   yes (faultLogDec _ _ _ _ _ _ _ _) (by decide +kernel),
   yes (faultLogDec _ _ _ _ _ _ _ _) (by decide +kernel)⟩

/-- The premises of ReceiverCommands, by clause. -/
def receiverCommandsHyp (clause : Nat) (s : State) : Prop :=
  let on := s.mode.mode ≠ .reset ∧ s.mode.mode ≠ .sleep
  (s.shape = unitCounts) ∧
  match clause with
  | 0 => (on)
  | 1 => (on)
  | 2 => (on)
  | 3 => (on)
  | 4 => (on)
  | 5 => (on)
  | 6 => (on)
  | 8 => (s.accessible)
  | _ => False

def receiverCommandsDec (clause : Nat) (s : State) : Decidable (receiverCommandsHyp clause s) := by
  dsimp only [receiverCommandsHyp, State.accessible]
  split <;> infer_instance

/-- States and operands that meet the premises of each clause of ReceiverCommands. -/
theorem witness_ReceiverCommands :
    receiverCommandsHyp 0 wRun ∧
    receiverCommandsHyp 1 wRun ∧
    receiverCommandsHyp 2 wRun ∧
    receiverCommandsHyp 3 wRun ∧
    receiverCommandsHyp 4 wRun ∧
    receiverCommandsHyp 5 wRun ∧
    receiverCommandsHyp 6 wRun ∧
    receiverCommandsHyp 8 wRun :=
  ⟨yes (receiverCommandsDec _ _) (by decide +kernel),
   yes (receiverCommandsDec _ _) (by decide +kernel),
   yes (receiverCommandsDec _ _) (by decide +kernel),
   yes (receiverCommandsDec _ _) (by decide +kernel),
   yes (receiverCommandsDec _ _) (by decide +kernel),
   yes (receiverCommandsDec _ _) (by decide +kernel),
   yes (receiverCommandsDec _ _) (by decide +kernel),
   yes (receiverCommandsDec _ _) (by decide +kernel)⟩

/-- The premises of VoiceFrames, by clause. -/
def voiceFramesHyp (clause : Nat) (c : VCtx) (dram : Memory) (tp : Template) (rb : List Nat) (fade : Option Int) (v : Voice) (n : Nat) : Prop :=
  let x := voiceSample c dram tp rb fade v
  let y := x.voice
  let w1 : View := ⟨v.env.map (·.e), v.lfo.map (·.out), v.osc.map (·.outL), v.filt.map (·.out), v.amp⟩
  let dest := fun (w : View) (code : Nat) => destRaw c tp { v with noise := y.noise } w code
  let clamp := fun (lo hi z : Int) => max lo (min hi z)
  let sat := clamp (-2 ^ 31) (2 ^ 31 - 1)
  let top : Int := 2 ^ 31 - 1
  let whole := v.osc.length = 4 ∧ v.env.length = 4 ∧ v.lfo.length = 3 ∧ v.filt.length = 2
  let first := c.frame = v.first
  let or_ := tp.osc.getD n []
  let model := Words.fld or_ 0 31 29
  let shape := Words.fld or_ 0 28 27
  let e := v.env.getD n default
  let rate := fun (j : Nat) => sat (dest w1 (0x28 + 6 * n + j))
  let stays := e.next = none ∧ v.relNow = false ∧ ¬ first
  match clause with
  | 2 => (whole) ∧ (n < 4) ∧ (model = 1 ∨ model = 4 ∨ (model = 5 ∧ shape ≠ 0))
  | 3 => (whole) ∧ (n < 4) ∧ (model = 1) ∧ (shape = 3)
  | 4 => (whole) ∧ (n < 4) ∧ (model = 1) ∧ (shape = 0)
  | 5 => (whole) ∧ (n < 4) ∧ (model = 2)
  | 6 => (whole) ∧ (n < 4) ∧ (model = 3)
  | 7 => (whole) ∧ (model = 4) ∧ (n = 3)
  | 8 => (whole) ∧ (n < 4) ∧ (model = 5) ∧ (shape = 0)
  | 9 => (whole) ∧ (n < 4) ∧ (model = 5) ∧ (shape ≠ 0)
  | 10 => (whole) ∧ (n < 4) ∧ (stays)
  | 11 => (whole) ∧ (n < 4) ∧ (v.relNow = true) ∧ (¬ first) ∧ (rate 4 ≠ top)
  | 12 => (whole) ∧ (n < 4) ∧ (v.relNow = false) ∧ (first) ∧ (rate 0 ≠ top)
  | 13 => (whole) ∧ (n < 3)
  | 14 => (whole)
  | 15 => (whole) ∧ ((∀ k, k < 2 → Words.fld (tp.filt.getD k []) 0 31 30 = 0)) ∧ (Words.fld tp.shaper 0 31 31 = 0)
  | 16 => (whole) ∧ (Words.fld tp.place 0 31 31 = 1)
  | _ => False

def voiceFramesDec (clause : Nat) (c : VCtx) (dram : Memory) (tp : Template) (rb : List Nat) (fade : Option Int) (v : Voice)
    (n : Nat) : Decidable (voiceFramesHyp clause c dram tp rb fade v n) := by
  dsimp only [voiceFramesHyp]
  split <;> infer_instance

/-- States and operands that meet the premises of each clause of VoiceFrames. -/
theorem witness_VoiceFrames :
    voiceFramesHyp 2 (default : VCtx)
        [] { (default : Template) with osc := [[], [2281777152, 0, 0, 0, 0, 0]] } [] none { (default : Voice) with osc := List.replicate 4 (default : OscSt), filt := [(default : FiltSt), (default : FiltSt)], env := List.replicate 4 (default : EnvSt), lfo := [⟨0, 0, 0, 0⟩, ⟨0, 0, 0, 0⟩, ⟨0, 0, 0, 0⟩] } 1 ∧
    voiceFramesHyp 3 (default : VCtx)
        [] { (default : Template) with osc := [[], [], [], [956377088, 0, 0, 0, 0, 0]] } [] none { (default : Voice) with osc := List.replicate 4 (default : OscSt), filt := [(default : FiltSt), (default : FiltSt)], env := List.replicate 4 (default : EnvSt), lfo := [⟨0, 0, 0, 0⟩, ⟨0, 0, 0, 0⟩, ⟨0, 0, 0, 0⟩] } 3 ∧
    voiceFramesHyp 4 (default : VCtx)
        [] { (default : Template) with osc := [[], [], [536870912, 0, 0, 0, 0]] } [] none { (default : Voice) with osc := List.replicate 4 (default : OscSt), filt := [(default : FiltSt), (default : FiltSt)], env := List.replicate 4 (default : EnvSt), lfo := [⟨0, 0, 0, 0⟩, ⟨0, 0, 0, 0⟩, ⟨0, 0, 0, 0⟩] } 2 ∧
    voiceFramesHyp 5 (default : VCtx)
        [] { (default : Template) with osc := [[], [], [], [1073741824, 0, 0, 0, 0]] } [] none { (default : Voice) with osc := List.replicate 4 (default : OscSt), filt := [(default : FiltSt), (default : FiltSt)], env := List.replicate 4 (default : EnvSt), lfo := [⟨0, 0, 0, 0⟩, ⟨0, 0, 0, 0⟩, ⟨0, 0, 0, 0⟩] } 3 ∧
    voiceFramesHyp 6 (default : VCtx)
        [] { (default : Template) with osc := [[], [], [1678059520, 0, 0, 0, 0, 0]] } [] none { (default : Voice) with osc := List.replicate 4 (default : OscSt), filt := [(default : FiltSt), (default : FiltSt)], env := List.replicate 4 (default : EnvSt), lfo := [⟨0, 0, 0, 0⟩, ⟨0, 0, 0, 0⟩, ⟨0, 0, 0, 0⟩] } 2 ∧
    voiceFramesHyp 7 (default : VCtx)
        [] { (default : Template) with osc := [[], [], [], [2550999040, 0, 0, 0, 0, 0]] } [] none { (default : Voice) with osc := List.replicate 4 (default : OscSt), filt := [(default : FiltSt), (default : FiltSt)], env := List.replicate 4 (default : EnvSt), lfo := [⟨0, 0, 0, 0⟩, ⟨0, 0, 0, 0⟩, ⟨0, 0, 0, 0⟩] } 3 ∧
    voiceFramesHyp 8 (default : VCtx)
        [] { (default : Template) with osc := [[], [2768971776, 0, 0, 0, 0, 0], []] } [] none { (default : Voice) with osc := List.replicate 4 (default : OscSt), filt := [(default : FiltSt), (default : FiltSt)], env := List.replicate 4 (default : EnvSt), lfo := [⟨0, 0, 0, 0⟩, ⟨0, 0, 0, 0⟩, ⟨0, 0, 0, 0⟩] } 1 ∧
    voiceFramesHyp 9 (default : VCtx)
        [] { (default : Template) with osc := [[], [2902534144, 0, 0, 0, 0, 0], []] } [] none { (default : Voice) with osc := List.replicate 4 (default : OscSt), filt := [(default : FiltSt), (default : FiltSt)], env := List.replicate 4 (default : EnvSt), lfo := [⟨0, 0, 0, 0⟩, ⟨0, 0, 0, 0⟩, ⟨0, 0, 0, 0⟩] } 1 ∧
    voiceFramesHyp 10 (default : VCtx) [] (default : Template)
        [] none { (default : Voice) with first := 1, osc := List.replicate 4 (default : OscSt), filt := [(default : FiltSt), (default : FiltSt)], env := List.replicate 4 (default : EnvSt), lfo := [⟨0, 0, 0, 0⟩, ⟨0, 0, 0, 0⟩, ⟨0, 0, 0, 0⟩] } 0 ∧
    voiceFramesHyp 11 (default : VCtx) [] (default : Template)
        [] none { (default : Voice) with first := 1, relNow := true, osc := List.replicate 4 (default : OscSt), filt := [(default : FiltSt), (default : FiltSt)], env := List.replicate 4 (default : EnvSt), lfo := [⟨0, 0, 0, 0⟩, ⟨0, 0, 0, 0⟩, ⟨0, 0, 0, 0⟩] } 0 ∧
    voiceFramesHyp 12 ⟨21, 0, [], 0, [], [], [], [], []⟩ [] (default : Template)
        [] none { (default : Voice) with first := 21, osc := List.replicate 4 (default : OscSt), filt := [(default : FiltSt), (default : FiltSt)], env := List.replicate 4 (default : EnvSt), lfo := [⟨0, 0, 0, 0⟩, ⟨0, 0, 0, 0⟩, ⟨0, 0, 0, 0⟩] } 0 ∧
    voiceFramesHyp 13 (default : VCtx) [] (default : Template)
        [] none { (default : Voice) with osc := List.replicate 4 (default : OscSt), filt := [(default : FiltSt), (default : FiltSt)], env := List.replicate 4 (default : EnvSt), lfo := [⟨0, 0, 0, 0⟩, ⟨0, 0, 0, 0⟩, ⟨0, 0, 0, 0⟩] } 0 ∧
    voiceFramesHyp 14 (default : VCtx) [] (default : Template)
        [] none { (default : Voice) with osc := List.replicate 4 (default : OscSt), filt := [(default : FiltSt), (default : FiltSt)], env := List.replicate 4 (default : EnvSt), lfo := [⟨0, 0, 0, 0⟩, ⟨0, 0, 0, 0⟩, ⟨0, 0, 0, 0⟩] } 0 ∧
    voiceFramesHyp 15 (default : VCtx) [] (default : Template)
        [] none { (default : Voice) with osc := List.replicate 4 (default : OscSt), filt := [(default : FiltSt), (default : FiltSt)], env := List.replicate 4 (default : EnvSt), lfo := [⟨0, 0, 0, 0⟩, ⟨0, 0, 0, 0⟩, ⟨0, 0, 0, 0⟩] } 0 ∧
    voiceFramesHyp 16 (default : VCtx) [] ⟨[], [], [], [], [], [], [], [2147483648, 0, 0, 0, 0, 0], [],
        []⟩ [] none { (default : Voice) with osc := List.replicate 4 (default : OscSt), filt := [(default : FiltSt), (default : FiltSt)], env := List.replicate 4 (default : EnvSt), lfo := [⟨0, 0, 0, 0⟩, ⟨0, 0, 0, 0⟩, ⟨0, 0, 0, 0⟩] } 0 :=
  ⟨yes (voiceFramesDec _ _ _ _ _ _ _ _) (by decide +kernel),
   yes (voiceFramesDec _ _ _ _ _ _ _ _) (by decide +kernel),
   yes (voiceFramesDec _ _ _ _ _ _ _ _) (by decide +kernel),
   yes (voiceFramesDec _ _ _ _ _ _ _ _) (by decide +kernel),
   yes (voiceFramesDec _ _ _ _ _ _ _ _) (by decide +kernel),
   yes (voiceFramesDec _ _ _ _ _ _ _ _) (by decide +kernel),
   yes (voiceFramesDec _ _ _ _ _ _ _ _) (by decide +kernel),
   yes (voiceFramesDec _ _ _ _ _ _ _ _) (by decide +kernel),
   yes (voiceFramesDec _ _ _ _ _ _ _ _) (by decide +kernel),
   yes (voiceFramesDec _ _ _ _ _ _ _ _) (by decide +kernel),
   yes (voiceFramesDec _ _ _ _ _ _ _ _) (by decide +kernel),
   yes (voiceFramesDec _ _ _ _ _ _ _ _) (by decide +kernel),
   yes (voiceFramesDec _ _ _ _ _ _ _ _) (by decide +kernel),
   yes (voiceFramesDec _ _ _ _ _ _ _ _) (by decide +kernel),
   yes (voiceFramesDec _ _ _ _ _ _ _ _) (by decide +kernel)⟩

end Sys2Proof.Tests
end

section
/-! The refutation of O38: pass 2 leaves a hood copy that its retained digest does not match where the region of the
copy has no size. -/

namespace Sys2Proof.Proofs

open Sys2Proof Sys2Proof.Machine Sys2Proof.Laws

/-! ## A digest is never empty (R68) -/

theorem length_shaRound (v : List Nat) (k w : Nat) : (shaRound v k w).length = v.length := by
  unfold shaRound
  split
  · simp only [List.length_cons]
  · rfl

theorem length_shaRounds (v ks ws : List Nat) : (shaRounds v ks ws).length = v.length := by
  induction ks generalizing v ws with
  | nil => rfl
  | cons k ks ih =>
    cases ws with
    | nil => rfl
    | cons w ws => rw [shaRounds, ih, length_shaRound]

theorem length_shaBlocks (n : Nat) (h : List Nat) (bs : List Byte) : (shaBlocks n h bs).length = h.length := by
  induction n generalizing h bs with
  | zero => rfl
  | succ n ih => rw [shaBlocks, ih, List.length_zipWith, length_shaRounds, Nat.min_self]

/-- Words spelt with four bytes each. -/
theorem length_flatMap_beBytes (ws : List Nat) : (ws.flatMap fun w => beBytes w 4).length = 4 * ws.length := by
  induction ws with
  | nil => rfl
  | cons w ws ih =>
    have four : (beBytes w 4).length = 4 := by rw [beBytes, List.length_reverse, length_leBytes]
    rw [List.flatMap_cons, List.length_append, four, ih, List.length_cons]
    omega

/-- R68: a digest has 32 bytes. -/
theorem length_sha256 (m : List Byte) : (sha256 m).length = 32 := by
  have eight : shaInit.length = 8 := by decide
  rw [sha256, length_flatMap_beBytes, length_shaBlocks, eight]

theorem sha256_ne_nil (m : List Byte) : sha256 m ≠ [] :=
  List.ne_nil_of_length_pos (by rw [length_sha256]; decide)

/-! ## What the install leaves of the hood copy (R78, R82) -/

/-- An interrupt touches neither the hood copy nor its digest. -/
theorem hoodIntact_raiseInt (n : Nat) (s : State) : hoodIntact (raiseInt n s) = hoodIntact s := by
  obtain h | ⟨-, h⟩ := raiseInt_cases (s := s) n
  · rw [h]
  · rw [h]; rfl

/-- Setting up the initial state touches neither the hood copy nor its digest. -/
theorem hoodIntact_install (b : Hood) (s : State) : hoodIntact (install b s) = hoodIntact s := rfl

/-- The size in MB of the region that the install gives the hood copy of structure b. -/
def regionMb (s : State) (b : Hood) : Nat :=
  copyMbOf b.hdr.dramMin (dirEnts (hdrWord s.block.head 0xC) (s.block.head.drop 64)) (firstSection s.block.head)

/-- With DRAM, the hood copy that the install leaves is intact exactly where its region has a size: without one no
digest is retained, and the comparison fails. -/
theorem hoodIntact_finishBlocking {s : State} {b : Hood} (hb : s.block.body = some b) (hd : b.hdr.dramMin ≠ 0) :
    hoodIntact (finishBlocking s) = true ↔ regionMb s b ≠ 0 := by
  simp only [finishBlocking, hb, if_neg hd, hoodIntact_raiseInt, hoodIntact_install]
  rw [regionMb]
  generalize copyMbOf _ _ _ = copy
  by_cases hc : copy = 0
  · simp only [hoodIntact, hc, if_true, beq_iff_eq, sha256_ne_nil, ne_eq, not_true_eq_false]
  · simp only [hoodIntact, hc, if_false, beq_iff_eq, dramImage, memory_readN_writeN, ne_eq, not_false_eq_true]

/-- PASS_2 at stage 5 of blocking installs the structure. -/
theorem exec_pass2_of_stage5 {s : State} {b : Hood} (mb : Nat) (tr : Bool) (hm : s.mode.mode = .load)
    (hb : s.block.body = some b) (h5 : s.block.stage = 5) : exec (.pass2 mb tr) s = .next (finishBlocking s) := by
  change execPass2 mb tr s = _
  have h3 : s.block.stage ≠ 3 := by omega
  simp only [execPass2, if_pos hm, hb, if_neg h3, if_pos h5]

/-! ## The counterexample -/

/-- A structure that asks for 1024 MB of DRAM. -/
def dramHood : Hood := { Hood.empty with hdr := { Hood.empty.hdr with dramMin := 1024 } }

/-- A header whose only word that is not zero says one section, and a directory of zeros: the section, with offset 0
and no bytes, is the last one on chip and ends at 0. -/
def emptyDirHead : List Byte := List.replicate 12 0 ++ [1] ++ List.replicate 115 0

/-- A chip with trained DRAM in LOAD, at the install of that structure. -/
def emptyCopyLoad : State := { State.reset with
  mode := { ModeSt.reset with mode := .load }, dramMb := 1024
  block := { Block.empty with stage := 5, head := emptyDirHead, body := some dramHood } }

theorem regionMb_emptyCopyLoad : regionMb emptyCopyLoad dramHood = 0 := by decide

/-- Refutes O38, in its last clause: where the directory at the install ends at offset 0, the region of the hood copy
has no size, no digest of the copy is retained, and the hood copy of a structure with DRAM does not count as intact. The
clause lacks the premise that the directory has passed step 9 of pass 1, by which the last section ends past the
signature block (R69). -/
theorem not_passes : ¬ Obligations.Passes := by
  unfold Obligations.Passes
  intro h
  obtain ⟨-, -, -, -, -, -, -, -, -, -, installs⟩ :=
    h emptyCopyLoad dramHood dramHood none [] [] .ok 0 0 1024 true (by decide) rfl
  obtain ⟨u, hu, -, dram, -⟩ := installs rfl rfl
  have hd : dramHood.hdr.dramMin ≠ 0 := by decide
  obtain ⟨-, intact⟩ := dram hd
  rw [exec_pass2_of_stage5 1024 true rfl rfl rfl] at hu
  cases hu
  exact (hoodIntact_finishBlocking rfl hd).mp intact regionMb_emptyCopyLoad

end Sys2Proof.Proofs
end

section
/-! What an instruction command that can issue does to its engine: the engine after an instruction of class 0, 1 or 3,
and what its effects leave of the accumulators, the pins and the flags (R185, R191, R204). -/

namespace Sys2Proof.Proofs

open Sys2Proof Sys2Proof.Machine Sys2Proof.Laws

/-! ## The command and its engine -/

theorem canIssue_iff {c : Instr} {g : EngAt} {w : Nat} (hw : engWord c = some (g, w)) (s : State) :
    canIssue c s ↔ issuable g w s := by
  unfold canIssue
  rw [hw]

/-- A command without a parity error, to an engine that runs a partition, is one issue of its word. -/
theorem exec_of_engRuns {c : Instr} {g : EngAt} {w : Nat} {s : State} (hw : engWord c = some (g, w))
    (hr : engRuns s (engAt s g.e.toNat) = true) (hp : g.perr % 16 = 0) :
    exec c s = .next (engDone g.e.toNat (issueWord (engAt s g.e.toNat) (engEnv s g.e.toNat) w 0) s) := by
  rw [exec_engWord hw, issueAt, if_pos hr, hp]

/-- The engine after an instruction of class 0, 1 or 3 that issues. -/
def afterPlain (x : Engine) (env : EngEnv) (i : EIns) : Engine :=
  countBg env.det (effOf x env i).outs (advance (committed x env i) (loopEnd x))

theorem issued_afterPlain (x : Engine) (env : EngEnv) (i : EIns) : Issued (committed x env i) (afterPlain x env i) :=
  issued_countBg (issued_advance _ _) _ _

/-- The issue of a word of class 0, 1 or 3, read from the command: what holds of the engine after it for every engine
with its registers holds of the engine of the command. -/
theorem yields_plain {c : Instr} {g : EngAt} {w : Nat} {s : State} {P : Engine → Engine → Prop} (hs : s.shape = unitCounts)
    (hw : engWord c = some (g, w)) (hc : canIssue c s) (hp : isPlain (insOf w) = true)
    (h : ∀ x env, Fits x → reservedWord w = false → P x (afterPlain x env (insOf w))) : Yields c s g.e.toNat P := by
  obtain ⟨-, -, hr, hx, hph⟩ := (canIssue_iff hw s).1 hc
  have hword := issueWord_plain (env := engEnv s g.e.toNat) hp hr hx hph
  obtain ⟨t, ht, rfl, -⟩ := plain_issue (length_engines hs) hw hc hp
  refine ⟨_, ht, ?_⟩
  rw [engAt_engDone (by rw [length_engines hs]; exact g.e.isLt) ?_, hword]
  · exact h _ _ (fits_engAt hs _) hr
  · rw [hword]
    intro o ho
    rcases List.mem_append.1 ho with ho | ho
    · exact mild_effOf _ _ _ o ho
    · split at ho
      · rcases List.mem_singleton.1 ho with rfl
        rfl
      · cases ho

/-! ## What sequencing leaves -/

theorem issued_bank {k y : Engine} (h : Issued k y) : y.bank = k.bank := by
  obtain ⟨⟨rc, pc, lc, st, br, wf, rfl⟩, -⟩ := h
  rfl

theorem issued_av {k y : Engine} (h : Issued k y) : y.sav = k.sav ∧ y.bav = k.bav := by
  obtain ⟨⟨rc, pc, lc, st, br, wf, rfl⟩, -⟩ := h
  exact ⟨rfl, rfl⟩

theorem stPin_ne_stLA {n : Nat} (hn : n < 4) : stPin n ≠ stLA := by unfold stPin stLA; omega
theorem stPin_ne_stAV (n : Nat) : stPin n ≠ stAV := by unfold stPin stAV; omega
theorem stPin_ne_stSV (n : Nat) : stPin n ≠ stSV := by unfold stPin stSV; omega
theorem stPin_ne_stN (n : Nat) : stPin n ≠ stN := by unfold stPin stN; omega
theorem stPin_ne_stZ (n : Nat) : stPin n ≠ stZ := by unfold stPin stZ; omega

theorem issued_pinned {k y : Engine} {n : Nat} (h : Issued k y) (hn : n < 4) : y.pinned n = k.pinned n :=
  h.st _ (stPin_ne_stLA hn)

/-! ## What the effects of an instruction leave -/

/-- The accumulators that an effect writes are different and exist, and it moves nothing into ST. -/
structure AccEffects (e : Eff) : Prop where
  nodup : (e.a.map (·.1)).Nodup
  lt : ∀ b ∈ e.a, b.1 < 4
  st : e.st = none

section
variable {g : Engine} {e : Eff} {lw : Bool} {n : Nat} (he : AccEffects e)
include he

theorem commit_st_of_accEffects : (commitEff g e lw).st = stAfter g e lw := by
  rw [commit_st, he.st]

theorem commit_pinned {v : Int} {p : Bool} (hm : (n, v, p) ∈ e.a) : (commitEff g e lw).pinned n = p := by
  rw [Engine.pinned, commit_st_of_accEffects he]
  exact stAfter_pin g e lw (n, v, p) he.nodup hm he.lt

/-- An accumulator that no effect writes stays, with its pin. -/
theorem commit_accKept (hn : n < 4) (h : n ∉ e.a.map (·.1)) : AccKept g (commitEff g e lw) n := by
  refine ⟨commit_aN_of_not_mem h, ?_⟩
  have hpin : ∀ b ∈ e.a, stPin b.1 ≠ stPin n := by
    intro b hb heq
    have : b.1 = n := by unfold stPin at heq; omega
    exact h (this ▸ List.mem_map_of_mem hb)
  rw [Engine.pinned, commit_st_of_accEffects he, stBit_stAfter g e lw _ (stPin_ne_stLA hn) he.lt hpin]
  simp only [if_neg (stPin_ne_stAV n), if_neg (stPin_ne_stSV n), if_neg (stPin_ne_stN n), if_neg (stPin_ne_stZ n)]
  cases e.nz <;> rfl

theorem commit_nz {a b : Bool} (h : e.nz = some (a, b)) :
    stBit (commitEff g e lw).st stN = a ∧ stBit (commitEff g e lw).st stZ = b := by
  rw [commit_st_of_accEffects he, stBit_stAfter g e lw stN (by decide) he.lt fun b _ => stPin_ne_stN b.1,
    stBit_stAfter g e lw stZ (by decide) he.lt fun b _ => stPin_ne_stZ b.1, h]
  exact ⟨rfl, rfl⟩

theorem commit_stAV (h : e.av = true) : stBit (commitEff g e lw).st stAV = true := by
  rw [commit_st_of_accEffects he, stBit_stAfter g e lw stAV (by decide) he.lt fun b _ => stPin_ne_stAV b.1, h]
  cases e.nz <;> rfl

end

/-- R182: the host's copy of a saturation of an accumulator. -/
theorem commit_av {g : Engine} {e : Eff} {lw : Bool} (h : e.av = true) :
    if g.phase = .sample then (commitEff g e lw).sav = true else (commitEff g e lw).bav = true := by
  show if g.phase = .sample then (markSat ((landedFor g e lw).setBank _) e.av e.sv).sav = true
    else (markSat ((landedFor g e lw).setBank _) e.av e.sv).bav = true
  simp only [markSat, setBank_phase, (sameCore_landedFor g e lw).phase, h]
  split <;> simp [*]

end Sys2Proof.Proofs
end

section
/-! The accumulator operations (R209, R210): what the arithmetic of an instruction gives is what its accumulator takes,
and the loads and moves into an accumulator clear its pin. -/

namespace Sys2Proof.Proofs

open Sys2Proof Sys2Proof.Machine Sys2Proof.Laws

/-! ## The arithmetic -/

/-- The result of the arithmetic operation of an instruction, from the engine that issues it (R209, R210). -/
def arithOf (g : Engine) (aop ad s1 s2 : Nat) : ArithRes :=
  let mac := aop == 2 || aop == 3
  arith aop (if mac then g.bank.aN ad else g.oldAcc ad) (stBit (if mac then g.st else g.stOld) (stPin ad)) (g.oldAcc (s1 % 4))
    (g.bank.dN s1).toInt (g.bank.dN s2).toInt s1 (condHolds g.stOld s2)

/-- The accumulator that a result writes, with its pin: that of the result, or the one it has. -/
def accWrites (n : Nat) (pin : Bool) : Option (Int × Option Bool) → List (Nat × Int × Bool)
  | none => []
  | some r => [(n, r.1, r.2.getD pin)]

theorem effArith_acc (g : Engine) (aop ad s1 s2 : Nat) :
    (effArith g aop ad s1 s2).a = accWrites ad (g.pinned ad) (arithOf g aop ad s1 s2).acc := by
  have h : ∀ r : ArithRes, (match r.acc with | some (v, p) => [(ad, v, p.getD (g.pinned ad))] | none => []) =
      accWrites ad (g.pinned ad) r.acc := by
    intro r
    cases r.acc <;> rfl
  exact h _

theorem effArith_av (g : Engine) (aop ad s1 s2 : Nat) : (effArith g aop ad s1 s2).av = (arithOf g aop ad s1 s2).av := rfl
theorem effArith_nz (g : Engine) (aop ad s1 s2 : Nat) : (effArith g aop ad s1 s2).nz = (arithOf g aop ad s1 s2).nz := rfl

/-- The range of an accumulator (R191). -/
def InAcc (v : Int) : Prop := -2 ^ 71 ≤ v ∧ v < 2 ^ 71

theorem inAcc_oldAcc (g : Engine) (n : Nat) : InAcc (g.oldAcc n) :=
  ⟨(g.aOld.getD n 0).le_toInt, (g.aOld.getD n 0).toInt_lt⟩

theorem inAcc_zero : InAcc 0 := ⟨by decide, by decide⟩

theorem inAcc_max {a b : Int} (ha : InAcc a) (hb : InAcc b) : InAcc (max a b) := by
  unfold InAcc at ha hb ⊢
  omega

theorem inAcc_min {a b : Int} (ha : InAcc a) (hb : InAcc b) : InAcc (min a b) := by
  unfold InAcc at ha hb ⊢
  omega

theorem inAcc_satN (v : Int) : InAcc (satN 72 v) := by
  unfold satN clampI InAcc
  split
  · decide
  · split <;> omega

theorem natAbs_toInt_le (a : Word) : a.toInt.natAbs ≤ 2 ^ 31 := by
  have lo : -2 ^ 31 ≤ a.toInt := a.le_toInt
  have hi : a.toInt < 2 ^ 31 := a.toInt_lt
  omega

/-- The product of two data words fits. -/
theorem inAcc_mul (a b : Word) : InAcc (a.toInt * b.toInt) := by
  have h : (a.toInt * b.toInt).natAbs ≤ 2 ^ 31 * 2 ^ 31 := by
    rw [Int.natAbs_mul]
    exact Nat.mul_le_mul (natAbs_toInt_le a) (natAbs_toInt_le b)
  unfold InAcc
  omega

/-- A data word in the upper part fits. -/
theorem inAcc_upper (a : Word) : InAcc (a.toInt * 2 ^ 31) := by
  have lo : -2 ^ 31 ≤ a.toInt := a.le_toInt
  have hi : a.toInt < 2 ^ 31 := a.toInt_lt
  unfold InAcc
  omega

/-- A shift to the right fits. -/
theorem inAcc_div {a : Int} (h : InAcc a) (k : Nat) : InAcc (a / 2 ^ k) := by
  obtain ⟨lo, hi⟩ := h
  have pos : (0 : Int) < 2 ^ k := Int.pow_pos (by decide)
  exact ⟨Int.le_ediv_of_mul_le pos (by omega), Int.ediv_lt_of_lt_mul pos (by omega)⟩

/-- The result that leaves the accumulator, the one that places a value and clears the pin, and the one that compares. -/
def arithKeeps : ArithRes := ⟨none, false, none⟩
def arithPlaces (v : Int) : ArithRes := ⟨some (v, some false), false, none⟩
def arithCompares (v : Int) : ArithRes := ⟨none, false, nzOf v⟩

/-! ## What the accumulator takes -/

/-- Accumulator n takes a result of the arithmetic: a value in range, its pin where the result has one, and AV with the
host's copy where it saturated (R191). -/
def AccGets (x y : Engine) (n : Nat) (r : ArithRes) : Prop :=
  match r.acc with
  | none => AccKept x y n
  | some (v, p) => (InAcc v → y.bank.aN n = v) ∧ y.pinned n = p.getD (x.pinned n) ∧
      (r.av = true → stBit y.st stAV = true ∧ if x.phase = .sample then y.sav = true else y.bav = true)

theorem eq_of_accGets_places {x y : Engine} {n : Nat} {v : Int} (hv : InAcc v) (h : AccGets x y n (arithPlaces v)) :
    y.bank.aN n = v ∧ y.pinned n = false :=
  ⟨h.1 hv, h.2.1⟩

theorem satN_of_inAcc {v : Int} (h : InAcc v) : satN 72 v = v := by
  obtain ⟨lo, hi⟩ := h
  unfold satN clampI
  rw [if_neg (by omega), if_neg (by omega)]

/-- Out of range, saturation gives the end of the range on the side of the value. -/
theorem satN_of_not_inAcc {v : Int} (h : ¬ InAcc v) : satN 72 v = (if v < 0 then -2 ^ 71 else 2 ^ 71 - 1) := by
  have hout : v < -2 ^ 71 ∨ 2 ^ 71 ≤ v := by unfold InAcc at h; omega
  unfold satN clampI
  split <;> split <;> omega

theorem clipped_of_inAcc {v : Int} (h : InAcc v) : clipped 72 v = false := by
  rw [clipped, satN_of_inAcc h]
  exact bne_self_eq_false v

theorem clipped_of_not_inAcc {v : Int} (h : ¬ InAcc v) : clipped 72 v = true :=
  bne_iff_ne.2 fun heq => h (heq ▸ inAcc_satN v)

/-- R191: a result that saturates is taken exactly, or at the end of the range with the pin and AV. -/
theorem accTakes_of_accGets {x y : Engine} {n : Nat} {v : Int} (h : AccGets x y n (arithSat v)) : AccTakes x y n v := by
  obtain ⟨hval, hpin, hav⟩ := h
  have hacc : y.bank.aN n = satN 72 v := hval (inAcc_satN v)
  unfold AccTakes
  split
  next hv =>
    have hclip := clipped_of_inAcc hv
    rw [hacc, hpin, satN_of_inAcc hv]
    simp only [sat72, hclip]
    exact ⟨trivial, rfl⟩
  next hv =>
    have hclip := clipped_of_not_inAcc hv
    rw [hacc, hpin, satN_of_not_inAcc hv]
    simp only [sat72, hclip]
    exact ⟨trivial, rfl, hav hclip⟩

/-! ## The engine after an instruction of class 0, 1 or 3 -/

section
variable {x : Engine} {env : EngEnv} {i : EIns} {n : Nat} (he : AccEffects (effOf x env i))
include he

theorem accKept_afterPlain (hn : n < 4) (h : n ∉ (effOf x env i).a.map (·.1)) : AccKept x (afterPlain x env i) n := by
  have hy := issued_afterPlain x env i
  obtain ⟨hacc, hpin⟩ := commit_accKept (g := { x with cyc := x.cyc + 1 }) (lw := loopWrites x) he hn h
  unfold AccKept
  rw [issued_bank hy, issued_pinned hy hn]
  exact ⟨hacc, hpin⟩

theorem aN_afterPlain {v : Int} {p : Bool} (hlen : n < x.bank.a.length) (h : (n, v, p) ∈ (effOf x env i).a) (hv : InAcc v) :
    (afterPlain x env i).bank.aN n = v := by
  rw [issued_bank (issued_afterPlain x env i)]
  exact commit_aN he.nodup h hlen hv.1 hv.2

/-- The pin of an accumulator that an instruction writes. -/
theorem pinned_afterPlain {v : Int} {p : Bool} (hn : n < 4) (h : (n, v, p) ∈ (effOf x env i).a) :
    (afterPlain x env i).pinned n = p := by
  rw [issued_pinned (issued_afterPlain x env i) hn]
  exact commit_pinned he h

theorem av_afterPlain (h : (effOf x env i).av = true) : stBit (afterPlain x env i).st stAV = true ∧
    if x.phase = .sample then (afterPlain x env i).sav = true else (afterPlain x env i).bav = true := by
  have hy := issued_afterPlain x env i
  rw [hy.st stAV (by decide), (issued_av hy).1, (issued_av hy).2]
  exact ⟨commit_stAV he h, commit_av (g := { x with cyc := x.cyc + 1 }) h⟩

/-- N and Z after an instruction that compares (R210, R216). -/
theorem nz_afterPlain {v : Int} (h : (effOf x env i).nz = nzOf v) :
    stBit (afterPlain x env i).st stN = decide (v < 0) ∧ stBit (afterPlain x env i).st stZ = decide (v = 0) := by
  have hy := issued_afterPlain x env i
  rw [hy.st stN (by decide), hy.st stZ (by decide)]
  exact commit_nz he h

end

/-! ## The accumulators that an instruction of class 0 writes -/

theorem effArith_acc_lt (g : Engine) (aop s1 s2 : Nat) {ad : Nat} (had : ad < 4) : ∀ b ∈ (effArith g aop ad s1 s2).a, b.1 < 4 := by
  rw [effArith_acc]
  cases (arithOf g aop ad s1 s2).acc with
  | none => simp [accWrites]
  | some r => simpa [accWrites] using had

theorem effMove_acc_lt (g : Engine) (det isY : Bool) (m : MoveF) : ∀ b ∈ (effMove g det isY m).a, b.1 < 4 := by
  rw [effMove_a]
  split
  · simp [Nat.mod_lt]
  · simp

theorem effWide_acc_lt (g : Engine) (mx my : MoveF) : ∀ b ∈ (effWide g mx my).a, b.1 < 4 := by
  rw [effWide_a]
  split
  · simp [Nat.mod_lt]
  · simp

section
variable {x : Engine} {env : EngEnv} {aop ad s1 s2 : Nat} {mx my : MoveF}

theorem effOf_par_acc : (effOf x env (.par aop ad s1 s2 mx my)).a = (effArith x aop ad s1 s2).a ++
    ((effMove x env.det false mx).a ++ ((effMove x env.det true my).a ++ (effWide x mx my).a)) := by
  simp only [effOf, Eff.and, List.append_assoc]

theorem effOf_par_av : (effOf x env (.par aop ad s1 s2 mx my)).av = (effArith x aop ad s1 s2).av := by
  simp only [effOf, Eff.and, (effMove_nz _ _ _ _).2.2, (effWide_nz _ _ _).2.2.1, Bool.or_false]

theorem effOf_par_nz : (effOf x env (.par aop ad s1 s2 mx my)).nz = (effArith x aop ad s1 s2).nz := by
  simp only [effOf, Eff.and, (effMove_nz _ _ _ _).1, (effWide_nz _ _ _).1]
  cases (effArith x aop ad s1 s2).nz <;> rfl

/-- The checks of a word of class 0 make its accumulators different. -/
theorem accEffects_par (hc : Checked (.par aop ad s1 s2 mx my)) (had : ad < 4) : AccEffects (effOf x env (.par aop ad s1 s2 mx my)) where
  nodup := nodup_of_map ((effA_sub x env _ hc (by simp)).nodup hc.nodup)
  lt := by
    intro b hb
    simp only [effOf, Eff.and, List.mem_append] at hb
    obtain (h | h) | (h | h) := hb
    · exact effArith_acc_lt _ _ _ _ had b h
    · exact effMove_acc_lt _ _ _ _ b h
    · exact effMove_acc_lt _ _ _ _ b h
    · exact effWide_acc_lt _ _ _ b h
  st := by
    simp only [effOf, Eff.and, effArith_st, (effMove_nz _ _ _ _).2.1, (effWide_nz _ _ _).2.1]
    rfl

/-- Where the arithmetic writes its accumulator, no move of the same instruction does (R207). -/
theorem not_mem_moves_of_aopWrites (hc : Checked (.par aop ad s1 s2 mx my)) (hw : aopWrites aop = true) :
    ad ∉ (((effMove x env.det false mx).a ++ ((effMove x env.det true my).a ++ (effWide x mx my).a)).map (·.1)) := by
  have hsub := (moveA_sub x env.det false mx).append ((moveA_sub x env.det true my).append (wideA_sub x mx my (hc.wide _ _ _ _ _ _ rfl)))
  have hnodup := hc.nodup
  simp only [insWrites, if_pos hw, List.append_assoc, List.cons_append, List.nil_append, List.nodup_cons] at hnodup
  intro hmem
  obtain ⟨b, hb, rfl⟩ := List.mem_map.1 hmem
  refine hnodup.1 (hsub.subset ?_)
  simpa only [List.map_append] using List.mem_map_of_mem (f := fun x => 16 + x.1) hb

/-- R209: the accumulator that the arithmetic of an instruction writes gets its result. -/
theorem accGets_afterPlain (hx : Fits x) (hc : Checked (.par aop ad s1 s2 mx my)) (had : ad < 4) (hw : aopWrites aop = true) :
    AccGets x (afterPlain x env (.par aop ad s1 s2 mx my)) ad (arithOf x aop ad s1 s2) := by
  have he := accEffects_par (x := x) (env := env) hc had
  have hacc := effOf_par_acc (x := x) (env := env) (aop := aop) (ad := ad) (s1 := s1) (s2 := s2) (mx := mx) (my := my)
  have hav := effOf_par_av (x := x) (env := env) (aop := aop) (ad := ad) (s1 := s1) (s2 := s2) (mx := mx) (my := my)
  rw [effArith_acc] at hacc
  rw [effArith_av] at hav
  generalize arithOf x aop ad s1 s2 = r at hacc hav ⊢
  obtain ⟨acc, av, nz⟩ := r
  cases acc with
  | none =>
    refine accKept_afterPlain he had ?_
    rw [hacc, accWrites, List.nil_append]
    exact not_mem_moves_of_aopWrites hc hw
  | some r =>
    have hmem : (ad, r.1, r.2.getD (x.pinned ad)) ∈ (effOf x env (.par aop ad s1 s2 mx my)).a := by
      rw [hacc, accWrites, List.singleton_append]
      exact List.mem_cons_self
    refine ⟨fun hv => aN_afterPlain he ?_ hmem hv, pinned_afterPlain he had hmem, fun h => av_afterPlain he (hav.trans h)⟩
    rw [(fits_bank hx).2.1]
    exact had

end

/-- An operation that a pin stops, and that saturates. -/
theorem takes_of_accGets {x y : Engine} {n : Nat} {pin : Bool} {v : Int} (h : AccGets x y n (if pin then arithKeeps else arithSat v)) :
    if pin then AccKept x y n else AccTakes x y n v := by
  cases pin with
  | true => exact h
  | false => exact accTakes_of_accGets h

/-- A shift to the right, that a pin stops and that leaves the pin (R210). -/
theorem shifts_of_accGets {x y : Engine} {n : Nat} {pin : Bool} {v : Int} (hv : InAcc v)
    (h : AccGets x y n (if pin then arithKeeps else ⟨some (v, none), false, none⟩)) :
    if pin then AccKept x y n else y.bank.aN n = v ∧ y.pinned n = x.pinned n := by
  cases pin with
  | true => exact h
  | false => exact ⟨h.1 hv, h.2.1⟩

/-- A selection, that writes where its condition holds (R210, R211). -/
theorem selects_of_accGets {x y : Engine} {n : Nat} {cond : Bool} {v : Int} (hv : InAcc v)
    (h : AccGets x y n (if cond then arithPlaces v else arithKeeps)) :
    if cond then y.bank.aN n = v ∧ y.pinned n = false else AccKept x y n := by
  cases cond with
  | true => exact eq_of_accGets_places hv h
  | false => exact h

/-! ## The commands of class 0 -/

section
variable {c : Instr} {g : EngAt} {s : State} (hs : s.shape = unitCounts)
include hs

/-- What holds of the engine after the fields of a class 0 word, checked, holds of the engine after the command. -/
theorem yields_par {aop s1 s2 fx fy : Nat} {ad : BitVec 2} {P : Engine → Engine → Prop}
    (hw : engWord c = some (g, wordPar aop ad.toNat s1 s2 fx fy)) (h0 : aop < 2 ^ 6) (h1 : s1 < 2 ^ 4) (h2 : s2 < 2 ^ 4)
    (h3 : fx < 2 ^ 23) (h4 : fy < 2 ^ 23)
    (h : ∀ x env, Fits x → Checked (.par aop ad.toNat s1 s2 (moveOf fx) (moveOf fy)) →
      P x (afterPlain x env (.par aop ad.toNat s1 s2 (moveOf fx) (moveOf fy)))) (hc : canIssue c s) : Yields c s g.e.toNat P := by
  have hi := (insOf_wordPar h0 ad.isLt h1 h2 h3 h4).1
  refine yields_plain hs hw hc (by rw [hi]; rfl) fun x env hx hr => ?_
  rw [hi]
  exact h x env hx (checked_par hr hi)

/-- R209: where the accumulator of the command gets the result of its arithmetic, P holds. -/
theorem yields_arith {aop s1 s2 : Nat} {ad : BitVec 2} {fx fy : BitVec 23} {P : Engine → Engine → Prop}
    (hw : engWord c = some (g, wordPar aop ad.toNat s1 s2 fx.toNat fy.toNat)) (h1 : s1 < 2 ^ 4) (h2 : s2 < 2 ^ 4)
    (h : ∀ x y, AccGets x y ad.toNat (arithOf x aop ad.toNat s1 s2) → P x y)
    (hop : aopWrites aop = true := by rfl) (h0 : aop < 2 ^ 6 := by decide) (hc : canIssue c s) : Yields c s g.e.toNat P :=
  yields_par hs hw h0 h1 h2 fx.isLt fy.isLt (fun x _ hx hk => h x _ (accGets_afterPlain hx hk ad.isLt hop)) hc

variable {p : AccArgs} {aop s1 : Nat} {v : Engine → Int} (hw : engWord c = some (g, accWord aop s1 0 p)) (h1 : s1 < 2 ^ 4)
include hw h1

/-- An operation that a pin stops, saturates otherwise, and sees the older accumulators and pins (R185, R210). -/
theorem yields_sum (hr : ∀ x : Engine, arithOf x aop p.ad.toNat s1 0 = if x.oldPin p.ad.toNat then arithKeeps else arithSat (v x))
    (hop : aopWrites aop = true := by rfl) (h0 : aop < 2 ^ 6 := by decide) (hc : canIssue c s) : Yields c s g.e.toNat fun x y =>
      if x.oldPin p.ad.toNat then AccKept x y p.ad.toNat else AccTakes x y p.ad.toNat (v x) :=
  yields_arith hs hw h1 (by decide) (fun x _ h => takes_of_accGets (hr x ▸ h)) hop h0 hc

/-- An operation that places a value and clears the pin (R210). -/
theorem yields_places (hr : ∀ x, arithOf x aop p.ad.toNat s1 0 = arithPlaces (v x)) (hv : ∀ x, InAcc (v x))
    (hop : aopWrites aop = true := by rfl) (h0 : aop < 2 ^ 6 := by decide) (hc : canIssue c s) :
    Yields c s g.e.toNat fun x y => y.bank.aN p.ad.toNat = v x ∧ y.pinned p.ad.toNat = false :=
  yields_arith hs hw h1 (by decide) (fun x _ h => eq_of_accGets_places (hv x) (hr x ▸ h)) hop h0 hc

/-- A comparison of class 0 (R210). -/
theorem yields_compares (hr : ∀ x, arithOf x aop p.ad.toNat s1 0 = arithCompares (v x)) (h0 : aop < 2 ^ 6 := by decide) (hc : canIssue c s) :
    Yields c s g.e.toNat fun x y => stBit y.st stN = decide (v x < 0) ∧ stBit y.st stZ = decide (v x = 0) := by
  refine yields_par hs hw h0 h1 (by decide) p.x.isLt p.y.isLt (fun x env _ hk => nz_afterPlain (accEffects_par hk p.ad.isLt) ?_) hc
  rw [effOf_par_nz, effArith_nz, hr]
  rfl

end

/-! ## Loads into an accumulator (R212, R213) -/

/-- A class 0 command whose moves load an accumulator clears its pin. -/
theorem yields_clears {c : Instr} {g : EngAt} {s : State} {ad : BitVec 2} {aop : BitVec 6} {s1 s2 : BitVec 4} {fx fy n : Nat}
    (hs : s.shape = unitCounts) (hw : engWord c = some (g, wordPar aop.toNat ad.toNat s1.toNat s2.toNat fx fy))
    (h3 : fx < 2 ^ 23) (h4 : fy < 2 ^ 23) (hn : n < 4)
    (h : ∀ (x : Engine) (env : EngEnv), ∃ v, (n, v, false) ∈
      (effMove x env.det false (moveOf fx)).a ++ ((effMove x env.det true (moveOf fy)).a ++ (effWide x (moveOf fx) (moveOf fy)).a))
    (hc : canIssue c s) : Yields c s g.e.toNat fun _ y => y.pinned n = false := by
  refine yields_par hs hw aop.isLt s1.isLt s2.isLt h3 h4 (fun x env _ hk => ?_) hc
  obtain ⟨v, hv⟩ := h x env
  refine pinned_afterPlain (accEffects_par hk ad.isLt) hn (v := v) ?_
  rw [effOf_par_acc]
  exact List.mem_append_right _ hv

/-- The field of LDA, on either side, loads its accumulator. -/
theorem lda_mem (x : Engine) (det isY : Bool) (ptr mod msel a : BitVec 2) :
    ∃ v, (a.toNat, v, false) ∈ (effMove x det isY (moveOf (wordMove 4 ptr.toNat mod.toNat msel.toNat a.toNat 0))).a := by
  rw [(moveOf_wordMove (by decide) ptr.isLt mod.isLt msel.isLt (by omega) (by decide)).1, effMove_a, if_pos rfl, Nat.mod_eq_of_lt a.isLt]
  exact ⟨_, List.mem_singleton_self _⟩

/-- The X field of a wide load loads its accumulator. -/
theorem wideLoad_mem (x : Engine) (ptr mod msel a : BitVec 2) (my : MoveF) :
    ∃ v, (a.toNat, v, false) ∈ (effWide x (moveOf (wordMove 6 ptr.toNat mod.toNat msel.toNat (8 + a.toNat) 0)) my).a := by
  have hmod : (8 + a.toNat) % 4 = a.toNat := by omega
  rw [(moveOf_wordMove (by decide) ptr.isLt mod.isLt msel.isLt (by omega) (by decide)).1, effWide_a, if_pos ⟨rfl, Nat.le_add_right 8 _⟩, hmod]
  exact ⟨_, List.mem_singleton_self _⟩

theorem yields_lda {g : EngAt} {s : State} (hs : s.shape = unitCounts) (m : MoveArgs) (a : BitVec 2) (o : Around)
    (hc : canIssue (.lda g m a o) s) : Yields (.lda g m a o) s g.e.toNat fun _ y => y.pinned a.toNat = false := by
  obtain ⟨isY, ptr, mod, msel⟩ := m
  have hlt := (moveOf_wordMove (op := 4) (reg := a.toNat) (sh := 0) (by decide) ptr.isLt mod.isLt msel.isLt (by omega) (by decide)).2
  cases isY with
  | false =>
    refine yields_clears (fx := wordMove 4 ptr.toNat mod.toNat msel.toNat a.toNat 0) (fy := o.other.toNat) hs rfl hlt o.other.isLt a.isLt
      (fun x env => ?_) hc
    obtain ⟨v, hv⟩ := lda_mem x env.det false ptr mod msel a
    exact ⟨v, List.mem_append_left _ hv⟩
  | true =>
    refine yields_clears (fx := o.other.toNat) (fy := wordMove 4 ptr.toNat mod.toNat msel.toNat a.toNat 0) hs rfl o.other.isLt hlt a.isLt
      (fun x env => ?_) hc
    obtain ⟨v, hv⟩ := lda_mem x env.det true ptr mod msel a
    exact ⟨v, List.mem_append_right _ (List.mem_append_left _ hv)⟩

theorem yields_wideLoad {g : EngAt} {s : State} (hs : s.shape = unitCounts) (a : BitVec 2) (w : WideArgs)
    (hc : canIssue (.wideLoad g a w) s) : Yields (.wideLoad g a w) s g.e.toNat fun _ y => y.pinned a.toNat = false := by
  have hlt := fun ptr mod msel : BitVec 2 =>
    (moveOf_wordMove (op := 6) (reg := 8 + a.toNat) (sh := 0) (by decide) ptr.isLt mod.isLt msel.isLt (by omega) (by decide)).2
  refine yields_clears hs rfl (hlt w.xptr w.xmod w.xmsel) (hlt w.yptr w.ymod w.ymsel) a.isLt (fun x env => ?_) hc
  obtain ⟨v, hv⟩ := wideLoad_mem x w.xptr w.xmod w.xmsel a _
  exact ⟨v, List.mem_append_right _ (List.mem_append_right _ hv)⟩

/-! ## The commands of class 1 (R215, R216) -/

theorem yields_reg {c : Instr} {g : EngAt} {s : State} {rop dst src imm : Nat} {P : Engine → Engine → Prop} (hs : s.shape = unitCounts)
    (hw : engWord c = some (g, wordReg rop dst src imm)) (h0 : rop < 2 ^ 6) (h1 : dst < 2 ^ 8) (h2 : src < 2 ^ 8) (h3 : imm < 2 ^ 32)
    (h : ∀ x env, P x (afterPlain x env (.reg rop dst src imm))) (hc : canIssue c s) : Yields c s g.e.toNat P := by
  have hi := (insOf_wordReg h0 h1 h2 h3).1
  refine yields_plain hs hw hc (by rw [hi]; rfl) fun x env _ _ => ?_
  rw [hi]
  exact h x env

/-- A move into an accumulator writes it and nothing else (R215). -/
theorem effDst_acc {n : Nat} (hn : n < 4) (v : Word) : effDst (0x10 + n) v = { Eff.none with a := [(n, v.toInt * 2 ^ 31, false)] } := by
  rw [effDst, if_neg (by omega), if_pos (by omega), Nat.add_sub_cancel_left]

/-- MOV and MOVI into an accumulator clear its pin (R215). -/
theorem pinned_afterMove {x : Engine} {env : EngEnv} {i : EIns} {n : Nat} (v : Word) (hn : n < 4)
    (ha : (effOf x env i).a = (effDst (0x10 + n) v).a) (hst : (effOf x env i).st = (effDst (0x10 + n) v).st) :
    (afterPlain x env i).pinned n = false := by
  rw [effDst_acc hn] at ha hst
  refine pinned_afterPlain ⟨?_, ?_, hst⟩ hn (v := v.toInt * 2 ^ 31) ?_ <;> rw [ha]
  · exact List.pairwise_singleton _ _
  · simpa using hn
  · exact List.mem_singleton_self _

theorem effOf_cmpdi (x : Engine) (env : EngEnv) (dst imm : Nat) : effOf x env (.reg 13 dst 0 imm) =
    { Eff.none with nz := nzOf ((x.bank.dN dst).toInt - (BitVec.ofNat 32 imm).toInt) } := rfl

/-- N and Z after CMPD and CMPDI (R216). -/
theorem nz_afterCompare {x : Engine} {env : EngEnv} {i : EIns} {v : Int} (h : effOf x env i = { Eff.none with nz := nzOf v }) :
    stBit (afterPlain x env i).st stN = decide (v < 0) ∧ stBit (afterPlain x env i).st stZ = decide (v = 0) := by
  refine nz_afterPlain ⟨?_, ?_, ?_⟩ ?_ <;> rw [h]
  · exact List.nodup_nil
  · simp [Eff.none]
  · rfl

/-- Settles O7: an instruction that can issue puts the result of its arithmetic in its accumulator, and no move of the
same instruction writes it; each result is the exact value, saturated, or nothing under a pin. -/
theorem engineAccumulators : Obligations.EngineAccumulators := by
  unfold Obligations.EngineAccumulators
  refine ⟨?products, ?sums, ?values, ?tests, ?clears⟩
  case products =>
    intro s g p hs e n prod
    refine ⟨yields_arith hs rfl p.s1.isLt p.s2.isLt fun x y h => ?_, yields_arith hs rfl p.s1.isLt p.s2.isLt fun x y h => ?_,
      yields_arith hs rfl p.s1.isLt p.s2.isLt fun x y h => ?_⟩
    · exact eq_of_accGets_places (inAcc_mul _ _) h
    · exact takes_of_accGets h
    · exact takes_of_accGets h
  case sums =>
    intro s g p m k d hs n gives
    have hm : m.toNat % 4 = m.toNat := Nat.mod_eq_of_lt m.isLt
    refine ⟨yields_sum hs rfl (by omega) fun x => ?_, yields_sum hs rfl (by omega) fun x => ?_, yields_sum hs rfl (by decide) fun x => ?_,
      yields_sum hs rfl (by decide) fun x => ?_, yields_sum hs rfl k.isLt fun x => ?_, yields_sum hs rfl (by decide) fun x => ?_,
      yields_sum hs rfl d.isLt fun x => ?_, yields_sum hs rfl d.isLt fun x => ?_⟩
    · rw [arithOf, hm]; rfl
    · rw [arithOf, hm]; rfl
    · rfl
    · have habs : ((x.oldAcc n).natAbs : Int) = if x.oldAcc n < 0 then - x.oldAcc n else x.oldAcc n := by split <;> omega
      rw [← habs]; rfl
    · rfl
    · rfl
    · rfl
    · rfl
  case values =>
    intro s g p m k d c hs n sets
    have hm : m.toNat % 4 = m.toNat := Nat.mod_eq_of_lt m.isLt
    refine ⟨yields_places hs rfl (by decide) (fun x => rfl) fun x => inAcc_zero,
      yields_places hs rfl d.isLt (fun x => rfl) fun x => inAcc_upper _,
      yields_places hs rfl (by omega) (fun x => ?_) fun x => inAcc_max (inAcc_oldAcc x _) (inAcc_oldAcc x _),
      yields_places hs rfl (by omega) (fun x => ?_) fun x => inAcc_min (inAcc_oldAcc x _) (inAcc_oldAcc x _),
      yields_arith hs rfl (by omega) c.isLt fun x y h => ?_, yields_arith hs rfl k.isLt (by decide) fun x y h => ?_⟩
    · rw [arithOf, hm]; rfl
    · rw [arithOf, hm]; rfl
    · rw [arithOf, hm] at h
      exact selects_of_accGets (inAcc_oldAcc x _) h
    · exact shifts_of_accGets (inAcc_div (inAcc_oldAcc x _) _) h
  case tests =>
    intro s g p m d r imm hs tests
    have hm : m.toNat % 4 = m.toNat := Nat.mod_eq_of_lt m.isLt
    refine ⟨yields_compares hs rfl (by omega) fun x => ?_, yields_compares hs rfl (by decide) fun x => rfl, ?_, ?_⟩
    · rw [arithOf, hm]; rfl
    · exact yields_reg hs rfl (by decide) (by omega) (by omega) (by decide) fun x env => nz_afterCompare rfl
    · refine yields_reg hs rfl (by decide) (by omega) (by decide) imm.isLt fun x env => ?_
      have hcmp := effOf_cmpdi x env d.toNat imm.toNat
      rw [BitVec.ofNat_toNat, BitVec.setWidth_eq] at hcmp
      exact nz_afterCompare hcmp
  case clears =>
    intro s g m a o w src imm hs n clears dst
    have hdst : dst.toNat = 0x10 + n := Nat.mod_eq_of_lt (by omega)
    refine ⟨yields_lda hs m a o, yields_wideLoad hs a w, ?_, ?_⟩
    · refine yields_reg hs rfl (by decide) dst.isLt src.isLt (by decide) fun x env => ?_
      rw [hdst]
      exact pinned_afterMove (srcReg x src.toNat).1 a.isLt rfl rfl
    · refine yields_reg hs rfl (by decide) dst.isLt (by decide) imm.isLt fun x env => ?_
      rw [hdst]
      exact pinned_afterMove (BitVec.ofNat 32 imm.toNat) a.isLt rfl rfl

end Sys2Proof.Proofs
end

section
/-! Sequencing and control (R211, R218 to R220): what the next instruction is, what the control instructions leave of the
loop, branch and repeat registers, and how a partition and a task end. -/

namespace Sys2Proof.Proofs

open Sys2Proof Sys2Proof.Machine Sys2Proof.Laws

/-! ## Late writes in place -/

theorem stSet_self (st : BitVec 16) {i : Nat} (hi : i < 16) : stSet st i (stBit st i) = st := by
  refine BitVec.eq_of_getLsbD_eq fun j _ => ?_
  have h := stBit_stSet st i j (stBit st i) hi
  unfold stBit at h ⊢
  rw [h]
  split
  next hj => rw [hj]
  next => rfl

theorem setBank_bank (g : Engine) : g.setBank g.bank = g := by
  unfold Engine.setBank Engine.bank
  split <;> rfl

/-- Without a saturation the flags stay. -/
theorem markSat_false (g : Engine) : markSat g false false = g := by
  unfold markSat
  simp only [Bool.false_or, Bool.false_and, Bool.or_false, stSet_self g.st (show stAV < 16 by decide), stSet_self g.st (show stSV < 16 by decide)]

/-- Without post-modifications and the loop hardware no late write is overridden. -/
theorem landedFor_none (g : Engine) : landedFor g Eff.none false = g.landed := by
  have hkeep : ∀ l ∈ g.late, (!lateLost Eff.none.mods false l) = true := by
    intro l _
    cases l with
    | reg r v => cases r <;> rfl
    | x a v => rfl
    | y b a v => rfl
  unfold landedFor
  rw [List.filter_eq_self.2 hkeep]
  rfl

/-- An instruction without effects of its own lets the late writes land (R197, R204). -/
theorem commitEff_none (g : Engine) : commitEff g Eff.none false = g.drain := by
  have hbank : commitEff g Eff.none false =
      { markSat ((landedFor g Eff.none false).setBank (landedFor g Eff.none false).bank) false false with
        aOld := g.bank.a, stOld := (landedFor g Eff.none false).st, late := [] } := rfl
  have ha : g.bank.a = g.landed.bank.a := (sameCore_foldLate g.late g).a.symm
  rw [hbank, setBank_bank, markSat_false, landedFor_none, ha]
  rfl

/-- The engine with another cycle count. -/
def withCycle (g : Engine) (n : Nat) : Engine := { g with cyc := n }

theorem setBank_withCycle (g : Engine) (n : Nat) (b : RegBank) : (withCycle g n).setBank b = withCycle (g.setBank b) n := by
  unfold Engine.setBank withCycle
  split <;> rfl

theorem applyLate_withCycle (g : Engine) (n : Nat) (l : Late) : applyLate (withCycle g n) l = withCycle (applyLate g l) n := by
  cases l with
  | x a v => rfl
  | y b a v => cases b <;> rfl
  | reg r v => cases r <;> first | exact setBank_withCycle _ _ _ | rfl

theorem foldLate_withCycle (l : List Late) (g : Engine) (n : Nat) :
    l.foldl applyLate (withCycle g n) = withCycle (l.foldl applyLate g) n := by
  induction l generalizing g with
  | nil => rfl
  | cons a l ih => rw [List.foldl_cons, List.foldl_cons, applyLate_withCycle, ih]

/-- The late writes land whatever the cycle. -/
theorem drain_withCycle (g : Engine) (n : Nat) : (withCycle g n).drain = withCycle g.drain n := by
  have hlate : (withCycle g n).late.foldl applyLate (withCycle g n) = withCycle g.landed n := foldLate_withCycle g.late g n
  unfold Engine.drain
  rw [hlate]
  rfl

theorem drain_pc (g : Engine) : g.drain.pc = g.pc := (sameCore_foldLate g.late g).pc

theorem drain_save (g : Engine) : g.drain.saveLc = g.saveLc ∧ g.drain.saveLs = g.saveLs ∧ g.drain.saveLe = g.saveLe := by
  have h := (sameCore_foldLate g.late g).save
  simp only [Prod.mk.injEq] at h
  exact h

/-! ## Sequencing of classes 0, 1 and 3 -/

theorem setBank_sequence (g : Engine) (b : RegBank) : (g.setBank b).pc = g.pc ∧ (g.setBank b).rc = g.rc ∧ (g.setBank b).br = g.br := by
  unfold Engine.setBank
  split <;> exact ⟨rfl, rfl, rfl⟩

/-- The effects of an instruction leave what sequencing goes by. -/
theorem commit_sequence (g : Engine) (e : Eff) (lw : Bool) :
    (commitEff g e lw).pc = g.pc ∧ (commitEff g e lw).rc = g.rc ∧ (commitEff g e lw).br = g.br := by
  have h := sameCore_landedFor g e lw
  simp only [commitEff, markSat, setBank_sequence]
  exact ⟨h.pc, h.rc, h.br⟩

theorem committed_sequence (x : Engine) (env : EngEnv) (i : EIns) :
    (committed x env i).pc = x.pc ∧ (committed x env i).rc = x.rc ∧ (committed x env i).br = x.br :=
  commit_sequence (withCycle x (x.cyc + 1)) _ _

theorem toNat_sub_one {r : BitVec 9} (h : 1 < r.toNat) : (r - 1).toNat = r.toNat - 1 := by bv_omega

/-- While the repeat count is above one the same instruction follows (R218). -/
theorem advance_of_repeat {k : Engine} (le : Option (BitVec 13 × BitVec 16 × Bool)) (h : 1 < k.rc.toNat) :
    advance k le = { k with rc := k.rc - 1 } := by
  have h0 : k.rc ≠ 0 := fun h0 => by rw [h0] at h; exact absurd h (by decide)
  have h1 : k.rc - 1 ≠ 0 := fun h1 => by
    have hone := toNat_sub_one h
    rw [h1] at hone
    exact absurd hone (Nat.ne_of_lt (Nat.sub_pos_of_lt h))
  unfold advance
  simp only [if_neg h0, if_pos h1]

section
variable {k : Engine} (h : k.rc.toNat ≤ 1)
include h

theorem rc_of_last : k.rc - (if k.rc = 0 then 0 else 1) = 0 := by split <;> bv_omega

/-- The last repetition of the instruction at the end of a loop goes where the loop hardware says (R219). -/
theorem advance_of_loopEnd (pc : BitVec 13) (lc : BitVec 16) (la : Bool) : (advance k (some (pc, lc, la))).rc = 0 ∧
    (advance k (some (pc, lc, la))).pc = pc ∧ (advance k (some (pc, lc, la))).lc = lc := by
  unfold advance
  simp only [rc_of_last h, ne_eq, not_true_eq_false, if_false, and_self]

/-- Elsewhere the last repetition goes to the target of a pending branch, or to the next word (R220). -/
theorem advance_of_no_loopEnd : (advance k none).rc = 0 ∧ (advance k none).pc = k.br.getD (k.pc + 1) := by
  unfold advance
  simp only [rc_of_last h, ne_eq, not_true_eq_false, if_false]
  cases k.br <;> exact ⟨rfl, rfl⟩

end

theorem countBg_sequence (det : Bool) (o : List EngOut) (g : Engine) :
    (countBg det o g).pc = g.pc ∧ (countBg det o g).rc = g.rc ∧ (countBg det o g).lc = g.lc := by
  unfold countBg
  split <;> exact ⟨rfl, rfl, rfl⟩

/-- R218 to R220: what follows an instruction that is no control instruction. -/
def Follows (x y : Engine) : Prop :=
  if 1 < x.rc.toNat then y.pc = x.pc ∧ y.rc.toNat = x.rc.toNat - 1
  else y.rc = 0 ∧
    if stBit x.st stLA = true ∧ x.pc = x.le then
      (if 1 < x.lc.toNat then y.pc = x.ls ∧ y.lc = x.lc - 1 else y.pc = x.le + 1 ∧ y.lc = 0)
    else y.pc = x.br.getD (x.pc + 1)

theorem follows_afterPlain (x : Engine) (env : EngEnv) (i : EIns) : Follows x (afterPlain x env i) := by
  obtain ⟨hpc, hrc, hbr⟩ := committed_sequence x env i
  obtain ⟨ypc, yrc, ylc⟩ := countBg_sequence env.det (effOf x env i).outs (advance (committed x env i) (loopEnd x))
  unfold Follows afterPlain
  rw [ypc, yrc, ylc]
  split
  next h =>
    rw [advance_of_repeat _ (by rw [hrc]; exact h), hrc]
    exact ⟨hpc, toNat_sub_one h⟩
  next h =>
    have hlast : (committed x env i).rc.toNat ≤ 1 := by rw [hrc]; exact Nat.le_of_not_lt h
    by_cases hla : stBit x.st stLA = true ∧ x.pc = x.le
    · by_cases hlc : 1 < x.lc.toNat
      · rw [loopEnd, if_pos hla, if_pos hlc, if_pos hla, if_pos hlc]
        exact advance_of_loopEnd hlast _ _ _
      · rw [loopEnd, if_pos hla, if_neg hlc, if_pos hla, if_neg hlc]
        exact advance_of_loopEnd hlast _ _ _
    · have hnext := advance_of_no_loopEnd hlast
      rw [hpc, hbr] at hnext
      rw [loopEnd, if_neg hla, if_neg hla]
      exact hnext

/-! ## The issue of a control instruction -/

/-- The engine that a control instruction finds: the late writes in place, and its cycle counted. -/
def settled (x : Engine) : Engine := withCycle x.drain (x.cyc + 1)

theorem commitEff_cycle (x : Engine) : commitEff (withCycle x (x.cyc + 1)) Eff.none false = settled x := by
  rw [commitEff_none, drain_withCycle]
  rfl

/-- The cycle in which a control instruction of the sample partition may issue: that of END, or one before it (R196). -/
def InCycle (x : Engine) (cop : Nat) : Prop := if cop = 6 then x.cyc + 5 = x.slen else x.cyc + 5 < x.slen

theorem issueWord_ctl {x : Engine} {env : EngEnv} {w cop reg cond addr imm : Nat} (hi : insOf w = .ctl cop reg cond addr imm)
    (hr : reservedWord w = false) (hx : contextReserved x (.ctl cop reg cond addr imm) = false)
    (hph : if x.phase = .sample then backgroundOnly (.ctl cop reg cond addr imm) = false ∧ InCycle x cop
      else sampleOnly (.ctl cop reg cond addr imm) = false) :
    issueWord x env w 0 = issueCtl (withCycle x (x.cyc + 1)) cop reg cond addr imm := by
  unfold InCycle at hph
  unfold issueWord withCycle
  cases hs : x.phase == .sample with
  | true =>
    rw [if_pos (beq_iff_eq.1 hs)] at hph
    obtain ⟨hb, hcyc⟩ := hph
    by_cases h6 : cop = 6
    · subst h6
      rw [if_pos rfl] at hcyc
      simp [hi, hr, hx, hb, hcyc]
    · rw [if_neg h6] at hcyc
      simp [hi, hr, hx, hb, h6, Nat.not_le.2 hcyc]
  | false =>
    rw [if_neg (beq_eq_false_iff_ne.1 hs)] at hph
    simp [hi, hr, hx, hph]

theorem settled_pc (x : Engine) : (settled x).pc = x.pc := drain_pc x

/-- Nothing is late in a settled engine. -/
theorem settled_drain (x : Engine) : (settled x).drain = settled x := rfl

theorem settled_save (x : Engine) :
    (settled x).saveLc = x.saveLc ∧ (settled x).saveLs = x.saveLs ∧ (settled x).saveLe = x.saveLe := drain_save x

section
variable (x : Engine) (reg addr imm : Nat)

theorem issueCtl_rep : issueCtl (withCycle x (x.cyc + 1)) 0 0 0 0 imm =
    ({ settled x with pc := x.pc + 1, rc := BitVec.ofNat 9 imm }, []) := by
  rw [← settled_pc x, ← commitEff_cycle]
  rfl

theorem issueCtl_repr : issueCtl (withCycle x (x.cyc + 1)) 1 reg 0 0 0 =
    ({ settled x with pc := x.pc + 1, rc := BitVec.ofNat 9 (max 1 (min (x.bank.dN reg).toNat 256)) }, []) := by
  rw [← settled_pc x, ← commitEff_cycle]
  rfl

/-- LOOP and LOOPR start a loop of n passes at the next word. -/
def loopStarted (addr n : Nat) : Engine :=
  { settled x with pc := x.pc + 1, ls := x.pc + 1, le := BitVec.ofNat 13 addr, lc := BitVec.ofNat 16 n, st := stSet (settled x).st stLA true }

theorem loopStarted_registers (addr : BitVec 13) {n : Nat} (hn : n < 2 ^ 16) :
    (loopStarted x addr.toNat n).ls = x.pc + 1 ∧ (loopStarted x addr.toNat n).le = addr ∧ (loopStarted x addr.toNat n).lc.toNat = n ∧
      stBit (loopStarted x addr.toNat n).st stLA = true ∧ (loopStarted x addr.toNat n).pc = x.pc + 1 := by
  have hla : stBit (stSet (settled x).st stLA true) stLA = true := by rw [stBit_stSet _ _ _ _ (by decide), if_pos rfl]
  exact ⟨rfl, BitVec.eq_of_toNat_eq (Nat.mod_eq_of_lt addr.isLt), Nat.mod_eq_of_lt hn, hla, rfl⟩

theorem issueCtl_loop : issueCtl (withCycle x (x.cyc + 1)) 2 0 0 addr imm = (loopStarted x addr imm, []) := by
  rw [loopStarted, ← settled_pc x, ← commitEff_cycle]
  rfl

theorem issueCtl_loopr : issueCtl (withCycle x (x.cyc + 1)) 3 reg 0 addr 0 =
    (loopStarted x addr (if (x.bank.dN reg).toNat % 2 ^ 16 = 0 then 1 else (x.bank.dN reg).toNat % 2 ^ 16), []) := by
  rw [loopStarted, ← settled_pc x, ← commitEff_cycle]
  rfl

theorem issueCtl_lsave : issueCtl (withCycle x (x.cyc + 1)) 4 0 0 0 0 = ({ settled x with
    pc := x.pc + 1, saveLc := (settled x).lc, saveLs := (settled x).ls, saveLe := (settled x).le, cyc := (settled x).cyc + 3 }, []) := by
  rw [← settled_pc x, ← commitEff_cycle]
  rfl

theorem issueCtl_lrest : issueCtl (withCycle x (x.cyc + 1)) 5 0 0 0 0 = ({ settled x with
    pc := x.pc + 1, lc := (settled x).saveLc, ls := (settled x).saveLs, le := (settled x).saveLe, cyc := (settled x).cyc + 3 }, []) := by
  rw [← settled_pc x, ← commitEff_cycle]
  rfl

theorem issueCtl_br (cond : Nat) : issueCtl (withCycle x (x.cyc + 1)) 8 0 cond addr 0 =
    ({ settled x with pc := x.pc + 1, br := some (if condHolds x.stOld cond then BitVec.ofNat 13 addr else x.pc + 2),
                      st := if condHolds x.stOld cond then stSet (settled x).st stLA false else (settled x).st }, []) := by
  rw [← settled_pc x, ← commitEff_cycle]
  rfl

theorem issueCtl_end : issueCtl (withCycle x (x.cyc + 1)) 6 0 0 0 0 = ({ settled x with phase := .ended, due := false }, [.ended]) := by
  rw [← settled_drain, ← commitEff_cycle]
  rfl

theorem issueCtl_tend : issueCtl (withCycle x (x.cyc + 1)) 7 0 0 0 0 =
    ({ settled x with phase := .idle, task := none }, [.taskEnd false]) := by
  rw [← settled_drain, ← commitEff_cycle]
  rfl

end

/-! ## The control commands -/

/-- A control command that can issue is the issue of its fields. -/
theorem exec_ctl {c : Instr} {g : EngAt} {s : State} {cop reg cond addr imm : Nat}
    (hw : engWord c = some (g, wordCtl cop reg cond addr imm)) (h0 : cop < 2 ^ 6) (h1 : reg < 2 ^ 4) (h2 : cond < 2 ^ 4) (h3 : addr < 2 ^ 13)
    (h4 : imm < 2 ^ 16) (h6 : cop ≠ 6) (hc : canIssue c s) :
    exec c s = .next (engDone g.e.toNat
      (issueCtl (withCycle (engAt s g.e.toNat) ((engAt s g.e.toNat).cyc + 1)) cop reg cond addr imm) s) := by
  have hi := (insOf_wordCtl h0 h1 h2 h3 h4).1
  obtain ⟨hrun, hperr, hr, hx, hph⟩ := (canIssue_iff hw s).1 hc
  rw [hi] at hx hph
  rw [exec_of_engRuns hw hrun hperr, issueWord_ctl hi hr hx]
  unfold InCycle
  rw [if_neg h6]
  exact hph

/-- A control command that does nothing outside its engine leaves in it what the issue of its fields leaves. -/
theorem yields_ctl {c : Instr} {g : EngAt} {s : State} {cop reg cond addr imm : Nat} {P : Engine → Engine → Prop} (hs : s.shape = unitCounts)
    (hw : engWord c = some (g, wordCtl cop reg cond addr imm)) (h1 : reg < 2 ^ 4) (h2 : cond < 2 ^ 4) (h3 : addr < 2 ^ 13)
    (h4 : imm < 2 ^ 16) (h : ∀ x, ∃ y, issueCtl (withCycle x (x.cyc + 1)) cop reg cond addr imm = (y, []) ∧ P x y)
    (h0 : cop < 2 ^ 6 := by decide) (h6 : cop ≠ 6 := by decide) (hc : canIssue c s) : Yields c s g.e.toNat P := by
  obtain ⟨y, hy, hp⟩ := h (engAt s g.e.toNat)
  refine ⟨_, exec_ctl hw h0 h1 h2 h3 h4 h6 hc, ?_⟩
  rw [hy, engAt_engDone (by rw [length_engines hs]; exact g.e.isLt) (by simp)]
  exact hp

/-- REP gives a count of at most 256 (R218). -/
theorem rep_le {g : EngAt} {n : BitVec 16} {s : State} (hc : canIssue (.rep g n) s) : n.toNat ≤ 256 := by
  obtain ⟨-, -, hr, -⟩ := (canIssue_iff rfl s).1 hc
  unfold reservedWord at hr
  rw [(insOf_wordCtl (by decide) (by decide) (by decide) (by decide) n.isLt).1] at hr
  simp only [Bool.not_eq_false', Bool.and_eq_true, if_true, decide_eq_true_eq] at hr
  exact hr.2.2

/-! ## Conditions (R211) -/

theorem condHolds_iff (st : BitVec 16) {k : Nat} (hk : k < 9) : condHolds st k = true ↔
    (k = 0 ∨ (k = 1 ∧ stBit st stZ = true) ∨ (k = 2 ∧ ¬ stBit st stZ = true) ∨ (k = 3 ∧ stBit st stN = true) ∨
      (k = 4 ∧ ¬ stBit st stN = true) ∨ (k = 5 ∧ (stBit st stN = true ∨ stBit st stZ = true)) ∨
      (k = 6 ∧ ¬ stBit st stN = true ∧ ¬ stBit st stZ = true) ∨ (k = 7 ∧ stBit st stAV = true) ∨ (k = 8 ∧ stBit st stSV = true)) := by
  have hcases : k = 0 ∨ k = 1 ∨ k = 2 ∨ k = 3 ∨ k = 4 ∨ k = 5 ∨ k = 6 ∨ k = 7 ∨ k = 8 := by omega
  unfold condHolds
  obtain rfl | rfl | rfl | rfl | rfl | rfl | rfl | rfl | rfl := hcases <;> simp

theorem not_condOk {c : BitVec 4} (h : 9 ≤ c.toNat) : condOk c.toNat = false := by
  simp only [condOk, decide_eq_false_iff_not]
  omega

/-- A BR with an unlisted condition is reserved. -/
theorem not_canIssue_br {g : EngAt} {c : BitVec 4} {addr : BitVec 13} (s : State) (h : 9 ≤ c.toNat) : ¬ canIssue (.br g c addr) s := by
  intro hc
  obtain ⟨-, -, hr, -⟩ := (canIssue_iff rfl s).1 hc
  unfold reservedWord at hr
  rw [(insOf_wordCtl (by decide) (by decide) c.isLt addr.isLt (by decide)).1] at hr
  simp [not_condOk h] at hr

/-- A SELA with an unlisted condition is reserved. -/
theorem not_canIssue_sela {g : EngAt} {m : BitVec 2} {c : BitVec 4} {p : AccArgs} (s : State) (h : 9 ≤ c.toNat) :
    ¬ canIssue (.sela g m c p) s := by
  intro hc
  obtain ⟨-, -, hr, -⟩ := (canIssue_iff rfl s).1 hc
  have hi := (insOf_wordPar (aop := 0x13) (s1 := m.toNat) (by decide) p.ad.isLt (by omega) c.isLt p.x.isLt p.y.isLt).1
  have haop := (checked_par hr hi).aop _ _ _ _ _ _ rfl
  simp [aopOk, not_condOk h] at haop

/-! ## The ends of a partition and of a task -/

theorem engines_endTask (k : Nat) (fault : Bool) (s : State) : (endTask k fault s).engines = s.engines := by
  unfold endTask makeReady takeSeq busyOff
  split
  · rfl
  · cases fault with
    | true => simp only [if_true, setDesc_engines, updCore_engines]
    | false =>
      simp only [Bool.false_eq_true, if_false]
      split <;> simp only [setDesc_engines, updCore_engines]

theorem engAt_endTask (k e : Nat) (fault : Bool) (s : State) : engAt (endTask k fault s) e = engAt s e := by
  rw [engAt, engines_endTask]
  rfl

theorem length_cores {s : State} (h : s.shape = unitCounts) : s.sched.cores.length = 20 :=
  congrArg (·.getD 14 0) (List.cons.inj h).1

theorem schCore_setDesc (t k : Nat) (d : Desc) (s : State) : schCore (setDesc t d s) k = schCore s k := rfl
theorem schCore_takeSeq (k : Nat) (s : State) : schCore (takeSeq s) k = schCore s k := rfl

/-- R345: the core of a task that ended runs none. -/
theorem run_endTask {k : Nat} {s : State} (hk : k < s.sched.cores.length) : (schCore (endTask k false s) k).run = none := by
  unfold endTask
  split
  next h => exact h
  next =>
    simp only [Bool.false_eq_true, if_false, apply_ite (schCore · k), makeReady, schCore_setDesc, schCore_takeSeq, ite_self]
    rw [schCore_updCore, if_pos ⟨rfl, by rw [busyOff, updCore_sched, length_updAt]; exact hk⟩]

theorem engDone_ended (e : Nat) (y : Engine) (s : State) : engDone e (y, [.ended]) s = setEng e y s := rfl
theorem engDone_taskEnd (e : Nat) (y : Engine) (s : State) : engDone e (y, [.taskEnd false]) s = endTask (4 + e) false (setEng e y s) := rfl

/-- END in its cycle ends the sample partition with every late write in place (R196, R197). -/
theorem yields_end {g : EngAt} {s : State} (hs : s.shape = unitCounts) (hrun : engRuns s (engAt s g.e.toNat) = true)
    (hph : (engAt s g.e.toNat).phase = .sample) (hperr : g.perr % 16 = 0)
    (hx : contextReserved (engAt s g.e.toNat) (.ctl 6 0 0 0 0) = false) (hcyc : (engAt s g.e.toNat).cyc + 5 = (engAt s g.e.toNat).slen) :
    Yields (.end_ g) s g.e.toNat fun x y =>
      y.phase = .ended ∧ y.due = false ∧ y.smp = x.landed.smp ∧ y.x = x.landed.x ∧ y.late = [] := by
  refine ⟨_, exec_of_engRuns (w := wordCtl 6 0 0 0 0) rfl hrun hperr, ?_⟩
  rw [issueWord_ctl (by decide) (by decide) hx (by rw [if_pos hph]; exact ⟨rfl, hcyc⟩), issueCtl_end, engDone_ended,
    engAt_setEng_self (by rw [length_engines hs]; exact g.e.isLt)]
  exact ⟨rfl, rfl, rfl, rfl, rfl⟩

/-- TEND ends the task, and frees its context in the scheduler (R200, R345). -/
theorem does_tend {g : EngAt} {s : State} (hs : s.shape = unitCounts) (hc : canIssue (.tend g) s) : ∃ t, exec (.tend g) s = .next t ∧
    engAt t g.e.toNat = { settled (engAt s g.e.toNat) with phase := .idle, task := none } ∧ (schCore t (4 + g.e.toNat)).run = none := by
  have he : g.e.toNat < 16 := g.e.isLt
  refine ⟨_, exec_ctl rfl (by decide) (by decide) (by decide) (by decide) (by decide) (by decide) hc, ?_, ?_⟩ <;>
    rw [issueCtl_tend, engDone_taskEnd]
  · rw [engAt_endTask, engAt_setEng_self (by rw [length_engines hs]; exact he)]
  · refine run_endTask ?_
    show 4 + g.e.toNat < s.sched.cores.length
    rw [length_cores hs]
    omega

/-- Settles O12: every instruction but a control one is followed as its repeat, loop and branch registers say; a control
instruction finds the late writes in place and changes the registers of its row. -/
theorem engineControl : Obligations.EngineControl := by
  unfold Obligations.EngineControl
  refine ⟨?starts, ?follows, ?saves, ?ends, ?conditions⟩
  case starts =>
    intro s g n d addr c hs
    refine ⟨fun hc => ?_, yields_ctl hs rfl d.isLt (by decide) (by decide) (by decide) fun x => ?_,
      yields_ctl hs rfl (by decide) (by decide) addr.isLt n.isLt fun x => ?_,
      yields_ctl hs rfl d.isLt (by decide) addr.isLt (by decide) fun x => ?_,
      yields_ctl hs rfl (by decide) c.isLt addr.isLt (by decide) fun x => ?_⟩
    · have hn := rep_le hc
      exact yields_ctl hs rfl (by decide) (by decide) (by decide) n.isLt
        (fun x => ⟨_, issueCtl_rep x n.toNat, Nat.mod_eq_of_lt (by omega), rfl⟩) (hc := hc)
    · exact ⟨_, issueCtl_repr x d.toNat, Nat.mod_eq_of_lt (by omega), rfl⟩
    · obtain ⟨hls, hle, hlc, hla, hpc⟩ := loopStarted_registers x addr n.isLt
      exact ⟨_, issueCtl_loop x addr.toNat n.toNat, hls, hle, BitVec.eq_of_toNat_eq hlc, hla, hpc⟩
    · exact ⟨_, issueCtl_loopr x d.toNat addr.toNat, loopStarted_registers x addr (by split <;> omega)⟩
    · have haddr : BitVec.ofNat 13 addr.toNat = addr := BitVec.eq_of_toNat_eq (Nat.mod_eq_of_lt addr.isLt)
      refine ⟨_, issueCtl_br x addr.toNat c.toNat, rfl, by rw [haddr], fun htaken => ?_, rfl⟩
      simp only [htaken, if_true, stBit_stSet _ _ _ _ (show stLA < 16 by decide)]
  case follows =>
    intro s c g w hs hw hplain hc
    have hp : isPlain (insOf w) = true := by
      cases hi : insOf w with
      | ctl cop reg cond addr imm => exact absurd hi (hplain _ _ _ _ _)
      | _ => rfl
    exact yields_plain hs hw hc hp fun x env _ _ => follows_afterPlain x env _
  case saves =>
    intro s g hs
    refine ⟨yields_ctl hs rfl (by decide) (by decide) (by decide) (by decide) fun x => ?_,
      yields_ctl hs rfl (by decide) (by decide) (by decide) (by decide) fun x => ?_⟩
    · exact ⟨_, issueCtl_lsave x, rfl, rfl, rfl, rfl, rfl⟩
    · obtain ⟨hlc, hls, hle⟩ := settled_save x
      exact ⟨_, issueCtl_lrest x, hlc, hls, hle, rfl, rfl⟩
  case ends =>
    intro s g hs
    refine ⟨fun hrun hph hperr hx hcyc => yields_end hs hrun hph hperr hx hcyc, fun hc => ?_⟩
    obtain ⟨t, ht, hy, hrun⟩ := does_tend hs hc
    refine ⟨t, ht, ?_⟩
    rw [hy]
    exact ⟨rfl, rfl, rfl, rfl, rfl, hrun⟩
  case conditions =>
    intro s g m p c addr st
    exact ⟨fun k hk => condHolds_iff st hk, fun h => ⟨not_canIssue_br s h, not_canIssue_sela s h⟩⟩

end Sys2Proof.Proofs
end

section
/-! The refutation of O46: a TFAULT above its 8 bits stays where it is when a task faults, and does not fall to 255. -/

namespace Sys2Proof.Proofs

open Sys2Proof Sys2Proof.Machine Sys2Proof.Laws

/-! ## What a task fault counts (R345) -/

/-- A saturating count is one more, or the top, exactly where the count was not above the top before. -/
theorem satInc_eq_min_iff (top n : Nat) : satInc top n = min (n + 1) top ↔ n ≤ top := by
  unfold satInc
  split <;> omega

theorem tfault_endTask_of_fault {k x : Nat} {s : State} (hrun : (schCore s k).run = some x) :
    (endTask k true s).sched.tfault = satInc 255 s.sched.tfault := by
  unfold endTask
  rw [hrun]
  rfl

/-- TASK_END on a control core touches no engine. -/
theorem exec_taskEnd_control {k : Nat} (hk : k < 4) (fault : Bool) (t : Nat) (s : State) :
    exec (.taskEnd k fault t) s = .next (endTask k fault (later t s)) := by
  change execTaskEnd k fault t s = _
  have hcore : ¬ 20 ≤ k := by omega
  have hengine : ¬ 4 ≤ k := by omega
  simp only [execTaskEnd, if_neg hcore, decide_eq_false hengine, Bool.false_and, Bool.false_eq_true, if_false]

/-- A fault on a control core leaves TFAULT at the lesser of one more and 255 exactly where it fitted its 8 bits. -/
theorem does_taskEnd_tfault_iff {k x : Nat} {s : State} (hk : k < 4) (hrun : (schCore s k).run = some x) (t : Nat) :
    Does (.taskEnd k true t) s (fun u => u.sched.tfault = min (s.sched.tfault + 1) 255) ↔ s.sched.tfault ≤ 255 := by
  have hcount : (endTask k true (later t s)).sched.tfault = satInc 255 s.sched.tfault :=
    tfault_endTask_of_fault (s := later t s) hrun
  simp only [Does, exec_taskEnd_control hk, Host.Outcome.next.injEq, exists_eq_left', hcount, satInc_eq_min_iff]

/-! ## The counterexample -/

/-- Control core 0 runs task 0, and TFAULT holds 256. -/
def overfullTfault : State := { State.reset with
  sched := { Sched.empty with tfault := 256, cores := Sched.empty.cores.set 0 { SchCore.empty with run := some 0 } } }

/-- Refutes O46, in its clause of a task that faults: SCH_STAT.TFAULT saturates at 255 (R345), and from a count above
255 the model counts no further, where the clause asks for 255. The clause lacks the premise that TFAULT fits its 8 bits. -/
theorem not_taskEnds : ¬ Obligations.TaskEnds := by
  unfold Obligations.TaskEnds
  intro h
  obtain ⟨-, -, -, faults, -⟩ := h overfullTfault 0 0 0 0 0 true (by decide) (by decide) rfl rfl rfl
  obtain ⟨u, hu, -, hcounts⟩ := faults rfl rfl
  have htfault : u.sched.tfault = min (overfullTfault.sched.tfault + 1) 255 := congrArg Prod.fst hcounts
  have hfits := (does_taskEnd_tfault_iff (by decide) rfl 0).mp ⟨u, hu, htfault⟩
  exact absurd hfits (by decide)

end Sys2Proof.Proofs
end

section
/-! The fault log (O57): what an entry changes, what a read of FLT_LOG returns and removes, and what a reset keeps (R302,
R401, R418). -/

namespace Sys2Proof.Proofs

open Sys2Proof Sys2Proof.Machine Sys2Proof.Laws

/-! ## Entering a fault (R418) -/

theorem flt_raiseInt (n : Nat) (s : State) : (raiseInt n s).flt = s.flt := by
  obtain h | ⟨-, h⟩ := raiseInt_cases s n <;> rw [h]

theorem bitAt_raiseInt_self (n : Nat) (s : State) : bitAt (raiseInt n s).host.intLatched n = true := by
  unfold raiseInt
  split
  next latched => exact latched
  next clear =>
    rw [bitAt_eq_testBit, Bool.not_eq_true] at clear
    rw [bitAt_eq_testBit, Nat.add_comm, Nat.testBit_two_pow_add_eq, clear, Bool.not_false]

theorem logFault_of_room {s : State} (h : s.flt.log.length < 16) (cls unit resp : Nat) : logFault cls unit resp s =
    raiseInt 14 { s with flt := { s.flt with log := s.flt.log ++ [⟨cls, unit, resp, s.frame.cnt % 2 ^ 32⟩] } } := if_pos h

theorem logFault_of_full {s : State} (h : 16 ≤ s.flt.log.length) (cls unit resp : Nat) :
    logFault cls unit resp s = { s with flt := { s.flt with ovf := true } } := if_neg (Nat.not_lt.2 h)

/-! ## Reading a register through a port (R302) -/

theorem portSt_setPort (p : Port) (x : PortSt) (s : State) : portSt (setPort p x s) p = x := by cases p <;> rfl
theorem flt_setPort (p : Port) (x : PortSt) (s : State) : (setPort p x s).flt = s.flt := rfl
theorem flt_turnTo (p : Port) (page : Nat) (s : State) : (turnTo p page s).flt = s.flt := by cases p <;> rfl

/-- A word of page 0 that the port reaches is a word of the register that stands there. -/
theorem wordRead_page0 {p : Port} {off : Nat} {x : RegAt} (hff : off ≠ 0xFFFF) (hr : reaches p 0 off = true)
    (hx : regFind 0 off = some x) (s : State) : wordRead p 0 off s = regRead p x (off - x.base) s := by
  have hport : ¬ (3 < 0 ∨ (!reaches p 0 off) = true) := by simp [hr]
  have hring : inRingMem 0 off = false := rfl
  simp only [wordRead, if_neg hff, if_neg hport, hring, Bool.false_eq_true, if_false, hx]

/-- A word that is not the base word comes from the latch that holds its register. -/
theorem regRead_of_latched {p : Port} {x : RegAt} {k : Nat} {l : ReadLatch} {s : State} (hm : ∀ c i, x.reg ≠ .mbxOut c i)
    (hk : k ≠ 0) (hl : (portSt s p).rd = some l) (hp : l.page = x.page) (hb : l.base = x.base) :
    regRead p x k s = (s, wordK l.value k) := by
  simp only [regRead, if_neg hk, hl, hp, hb, and_self, if_true]
  split
  next c hreg => exact absurd hreg (hm c 7)
  next => rfl

/-- The base word of a register of several words: the value is captured in the latch, and what the read clears is cleared. -/
theorem regRead_base {p : Port} {x : RegAt} (hm : ∀ c i, x.reg ≠ .mbxOut c i) (hw : x.width ≠ 1) (s : State) :
    regRead p x 0 s = (setPort p { portSt (baseRead x.reg s).1 p with rd := some ⟨x.page, x.base, (baseRead x.reg s).2⟩ }
      (baseRead x.reg s).1, wordK (baseRead x.reg s).2 0) := by
  simp only [regRead, if_true, if_neg hw]
  split
  next c hreg => exact absurd hreg (hm c 7)
  next => rfl

/-! ## FLT_LOG (R418) -/

/-- FLT_LOG at its place in the register map. -/
def fltLogAt : RegAt := ⟨.fltLog, 0, 0x1710, 4, false, 0⟩

theorem regFind_fltLog : ∀ k < 4, regFind 0 (0x1710 + k) = some fltLogAt := by decide

theorem burst_fltLog : burst 0 0x1710 4 = [0x1710, 0x1711, 0x1712, 0x1713] := by decide

/-- Both ports reach FLT_LOG. -/
theorem reaches_fltLog (p : Port) : ∀ k < 4, reaches p 0 (0x1710 + k) = true := by
  cases p <;> decide

theorem wordRead_fltLog (p : Port) {k : Nat} (hk : k < 4) (s : State) : wordRead p 0 (0x1710 + k) s = regRead p fltLogAt k s := by
  rw [wordRead_page0 (by omega) (reaches_fltLog p k hk) (regFind_fltLog k hk)]
  exact congrArg (regRead p fltLogAt · s) (Nat.add_sub_cancel_left 0x1710 k)

/-- A read of the base word takes the oldest entry out of the log. -/
theorem baseRead_fltLog (s : State) :
    baseRead fltLogAt.reg s = ({ s with flt := { s.flt with log := s.flt.log.drop 1 } }, fltLogReg s) := by
  have hz : readsZero s fltLogAt.reg = false := Bool.and_false _
  have hv : regVal s fltLogAt.reg = fltLogReg s := by rw [regVal, hz]; rfl
  rw [baseRead, hz, if_neg Bool.false_ne_true]
  exact congrArg (Prod.mk _) hv

theorem fltLogAt_ne_mbxOut : ∀ c i, fltLogAt.reg ≠ .mbxOut c i := fun _ _ h => nomatch h

/-- The state after a read of the base word of FLT_LOG: the entry is out of the log and in the port's latch. -/
def fltLogTaken (p : Port) (s : State) : State :=
  setPort p { portSt s p with rd := some ⟨0, 0x1710, fltLogReg s⟩ } { s with flt := { s.flt with log := s.flt.log.drop 1 } }

theorem flt_fltLogTaken (p : Port) (s : State) : (fltLogTaken p s).flt = { s.flt with log := s.flt.log.drop 1 } := flt_setPort _ _ _

theorem rd_fltLogTaken (p : Port) (s : State) : (portSt (fltLogTaken p s) p).rd = some ⟨0, 0x1710, fltLogReg s⟩ :=
  congrArg PortSt.rd (portSt_setPort _ _ _)

theorem regRead_fltLog_base (p : Port) (s : State) : regRead p fltLogAt 0 s = (fltLogTaken p s, wordK (fltLogReg s) 0) := by
  rw [regRead_base fltLogAt_ne_mbxOut (by decide), baseRead_fltLog]
  rfl

theorem regRead_fltLog_upper (p : Port) {k : Nat} (hk : k ≠ 0) (s : State) :
    regRead p fltLogAt k (fltLogTaken p s) = (fltLogTaken p s, wordK (fltLogReg s) k) :=
  regRead_of_latched fltLogAt_ne_mbxOut hk (rd_fltLogTaken p s) rfl rfl

theorem wordReads_fltLog (p : Port) (s : State) : wordReads p 0 [0x1710, 0x1711, 0x1712, 0x1713] s =
    (fltLogTaken p s, (List.range 4).map (wordK (fltLogReg s))) := by
  have h0 : wordRead p 0 0x1710 s = _ := (wordRead_fltLog p (k := 0) (by decide) s).trans (regRead_fltLog_base p s)
  have hk : ∀ k < 4, k ≠ 0 → wordRead p 0 (0x1710 + k) (fltLogTaken p s) = (fltLogTaken p s, wordK (fltLogReg s) k) :=
    fun k hlt hpos => (wordRead_fltLog p hlt _).trans (regRead_fltLog_upper p hpos s)
  have h1 := hk 1 (by decide) (by decide)
  have h2 := hk 2 (by decide) (by decide)
  have h3 := hk 3 (by decide) (by decide)
  simp only [Nat.reduceAdd] at h1 h2 h3
  simp only [wordReads, h0, h1, h2, h3]
  rfl

/-- FLT_LOG_READ returns the four words of FLT_LOG and takes the oldest entry out of the log. -/
theorem does_fltLogRead {s : State} (h : s.accessible) (p : Port) : Does (.fltLogRead p) s fun u =>
    u.flt.log = s.flt.log.drop 1 ∧ u.host.readOut.map (·.toNat) = (List.range 4).map fun k => fltLogReg s / 2 ^ (16 * k) % 2 ^ 16 := by
  obtain ⟨hreset, hsleep, -⟩ := h
  have hon : portsOn s = true := by simp [portsOn, hreset, hsleep]
  have hon' : portsOn (turnTo p 0 s) = true := by cases p <;> exact hon
  have hreg : fltLogReg (turnTo p 0 s) = fltLogReg s := by cases p <;> rfl
  have hfind : regFind 0 0x1710 = some fltLogAt := regFind_fltLog 0 (by decide)
  refine ⟨updHost (fun t => { t with readOut := (List.range 4).map (wordK (fltLogReg s)) }) (fltLogTaken p (turnTo p 0 s)), ?_, ?_, ?_⟩
  · show Host.Outcome.next (portReadReg p 0 0x1710 s) = _
    rw [portReadReg, hfind]
    show Host.Outcome.next (portReadAt p 0 (burst 0 0x1710 4) s) = _
    rw [burst_fltLog, portReadAt, if_pos hon, portRead, if_pos hon', wordReads_fltLog, hreg]
  · show (fltLogTaken p (turnTo p 0 s)).flt.log = _
    rw [flt_fltLogTaken, flt_turnTo]
  · show ((List.range 4).map (wordK (fltLogReg s))).map (·.toNat) = _
    rw [List.map_map]
    exact List.map_congr_left fun k _ => BitVec.toNat_ofNat _ _

/-- The words of an entry whose fields fit the layout of FLT_LOG. -/
theorem words_fltLogReg_cons {s : State} {e : FaultEntry} {es : List FaultEntry} (h : s.flt.log = e :: es) (hc : e.cls < 256)
    (hu : e.unit < 256) (hr : e.resp < 16) (hf : e.frame < 2 ^ 32) :
    ((List.range 4).map fun k => fltLogReg s / 2 ^ (16 * k) % 2 ^ 16) =
      [e.frame % 2 ^ 16, e.frame / 2 ^ 16, 4096 * e.resp, 256 * e.cls + e.unit] := by
  have hv : fltLogReg s = e.cls * 2 ^ 56 + e.unit * 2 ^ 48 + e.resp * 2 ^ 44 + e.frame := by
    rw [fltLogReg, h]
    simp only [place]
    omega
  simp only [hv, show List.range 4 = [0, 1, 2, 3] from rfl, List.map_cons, List.map_nil, List.cons.injEq, and_true]
  omega

theorem words_fltLogReg_nil {s : State} (h : s.flt.log = []) :
    ((List.range 4).map fun k => fltLogReg s / 2 ^ (16 * k) % 2 ^ 16) = [0, 0, 0, 0] := by
  rw [show fltLogReg s = 0 by rw [fltLogReg, h]]
  rfl

/-! ## Retention (R401) -/

/-- PIN_RESET of at least 1 us is a warm reset with CAUSE 1. -/
theorem exec_pinReset {ns : Nat} (h : 1000 ≤ ns) (strap : Bool) (s : State) :
    exec (.pinReset ns strap) s = .next (warmReset 1 strap s) := congrArg Host.Outcome.next (if_pos h)

/-- The fault log is in retention: no warm reset touches it. -/
theorem log_warmReset (cause : Nat) (strap : Bool) (s : State) : (warmReset cause strap s).flt.log = s.flt.log := rfl

/-- Settles O57: an entry with room is appended and latches the interrupt, one without sets OVF; a read of FLT_LOG gives
the oldest entry and removes it; and a pin reset keeps the log. -/
theorem faultLog : Obligations.FaultLog := by
  unfold Obligations.FaultLog
  intro s p cls unit resp e es strap ns _
  refine ⟨fun room => ?appended, fun full => ?dropped, fun hacc hlog hc hu hr hf => ?oldest, fun hacc hlog => ?empty,
    fun _ hns => ⟨_, exec_pinReset hns strap s, log_warmReset 1 strap s⟩⟩
  case appended =>
    rw [logFault_of_room room, flt_raiseInt]
    exact ⟨rfl, bitAt_raiseInt_self 14 _, rfl⟩
  case dropped =>
    rw [logFault_of_full full]
    exact ⟨rfl, rfl⟩
  case oldest =>
    obtain ⟨u, hdo, hremoved, hwords⟩ := does_fltLogRead hacc p
    refine ⟨u, hdo, ?_, hwords.trans (words_fltLogReg_cons hlog hc hu hr hf)⟩
    rw [hremoved, hlog, List.drop_one, List.tail_cons]
  case empty =>
    obtain ⟨u, hdo, hremoved, hwords⟩ := does_fltLogRead hacc p
    refine ⟨u, hdo, ?_, hwords.trans (words_fltLogReg_nil hlog)⟩
    rw [hremoved, hlog, List.drop_nil]

end Sys2Proof.Proofs
end
